-- ==== Sys2Proof/Word.lean ====
section
/-!
DEFINITION. The words of the YN-3300 and the values of a strand's 32 lanes.
-/
namespace Sys2Proof

/-- A register of one lane, an instruction word (00 R4, 02 R11). -/
abbrev Word := BitVec 32
/-- A 64-bit value: a register pair, an address, a PC (00 R4). -/
abbrev DWord := BitVec 64
abbrev Byte := BitVec 8
/-- One bit per lane (04 R69). -/
abbrev Mask := BitVec 32

/-- The values of the lanes 0 to 31 of one register, lane 0 first (05 R109). -/
abbrev Lanes (α : Type) := List α

/-- The lanes whose lane `L` holds `f L`. -/
def Lanes.gen {α : Type} (f : Nat → α) : Lanes α := (List.range 32).map f

/-- The value of lane `L`; `d` where there is none. -/
def Lanes.at {α : Type} (d : α) (v : Lanes α) (L : Nat) : α := v.getD L d

/-- Every lane holds zero. -/
def Lanes.zero : Lanes Word := List.replicate 32 0
def Lanes.zero64 : Lanes DWord := List.replicate 32 0

/-- Bit `L` of a lane mask. -/
def Mask.has (m : Mask) (L : Nat) : Bool := m.getLsbD L

/-- The mask of the lanes `L` with `f L`. -/
def Mask.ofPred (f : Nat → Bool) : Mask :=
  (List.range 32).foldl (fun m L => if f L then m ||| (1#32 <<< L) else m) 0

/-- The lanes of a mask in ascending order. -/
def Mask.lanes (m : Mask) : List Nat := (List.range 32).filter (Mask.has m)

/-- The lowest lane of a mask. -/
def Mask.lowest (m : Mask) : Option Nat := (Mask.lanes m).head?

/-- The number of lanes of a mask. -/
def Mask.count (m : Mask) : Nat := (Mask.lanes m).length

/-- The mask of every lane. -/
def Mask.all : Mask := 0xFFFF_FFFF#32

end Sys2Proof
end

