-- ==== Sys2Proof/Syntax.lean ====
section
/-!
DEFINITION. The instructions: one constructor per row of spec/opcode_table.json.  A row with an encoding carries its
fields as the table cuts them, at their widths; a row without one is a step of the device between or beside the words
of the strands, and carries what it acts on and every choice the spec leaves to the part or to the outside.
-/
namespace Sys2Proof

/-- What the boot processor finds in one image slot (24 R493, R494): the header, whether each signature verifies over the header and
the body, and the SHA-384 of the image (R495). -/
structure BootImage where
  magic   : BitVec 32
  flags   : BitVec 32
  version : BitVec 64
  zero    : BitVec 64
  bodyLen : BitVec 64
  edOk    : Bool
  mlDsaOk : Bool
  digest  : BitVec 384
  deriving DecidableEq, Repr

/-- Where an access to the control window comes from and goes to (22 R469): the hart, or the host (`hostAgent`), and the offset. -/
structure WindowPlace where
  agent  : Nat
  offset : Nat
  deriving DecidableEq, Repr

/-- The hart that makes an access (22 R474), and the VMID it runs under. -/
structure HartId where
  number : Nat
  vmid   : BitVec 8
  deriving DecidableEq, Repr

/-- The words of a beat (21 R453): the column offset, or the physical address, and the block that a read delivers them to. -/
structure BeatWords where
  addr   : Nat
  reader : Option Nat
  deriving DecidableEq, Repr

/-- What the boot processor finds of the part (24 R493, R494): the stacks that fail, and the measure of the resident kernel's image. -/
structure BootFindings where
  failed : List Nat
  kernel : BitVec 384
  deriving DecidableEq, Repr

/-- The two image slots (24 R493). -/
structure BootSlots where
  slotA : BootImage
  slotB : BootImage
  deriving DecidableEq, Repr

inductive Instr where
  /-- CLAUSE_START (R26): A clause header is decoded and checked, and the clause starts once every flag named in WAIT, SET_A and SET_B is clear. -/
  | clauseStart (l : BitVec 4) (w : BitVec 12) (a : BitVec 4) (b : BitVec 4)
  /-- SETMODE (R99): Writes MODE[15:0] of the issuing fragment. -/
  | setmode (i : BitVec 16)
  /-- SETMODEH (R99): Writes MODE[31:16] of the issuing fragment. -/
  | setmodeh (i : BitVec 16)
  /-- GETMODE (R101): Writes the fragment's MODE into D in every lane of its mask. -/
  | getmode (d : BitVec 8)
  /-- RCV (R102): Checks the reconvergence address and makes a join record for it on the divergence stack. -/
  | rcv (o : BitVec 16)
  /-- BRA (R103): Transfers the whole fragment to a checked target. -/
  | bra (h : BitVec 2) (o : BitVec 16)
  /-- BRC (R103): Branches the lanes selected by a predicate, splitting the fragment when they diverge. -/
  | brc (h : BitVec 2) (p : BitVec 4) (s : BitVec 1) (o : BitVec 16)
  /-- BRX (R104): Branches indirectly to per-lane 64-bit targets, sending the lanes of one target onward per issue. -/
  | brx (h : BitVec 2) (a : BitVec 8)
  /-- CALL (R105): Writes PC + 4 into the link pair and transfers the fragment to the target. -/
  | call (d : BitVec 8) (o : BitVec 16)
  /-- RET (R104): Returns through per-lane 64-bit addresses as brx does, training the return predictor. -/
  | ret (a : BitVec 8)
  /-- EXIT (R106): Ends the fragment and updates its join records. -/
  | exit
  /-- YIELD (R107): Makes the strand ineligible until other eligible strands of the partition have issued or 32 clk pass. -/
  | yield
  /-- NOP (R108): Occupies an issue slot and changes no state. -/
  | nop
  /-- MOV (R132): Copies A into D in each active lane. -/
  | mov (d : BitVec 8) (a : BitVec 8)
  /-- LIL (R132): Writes a zero-extended 16-bit immediate into D. -/
  | lil (d : BitVec 8) (i : BitVec 16)
  /-- LIH (R132): Writes a 16-bit immediate into the high half of D, keeping the low half. -/
  | lih (d : BitVec 8) (i : BitVec 16)
  /-- SEL (R132): Selects A or B per lane by the guard predicate. -/
  | sel (d : BitVec 8) (a : BitVec 8) (b : BitVec 8)
  /-- ADD (R136): Adds elements of TYPE, wrapping or saturating. -/
  | add (d : BitVec 8) (a : BitVec 8) (b : BitVec 8)
  /-- ADDC (R137): Adds with carry from and into p15. -/
  | addc (d : BitVec 8) (a : BitVec 8) (b : BitVec 8)
  /-- SUB (R136): Subtracts elements of TYPE. -/
  | sub (d : BitVec 8) (a : BitVec 8) (b : BitVec 8)
  /-- SUBB (R137): Subtracts with borrow from and into p15. -/
  | subb (d : BitVec 8) (a : BitVec 8) (b : BitVec 8)
  /-- MUL (R136): Multiplies elements, keeping the fitted low part. -/
  | mul (d : BitVec 8) (a : BitVec 8) (b : BitVec 8)
  /-- MULH (R136): Multiplies elements, keeping the high half. -/
  | mulh (d : BitVec 8) (a : BitVec 8) (b : BitVec 8)
  /-- MAD (R136): Adds the product of A and B to D with one fit. -/
  | mad (d : BitVec 8) (a : BitVec 8) (b : BitVec 8)
  /-- ABS (R136): Writes the absolute value of each element. -/
  | abs (d : BitVec 8) (a : BitVec 8)
  /-- NEG (R136): Writes the negation of each element. -/
  | neg (d : BitVec 8) (a : BitVec 8)
  /-- MIN (R136): Writes the smaller of each element pair. -/
  | min (d : BitVec 8) (a : BitVec 8) (b : BitVec 8)
  /-- MAX (R136): Writes the larger of each element pair. -/
  | max (d : BitVec 8) (a : BitVec 8) (b : BitVec 8)
  /-- LEA (R142): Forms a 64-bit address from a base pair and a scaled index. -/
  | lea (d : BitVec 8) (a : BitVec 8) (b : BitVec 8)
  /-- AND (R138): Bitwise and of whole registers. -/
  | and (d : BitVec 8) (a : BitVec 8) (b : BitVec 8)
  /-- OR (R138): Bitwise or of whole registers. -/
  | or (d : BitVec 8) (a : BitVec 8) (b : BitVec 8)
  /-- XOR (R138): Bitwise exclusive-or of whole registers. -/
  | xor (d : BitVec 8) (a : BitVec 8) (b : BitVec 8)
  /-- ANDN (R138): Bitwise A and not B. -/
  | andn (d : BitVec 8) (a : BitVec 8) (b : BitVec 8)
  /-- NOT (R138): Bitwise complement of A. -/
  | not (d : BitVec 8) (a : BitVec 8)
  /-- SHL (R139): Shifts each element left. -/
  | shl (d : BitVec 8) (a : BitVec 8) (b : BitVec 8)
  /-- SHR (R139): Shifts each element right, logically. -/
  | shr (d : BitVec 8) (a : BitVec 8) (b : BitVec 8)
  /-- SAR (R139): Shifts each element right, arithmetically. -/
  | sar (d : BitVec 8) (a : BitVec 8) (b : BitVec 8)
  /-- ROTL (R139): Rotates each element left. -/
  | rotl (d : BitVec 8) (a : BitVec 8) (b : BitVec 8)
  /-- BFX (R140): Extracts a bit field. -/
  | bfx (d : BitVec 8) (a : BitVec 8) (b : BitVec 8)
  /-- BFI (R140): Inserts a bit field into D. -/
  | bfi (d : BitVec 8) (a : BitVec 8) (b : BitVec 8)
  /-- CLZ (R141): Counts leading zeros per element. -/
  | clz (d : BitVec 8) (a : BitVec 8)
  /-- CTZ (R141): Counts trailing zeros per element. -/
  | ctz (d : BitVec 8) (a : BitVec 8)
  /-- POPC (R141): Counts one bits per element. -/
  | popc (d : BitVec 8) (a : BitVec 8)
  /-- BREV (R141): Reverses the bits of each element. -/
  | brev (d : BitVec 8) (a : BitVec 8)
  /-- FADD (R143): Floating-point add with one rounding. -/
  | fadd (d : BitVec 8) (a : BitVec 8) (b : BitVec 8)
  /-- FSUB (R143): Floating-point subtract with one rounding. -/
  | fsub (d : BitVec 8) (a : BitVec 8) (b : BitVec 8)
  /-- FMUL (R143): Floating-point multiply with one rounding. -/
  | fmul (d : BitVec 8) (a : BitVec 8) (b : BitVec 8)
  /-- FFMA (R143): Fused multiply-add into D. -/
  | ffma (d : BitVec 8) (a : BitVec 8) (b : BitVec 8)
  /-- FMIN (R144): minimumNumber of each element pair. -/
  | fmin (d : BitVec 8) (a : BitVec 8) (b : BitVec 8)
  /-- FMAX (R144): maximumNumber of each element pair. -/
  | fmax (d : BitVec 8) (a : BitVec 8) (b : BitVec 8)
  /-- FMINP (R144): NaN-propagating minimum. -/
  | fminp (d : BitVec 8) (a : BitVec 8) (b : BitVec 8)
  /-- FMAXP (R144): NaN-propagating maximum. -/
  | fmaxp (d : BitVec 8) (a : BitVec 8) (b : BitVec 8)
  /-- FABS (R145): Clears the sign bit of each element. -/
  | fabs (d : BitVec 8) (a : BitVec 8)
  /-- FNEG (R145): Inverts the sign bit of each element. -/
  | fneg (d : BitVec 8) (a : BitVec 8)
  /-- FRCP (R148): Issues a reciprocal to the function unit. -/
  | frcp (d : BitVec 8) (a : BitVec 8)
  /-- FRSQ (R148): Issues a reciprocal square root to the function unit. -/
  | frsq (d : BitVec 8) (a : BitVec 8)
  /-- FSQRT (R148): Issues a square root to the function unit. -/
  | fsqrt (d : BitVec 8) (a : BitVec 8)
  /-- FEX2 (R148): Issues a power of two to the function unit. -/
  | fex2 (d : BitVec 8) (a : BitVec 8)
  /-- FLG2 (R148): Issues a base-2 logarithm to the function unit. -/
  | flg2 (d : BitVec 8) (a : BitVec 8)
  /-- FSIN (R148): Issues a sine to the function unit. -/
  | fsin (d : BitVec 8) (a : BitVec 8)
  /-- FCOS (R148): Issues a cosine to the function unit. -/
  | fcos (d : BitVec 8) (a : BitVec 8)
  /-- FRND (R143): Rounds each element to an integral value. -/
  | frnd (d : BitVec 8) (a : BitVec 8)
  /-- FCLS (R145): Writes a one-hot class code per element. -/
  | fcls (d : BitVec 8) (a : BitVec 8)
  /-- FSCL (R143): Scales each element by a power of two. -/
  | fscl (d : BitVec 8) (a : BitVec 8) (b : BitVec 8)
  /-- FDOT4 (R146): Adds a four-term narrow dot product to D with one rounding. -/
  | fdot4 (d : BitVec 8) (a : BitVec 8) (b : BitVec 8)
  /-- ICMP (R149): Integer compare into a predicate. -/
  | icmp (c : BitVec 4) (p : BitVec 4) (a : BitVec 8) (b : BitVec 8)
  /-- FCMP (R149): Floating-point compare into a predicate. -/
  | fcmp (c : BitVec 4) (p : BitVec 4) (a : BitVec 8) (b : BitVec 8)
  /-- PAND (R150): Predicate and. -/
  | pand (d : BitVec 4) (a : BitVec 4) (b : BitVec 4)
  /-- POR (R150): Predicate or. -/
  | por (d : BitVec 4) (a : BitVec 4) (b : BitVec 4)
  /-- PXOR (R150): Predicate exclusive or. -/
  | pxor (d : BitVec 4) (a : BitVec 4) (b : BitVec 4)
  /-- P2V (R135): Copies a predicate word into D. -/
  | p2v (d : BitVec 8) (n : BitVec 4)
  /-- V2P (R135): Sets predicate bits from bit L of each lane. -/
  | v2p (n : BitVec 4) (a : BitVec 8)
  /-- VGROW (R113): Requests granules and holds the fragment until the partition's growth queue grants them. -/
  | vgrow (a : BitVec 8) (b : BitVec 8)
  /-- VSHRINK (R116): Removes granules from the strand's map. -/
  | vshrink (a : BitVec 8) (b : BitVec 8)
  /-- SHFL (R133): Reads each lane's value from an indexed lane. -/
  | shfl (d : BitVec 8) (a : BitVec 8) (b : BitVec 8)
  /-- ROT (R133): Rotates registers across lanes. -/
  | rot (d : BitVec 8) (a : BitVec 8) (b : BitVec 8)
  /-- VOTE (R134): Writes a ballot, any, all or equality vote. -/
  | vote (d : BitVec 8) (a : BitVec 8) (k : BitVec 8)
  /-- LANES (R134): Writes a count, rank, first or last lane fact. -/
  | lanes (d : BitVec 8) (k : BitVec 8)
  /-- RDSR (R125): Reads a special register into D. -/
  | rdsr (d : BitVec 8) (s : BitVec 8)
  /-- WRSR (R125): Writes a special register from the lowest active lane. -/
  | wrsr (s : BitVec 8) (a : BitVec 8)
  /-- SETFMT (R62): Sets a q register to a valid narrow descriptor. -/
  | setfmt (n : BitVec 2) (a : BitVec 8)
  /-- GETFMT (R63): Reads a q register into D. -/
  | getfmt (d : BitVec 8) (n : BitVec 2)
  /-- CVT (R66): Converts between lane and narrow formats. -/
  | cvt (d : BitVec 8) (a : BitVec 8) (t : BitVec 4) (s : BitVec 4)
  /-- NFPK (R67): Packs binary32 registers into narrow elements. -/
  | nfpk (d : BitVec 8) (a : BitVec 8) (n : BitVec 2)
  /-- NFUPK (R67): Unpacks narrow elements into binary32 registers. -/
  | nfupk (d : BitVec 8) (a : BitVec 8) (n : BitVec 2)
  /-- SRSEED (R68): Seeds the stochastic-rounding generators. -/
  | srseed (a : BitVec 8)
  /-- LDS (R166): Loads from the local offset space. -/
  | lds (d : BitVec 8) (a : BitVec 8) (s : BitVec 1) (z : BitVec 2)
  /-- STS (R166): Stores to the local offset space. -/
  | sts (z : BitVec 2) (a : BitVec 8) (b : BitVec 8)
  /-- LDSM (R168): Loads a run of registers from the local offset space. -/
  | ldsm (d : BitVec 8) (a : BitVec 8) (n : BitVec 4)
  /-- STSM (R168): Stores a run of registers to the local offset space. -/
  | stsm (n : BitVec 4) (a : BitVec 8) (b : BitVec 8)
  /-- SPT (R169): Writes the window kind of an address. -/
  | spt (d : BitVec 8) (a : BitVec 8)
  /-- SPC (R170): Checks an address's window and returns its offset. -/
  | spc (d : BitVec 8) (a : BitVec 8)
  /-- XSEND (R172): Sends a register as an entry over an edge link. -/
  | xsend (c : BitVec 2) (r : BitVec 2) (a : BitVec 8)
  /-- XRECV (R173): Takes the oldest entry of a receive queue, waiting while it is empty. -/
  | xrecv (d : BitVec 8) (c : BitVec 2) (r : BitVec 2)
  /-- LD (R206): Loads through a generic address, touching the chain. -/
  | ld (d : BitVec 8) (a : BitVec 8) (s : BitVec 1) (z : BitVec 2)
  /-- LDB (R206): Loads without placement or motion. -/
  | ldb (d : BitVec 8) (a : BitVec 8) (s : BitVec 1) (z : BitVec 2)
  /-- ST (R206): Stores through a generic address, touching the chain. -/
  | st (z : BitVec 2) (a : BitVec 8) (b : BitVec 8)
  /-- STB (R206): Stores without placement or motion. -/
  | stb (z : BitVec 2) (a : BitVec 8) (b : BitVec 8)
  /-- LDM (R207): Loads a run of registers through a generic address. -/
  | ldm (d : BitVec 8) (a : BitVec 8) (n : BitVec 4)
  /-- STM (R207): Stores a run of registers through a generic address. -/
  | stm (n : BitVec 4) (a : BitVec 8) (b : BitVec 8)
  /-- PREF (R208): Touches lots and completes when they land. -/
  | pref (a : BitVec 8)
  /-- CHAIN (R209): Reads the chain state of lots. -/
  | chain (d : BitVec 8) (a : BitVec 8)
  /-- PIN (R211): Pins lots in the pin table. -/
  | pin (a : BitVec 8)
  /-- UNPIN (R212): Decrements the gang's pin entries. -/
  | unpin (a : BitVec 8)
  /-- LOTWB (R213): Writes a dirty lot back to memory. -/
  | lotwb (a : BitVec 8)
  /-- LOTDROP (R213): Writes back and removes a lot. -/
  | lotdrop (a : BitVec 8)
  /-- PGQ (R246): Queries a translation without faulting. -/
  | pgq (d : BitVec 8) (a : BitVec 8) (k : BitVec 8)
  /-- TLBINV (R247): Invalidates matching translations package-wide. -/
  | tlbinv (k : BitVec 4) (a : BitVec 8) (b : BitVec 8)
  /-- TLBSYNC (R248): Holds until earlier invalidations and their accesses are done. -/
  | tlbsync
  /-- BAR (R295): Arrives on a numbered barrier and waits for its phase. -/
  | bar (k : BitVec 4)
  /-- BARAR (R295): Arrives on a numbered barrier without waiting. -/
  | barar (k : BitVec 4)
  /-- BARAR_ARM (R295): Arms a barrier's strand and sequencer expectations. -/
  | bararArm (k : BitVec 4) (a : BitVec 8)
  /-- BARW (R295): Waits for the phase of the strand's last arrival. -/
  | barw (k : BitVec 4)
  /-- BARST (R296): Reads a barrier's status word. -/
  | barst (d : BitVec 8) (k : BitVec 4)
  /-- GBAR (R299): Arrives on a group barrier and waits for its phase. -/
  | gbar (g : BitVec 8)
  /-- FWAIT (R300): Holds until the named completion flags are clear. -/
  | fwait (m : BitVec 12)
  /-- TWAIT (R301): Holds until a timeline counter reaches n, as an acquire. -/
  | twait (c : BitVec 2) (a : BitVec 8)
  /-- TGET (R302): Reads a timeline counter. -/
  | tget (d : BitVec 8) (c : BitVec 2)
  /-- FENCE (R303): Orders the strand's accesses at a scope. -/
  | fence (s : BitVec 3)
  /-- ATOM (R309): Atomic read-modify-write returning the old value. -/
  | atom (o : BitVec 3) (s : BitVec 3) (r : BitVec 2) (a : BitVec 8) (x : BitVec 8)
  /-- ATOMN (R309): Atomic read-modify-write with no result. -/
  | atomn (o : BitVec 3) (s : BitVec 3) (r : BitVec 2) (a : BitVec 8) (x : BitVec 8)
  /-- CAS (R310): Compare and swap. -/
  | cas (s : BitVec 3) (r : BitVec 2) (a : BitVec 8) (x : BitVec 8)
  /-- ATOMSC (R309): Sequentially consistent atomic ordered by a global ticket. -/
  | atomsc (o : BitVec 3) (a : BitVec 8) (x : BitVec 8)
  /-- LDA (R311): Acquire load at a scope. -/
  | lda (d : BitVec 8) (a : BitVec 8) (z : BitVec 1) (s : BitVec 3)
  /-- STL (R311): Release store at a scope. -/
  | stl (z : BitVec 1) (s : BitVec 3) (a : BitVec 8) (b : BitVec 8)
  /-- LDAR (R311): Acquire load with remote-scope promotion. -/
  | ldar (d : BitVec 8) (a : BitVec 8) (z : BitVec 1) (s : BitVec 3)
  /-- MON (R312): Registers a monitor on a lot. -/
  | mon (a : BitVec 8)
  /-- MWAIT (R313): Holds until the monitor fires or is lost, or times out. -/
  | mwait (a : BitVec 8)
  /-- CPY (R332): Submits a copy request and returns its number and promise. -/
  | cpy (d : BitVec 8) (t : BitVec 4) (s : BitVec 4)
  /-- CPYM (R332): Submits a multicast copy to a group. -/
  | cpym (d : BitVec 8) (t : BitVec 4) (s : BitVec 4) (g : BitVec 8)
  /-- CPYQ (R333): Queries a copy request's state. -/
  | cpyq (d : BitVec 8) (a : BitVec 8)
  /-- SLEEPU (R334): Holds until a request's promise and evaluates it. -/
  | sleepu (a : BitVec 8) (q : BitVec 1)
  /-- FIXQ_RETRY (R335): Replays matching held fix-up entries. -/
  | fixqRetry (a : BitVec 8) (b : BitVec 8)
  /-- FIXQ_FAIL (R335): Turns matching held fix-up entries into errors. -/
  | fixqFail (a : BitVec 8) (b : BitVec 8)
  /-- SHLD (R336): Loads a shape register from memory. -/
  | shld (s : BitVec 4) (a : BitVec 8)
  /-- SHSET (R336): Sets one word of a shape register. -/
  | shset (w : BitVec 4) (s : BitVec 4) (a : BitVec 8)
  /-- SHST (R336): Stores a shape register to memory. -/
  | shst (s : BitVec 4) (a : BitVec 8)
  /-- MGO (R352): Queues a sequencer stream as a TLM request. -/
  | mgo (d : BitVec 8) (a : BitVec 8) (b : BitVec 8)
  /-- MQ (R353): Queries the block sequencer. -/
  | mq (d : BitVec 8)
  /-- MRES (R356): Queues a stream resumed from a sequencer image. -/
  | mres (d : BitVec 8) (a : BitVec 8)
  /-- MABORT (R355): Stops the running stream, writes its image and aborts queued streams. -/
  | mabort (d : BitVec 8) (a : BitVec 8)
  /-- ZLEN (R382): Sets the block stream length. -/
  | zlen (l : BitVec 8)
  /-- ZSEED (R383): Sets a class seed. -/
  | zseed (c : BitVec 4) (a : BitVec 8)
  /-- ZENC (R384): Encodes values as streams. -/
  | zenc (d : BitVec 6) (a : BitVec 8) (p : BitVec 1) (c : BitVec 4)
  /-- ZDEC (R385): Decodes streams to binary32 values. -/
  | zdec (d : BitVec 8) (a : BitVec 6) (p : BitVec 1)
  /-- ZAND (R386): Bitwise and of streams. -/
  | zand (d : BitVec 6) (a : BitVec 6) (r : BitVec 1) (b : BitVec 6)
  /-- ZXNOR (R386): Bitwise xnor of streams. -/
  | zxnor (d : BitVec 6) (a : BitVec 6) (r : BitVec 1) (b : BitVec 6)
  /-- ZMIN (R386): Correlated minimum of streams. -/
  | zmin (d : BitVec 6) (a : BitVec 6) (r : BitVec 1) (b : BitVec 6)
  /-- ZMUX (R387): Scaled addition by a select stream. -/
  | zmux (d : BitVec 6) (a : BitVec 6) (b : BitVec 6) (s : BitVec 6)
  /-- ZCNT (R385): Counts ones of streams. -/
  | zcnt (d : BitVec 8) (a : BitVec 6)
  /-- ZDOT (R388): Accumulates product counts into D. -/
  | zdot (d : BitVec 8) (k : BitVec 1) (a : BitVec 6) (b : BitVec 6)
  /-- ZREGEN (R384): Re-encodes streams into another class. -/
  | zregen (d : BitVec 6) (a : BitVec 6) (c : BitVec 4)
  /-- ZCLS (R389): Reads stream tags. -/
  | zcls (d : BitVec 8) (a : BitVec 6)
  /-- ZTOP (R390): Writes indices of the k largest lanes. -/
  | ztop (d : BitVec 8) (a : BitVec 8) (k : BitVec 5)
  /-- GCALL (R408): Calls a gate into another domain. -/
  | gcall (a : BitVec 8)
  /-- GRET (R408): Returns from a gate call. -/
  | gret
  /-- DIDQ_SELF (R409): Reads the strand's own domain facts. -/
  | didqSelf (d : BitVec 8)
  /-- DIDQ_DPR (R409): Reads a DPR image into the lanes. -/
  | didqDpr (d : BitVec 8) (a : BitVec 8)
  /-- DIDQ_GATE (R409): Reads the top gate frame. -/
  | didqGate (d : BitVec 8)
  /-- DPSET_DPR (R410): Writes a domain partition register. -/
  | dpsetDpr (t : BitVec 8) (a : BitVec 8) (i : BitVec 4)
  /-- DPSET_SUB (R410): Writes a sub-chain entry. -/
  | dpsetSub (t : BitVec 8) (a : BitVec 8) (i : BitVec 4)
  /-- DPSET_SEAL (R410): Writes a sealed-table entry. -/
  | dpsetSeal (t : BitVec 8) (a : BitVec 8) (i : BitVec 4)
  /-- SYSCALL (R434): Requests a kernel service and holds until the reply. -/
  | syscall (x : BitVec 8) (a : BitVec 8)
  /-- TRAP (R435): Raises SOFT_TRAP with a code. -/
  | trap (c : BitVec 16)
  /-- TRET (R436): Returns from the trap vector. -/
  | tret (k : BitVec 1)
  /-- BRK (R435): Raises BREAK or halts under DEBUG. -/
  | brk (c : BitVec 8)
  /-- CTXSV (R437): Saves the strand's context image. -/
  | ctxsv (d : BitVec 8) (a : BitVec 8)
  /-- CTXLD (R438): Replaces the strand's context from an image. -/
  | ctxld (a : BitVec 8)
  /-- SIGCHK (R446): Checks the folded signature and clears SIG. -/
  | sigchk (i : BitVec 16)
  /-- SIGRD (R446): Reads SIG. -/
  | sigrd (d : BitVec 8)
  /-- SIGSET (R446): Sets SIG. -/
  | sigset (a : BitVec 8)
  /-- ERRQ (R456): Reads an error log counter. -/
  | errq (d : BitVec 8) (a : BitVec 8) (c : BitVec 1)
  /-- MTA (R358): Binds the tile run. -/
  | mta (i : BitVec 4) (n : BitVec 4)
  /-- MBIND (R358): Sets BBASE. -/
  | mbind (r : BitVec 3) (u : BitVec 16)
  /-- MMUL (R360): Accumulates a product over depth beats. -/
  | mmul (e : BitVec 1) (b : BitVec 4) (j : BitVec 3) (k : BitVec 16)
  /-- MZERO (R361): Clears an accumulator and its marks. -/
  | mzero (e : BitVec 1) (b : BitVec 4) (j : BitVec 3)
  /-- MOUT (R362): Writes an accumulator out in a format. -/
  | mout (e : BitVec 1) (b : BitVec 4) (j : BitVec 3) (r : BitVec 3) (f : BitVec 3) (p : BitVec 10)
  /-- MSCL (R358): Binds a scale tile or base or sets a tensor scale. -/
  | mscl (k : BitVec 2) (i : BitVec 4) (r : BitVec 3)
  /-- MFMT (R358): Sets input formats, rounding and saturation. -/
  | mfmt (a : BitVec 3) (b : BitVec 3) (r : BitVec 3) (s : BitVec 1)
  /-- MLOOP (R359): Pushes a loop record. -/
  | mloop (s : BitVec 1) (r : BitVec 3) (n : BitVec 16)
  /-- MENDL (R359): Counts down the innermost loop. -/
  | mendl
  /-- MARR (R359): Arrives on a barrier with CARRY. -/
  | marr (k : BitVec 4)
  /-- MWB (R359): Waits on a barrier phase. -/
  | mwb (k : BitVec 4)
  /-- MJMP (R359): Jumps within the stream. -/
  | mjmp (o : BitVec 24)
  /-- MTRN (R364): Transposes a tile into the B layout. -/
  | mtrn (e : BitVec 1) (b : BitVec 4) (i : BitVec 4) (r : BitVec 3)
  /-- MADDT (R361): Adds a tile into an accumulator. -/
  | maddt (e : BitVec 1) (b : BitVec 4) (j : BitVec 3) (i : BitVec 4)
  /-- MMAX (R363): Writes row maxima of an accumulator. -/
  | mmax (e : BitVec 1) (b : BitVec 4) (j : BitVec 3) (r : BitVec 3)
  /-- MSET (R358): Writes a sequencer register. -/
  | mset (r : BitVec 3) (o : BitVec 2) (i : BitVec 19)
  /-- FRAGMENT_REFILL (R88): A spilled fragment is refilled into a freed slot. -/
  | fragmentRefill (strand : Nat)
  /-- FRAGMENT_EXCHANGE (R89): Every 4,096 clk a live fragment and a spilled one are exchanged. -/
  | fragmentExchange (strand : Nat)
  /-- YIELD_RELEASE (R107): A yielded strand becomes eligible again. -/
  | yieldRelease (strand : Nat)
  /-- STRAND_RECLAIM (R92): An ended strand's granules and slot return once its long-latency words complete. -/
  | strandReclaim (strand : Nat)
  /-- BLOCK_END (R92): A block ends when its strands, sequencer and engine work are done. -/
  | blockEnd (block : Nat)
  /-- ALLOTMENT_CLEAR (R154): A returned allotment finishes being cleared to zero. -/
  | allotmentClear (core : Nat)
  /-- GROWTH_GRANT (R113): The oldest growth request is granted when enough granules are free. -/
  | growthGrant (core : Nat) (part : Nat)
  /-- GROWTH_RELIEF (R114): When all strands are blocked or the oldest request waited 65,536 clk, victims are spilled. -/
  | growthRelief (core : Nat) (part : Nat)
  /-- SPILLED_STRAND_REFILL (R115): A spilled strand's granules are loaded back when its request is granted. -/
  | spilledStrandRefill (strand : Nat)
  /-- TRANSCENDENTAL_COMPLETE (R147): The function unit writes a transcendental result and clears its flag. -/
  | transcendentalComplete (flight : Nat)
  /-- LOCAL_ACCESS_COMPLETE (R156): A scratchpad or column access word completes its passes. -/
  | localAccessComplete (flight : Nat)
  /-- GANG_WINDOW_ARRIVAL (R165): A gang-window access arrives at the target core over its route and is performed. -/
  | gangWindowArrival (flight : Nat)
  /-- XSEND_ACCEPT (R172): A waiting edge entry is accepted by the partner's queue. -/
  | xsendAccept (flight : Nat)
  /-- EDGE_ENTRY_ARRIVAL (R173): An entry present in a receive queue is taken by a waiting xrecv. -/
  | edgeEntryArrival (flight : Nat)
  /-- TAG_SLOT (R181): An access takes its tag slot in a chain and is served there. -/
  | tagSlot (flight : Nat) (lot : Nat)
  /-- LOT_MOTION_END (R182): A lot's motion ends and it becomes a landing candidate. -/
  | lotMotionEnd (chain : Nat) (lot : Nat)
  /-- FRONT_LANDING (R185): In an sclk the ranked candidates land at the front and lots shift outward. -/
  | frontLanding (chain : Nat) (sub : Nat) (half : Bool)
  /-- GATE_LANDING (R185): A lot lands through the cap gate or the insertion gate. -/
  | gateLanding (chain : Nat) (sub : Nat) (cap : Bool)
  /-- MISS_FILL_ARRIVAL (R189): A miss entry's fill data arrives with merged stores. -/
  | missFillArrival (chain : Nat) (lot : Nat)
  /-- MISS_RETRY (R192): A rejected miss is retried 8 clk later with raised age. -/
  | missRetry (flight : Nat) (lot : Nat)
  /-- WRITE_ACKNOWLEDGE (R498): A memory controller acknowledges a write. -/
  | writeAcknowledge (chain : Nat) (lot : Nat)
  /-- REMOTE_REPLY_ARRIVAL (R200): A reply from another cluster's chain arrives over the traverse. -/
  | remoteReplyArrival (flight : Nat) (lot : Nat)
  /-- LOT_RECALL (R306): A lent lot is returned to its home before a foreign access. -/
  | lotRecall (chain : Nat) (lot : Nat)
  /-- TLB_WALK_COMPLETE (R231): A translation walk ends with an entry or a fault. -/
  | tlbWalkComplete (flight : Nat)
  /-- TLBINV_COMPLETE (R247): No TLB can serve the invalidated translations any more. -/
  | tlbinvComplete (flight : Nat)
  /-- SCANNER_JOB (R237): The scanner takes a dirty-ring job and write-protects, invalidates and writes back the page. -/
  | scannerJob (tract : Nat)
  /-- LOGICAL_CLOCK_TICK (R242): A cluster's logical clock advances at every 1,024 DCLK. -/
  | logicalClockTick (cluster : Nat)
  /-- LEASE_SWEEP (R244): The sweeper drops expired copies and raises lagging timestamps. -/
  | leaseSweep (cluster : Nat)
  /-- PROMOTION_REQUEST (R269): A core receives an ldar promotion request and answers. -/
  | promotionRequest (flight : Nat) (core : Nat)
  /-- PROMOTION_ANSWER (R269): Promotion answers arrive and the ldar's load proceeds. -/
  | promotionAnswer (flight : Nat)
  /-- ATOMSC_TICKET (R270): The global sequencer releases a ticket to its home slice. -/
  | atomscTicket (flight : Nat)
  /-- BARRIER_WATCHDOG_EXPIRY (R440): A barrier phase's watchdog expires and waiting strands raise BARRIER_TIMEOUT. -/
  | barrierWatchdogExpiry (block : Nat) (barrier : Nat)
  /-- TWAIT_TIMEOUT (R291): A twait passes the barrier limit and raises BARRIER_TIMEOUT. -/
  | twaitTimeout (strand : Nat) (slot : Bool)
  /-- MWAIT_EXPIRY (R313): An mwait's tick limit passes and it raises MWAIT_TIMEOUT. -/
  | mwaitExpiry (strand : Nat) (slot : Bool)
  /-- MWB_TIMEOUT (R348): An mwb waits past the barrier limit and the sequencer halts. -/
  | mwbTimeout (block : Nat)
  /-- COPY_SEGMENT (R321): The copy engine performs one segment of a request. -/
  | copySegment (block : Nat) (request : Nat) (segment : Nat)
  /-- FIXUP_REPLAY (R323): After the other segments, a request's fix-up entries are replayed. -/
  | fixupReplay (block : Nat) (request : Nat)
  /-- MULTICAST_DEPOSIT (R330): A multicast deposit reaches a member block. -/
  | multicastDeposit (deposit : Nat)
  /-- PROMISE_DUE (R334): DCLK reaches a sleeping request's promise and the request is evaluated. -/
  | promiseDue (strand : Nat) (slot : Bool)
  /-- ARRAY_SLOT_GRANT (R342): At each array frame slot a sequencer with work is chosen. -/
  | arraySlotGrant (core : Nat)
  /-- SEQ_STREAM_START (R352): A queued stream starts once earlier streams complete. -/
  | seqStreamStart (block : Nat)
  /-- SEQ_FETCH (R348): The sequencer fetches a stream word, halting on a fault. -/
  | seqFetch (block : Nat)
  /-- STOCHASTIC_SLOT_GRANT (R376): At each engine slot a context with work is chosen. -/
  | stochasticSlotGrant (core : Nat)
  /-- STOCHASTIC_REQUEST_COMPLETE (R373): A stochastic request completes and TLS advances. -/
  | stochasticRequestComplete (block : Nat)
  /-- DPSET_EFFECT (R411): A dpset setting comes into force after its delay or write-backs. -/
  | dpsetEffect (setting : Nat)
  /-- TRAP_TAKEN (R417): A fault record becomes final and the trap is taken. -/
  | trapTaken (strand : Nat)
  /-- GANG_RELAUNCH (R450): A killed relaunchable gang is placed again from its launch record. -/
  | gangRelaunch (gang : Nat)
  /-- SLICE_EXPIRY (R424): DCLK reaches a slot's SLICE_END and pre-emption starts. -/
  | sliceExpiry (cluster : Nat) (slot : Nat)
  /-- PREEMPTION_DONE (R425): Every engine has acknowledged and the saved state is written. -/
  | preemptionDone (cluster : Nat) (slot : Nat)
  /-- SYSCALL_APPEND (R460): A syscall entry is appended to the service ring when it has room. -/
  | syscallAppend (strand : Nat) (slot : Bool)
  /-- PACKET_ACCEPT (R463): The packet processor reads and checks the packet at READ_INDEX. -/
  | packetAccept (queue : Nat)
  /-- LAUNCH_START (R464): An accepted launch passes its barrier and acquire and reads its group table. -/
  | launchStart (launch : Nat)
  /-- PLACEMENT_RETRY (R74): A failed unit's random wait ends and it tries again. -/
  | placementRetry (unit : Nat)
  /-- PIN_RELEASE (R212): The pin entries of an ended gang are freed. -/
  | pinRelease (tag : Nat)
  /-- LAUNCH_COMPLETE (R465): When every gang has ended, the launch releases and completes. -/
  | launchComplete (launch : Nat)
  /-- BYPASS_LOAD_DELIVERY (R201): A bypass read served at a memory controller delivers its last byte, completing the load with no miss entry or chain placement. -/
  | bypassLoadDelivery (flight : Nat) (lot : Nat)
  /-- MSTOP (R359): Completes the stream's TLM request. -/
  | mstop
  /-- CLAUSE_FETCH (R10): A whole clause is fetched once both pages translate, or its fetch faults. -/
  | clauseFetch
  /-- SCANNER_FLASH_DONE (R237): A flash write completes and DIRTY and SCAN_WP are cleared. -/
  | scannerFlashDone (job : Nat)
  /-- SCANNER_FLASH_FAIL (R239): A failed flash write clears SCAN_WP and raises a scanner error event. -/
  | scannerFlashFail (job : Nat)
  /-- PEER_GONE (R240): A peer chip resets or its link fails and the hub marks it gone. -/
  | peerGone (tract : Nat) (peer : Nat)
  /-- PEER_STORE_ACK (R276): A peer acknowledges a store. -/
  | peerStoreAck (store : Nat)
  /-- PEER_ACCESS (R276): A peer agent's access to this chip's memory arrives and is performed. -/
  | peerAccess (peer : Nat) (addr : Nat) (write : Option (BitVec 64)) (release : Bool)
  /-- SCANNER_HOLD_RETRY (R323): A fix-up entry held by the scanner is retried every 4,096 clk. -/
  | scannerHoldRetry (block : Nat) (request : Nat) (segment : Nat)
  /-- SERVICE_REPLY (R460): A notify write with bit 63 set delivers a service reply. -/
  | serviceReply (queue : Nat) (entry : Nat)
  /-- COLLECTIVE_COMPLETE (R475): A fabric collective completes and TLX advances. -/
  | collectiveComplete (block : Nat) (number : Nat) (gone : Bool)
  /-- NOTIFY_WRITE (R458): A write sets a queue's write index or is ignored. -/
  | notifyWrite (queue : Nat) (value : BitVec 64)
  /-- PLACEMENT_RESERVE (R73): A placement unit sends reservations for a candidate core set. -/
  | placementReserve (unit : Nat) (launch : Nat) (cores : List Nat)
  /-- PLACEMENT_COMMIT (R75): All cores accepted; the gang commits and receives its tag. -/
  | placementCommit (unit : Nat) (tag : Nat)
  /-- HELD_EVENT_WRITE (R472): Held events are written when the event ring has room. -/
  | heldEventWrite
  /-- HALT_STRAND (R470): Op 1 halts a strand. -/
  | haltStrand (operand : BitVec 56)
  /-- RELEASE_STRAND (R470): Op 2 releases a halted strand. -/
  | releaseStrand (operand : BitVec 56)
  /-- RESUME_STRAND (R470): Op 3 resumes a strand after a fault event. -/
  | resumeStrand (operand : BitVec 56)
  /-- KILL_GANG (R470): Op 4 kills a gang. -/
  | killGang (operand : BitVec 56)
  /-- PREEMPT_SLOT (R470): Op 5 pre-empts a slot. -/
  | preemptSlot (operand : BitVec 56)
  /-- RESUME_SAVED_GANG (R428): Op 6 places a saved gang again. -/
  | resumeSavedGang (operand : BitVec 56) (cores : List Nat)
  /-- TAKE_CORE_OUT_OF_SERVICE (R455): Op 7 takes a core out of service. -/
  | takeCoreOutOfService (operand : BitVec 56)
  /-- ABORT_QUEUE (R470): Op 8 disables a queue and aborts its launches. -/
  | abortQueue (operand : BitVec 56)
  /-- CHECKPOINT (R476): Op 9 writes back and streams a tract's HBM4E to NVMe. -/
  | checkpoint (operand : BitVec 56)
  /-- ATTEST (R495): Op 10 writes a signed attestation report. -/
  | attest (operand : BitVec 56)
  /-- REFUSED_COMMAND (R470): An unassigned op or bad operand is refused. -/
  | refusedCommand (op : BitVec 8) (operand : BitVec 56)
  /-- CONTROL_REGISTER_WRITE (R469): A write to a control-window register without a row of its own. -/
  | controlRegisterWrite (place : WindowPlace) (write : Option (BitVec 64))
  /-- HOST_ACCESS (R275): A host request through the endpoint is performed. -/
  | hostAccess (addr : Nat) (write : Option (BitVec 64))
  /-- HART_ACCESS (R474): An application hart's access to device memory is performed. -/
  | hartAccess (hart : HartId) (addr : Nat) (write : Option (BitVec 64)) (acquire : Bool) (release : Bool)
  /-- TRACT_TEARDOWN (R451): An unattributable uncorrectable error tears down a tract. -/
  | tractTeardown (tract : Nat)
  /-- TEARDOWN_REPORT (R451): After the power cycle the teardown is reported and gangs relaunched. -/
  | teardownReport (tract : Nat)
  /-- PATROL_SCRUB (R447): Patrol scrub reads, corrects or marks a granule. -/
  | patrolScrub (granule : Nat) (bad : Bool)
  /-- BUS_BEAT_ERROR (R453): A vertical-bus beat arrives with wrong wires. -/
  | busBeatError (core : Nat) (group : Nat) (wrong : List Nat) (words : BeatWords)
  /-- SENSOR_SAMPLE (R454): A temperature sensor is read every 65,536 DCLK. -/
  | sensorSample (core : Nat) (sensor : Nat) (reading : Int) (estimate : Int) (busier : Bool)
  /-- POWER_HOLD_STEP (R497): The issue hold level changes by the power or temperature condition. -/
  | powerHoldStep (power : Nat) (enough : Bool)
  /-- THERMAL_STOP (R497): A sensor at 115 °C stops issue on every core. -/
  | thermalStop (core : Nat) (sensor : Nat)
  /-- PACKAGE_RESET (R492): A cold start or fundamental reset resets the package. -/
  | packageReset
  /-- PACKAGE_BOOT (R493): The boot processor verifies, loads, trains and releases the kernel harts. -/
  | packageBoot (slots : BootSlots) (found : BootFindings)
  /-- RECOVERY_IMAGE_WRITE (R493): In recovery the host writes a new image to slot A. -/
  | recoveryImageWrite (image : BootImage)
  /-- CHECKPOINT_WRITES_COMPLETE (R476): The last NVMe write of a checkpoint completes and the command is done, clearing CMD_STATUS busy. -/
  | checkpointWritesComplete
  deriving DecidableEq, Repr

end Sys2Proof
end

