-- ==== Sys2Proof/Decode.lean ====
section
/-!
DEFINITION. Decoding and encoding of the 32-bit words of the two streams (02 R11 to R15, R21, R23, R34, R40).
Decoding is total and refuses by name.  The encoder is written from the same fields.
-/
namespace Sys2Proof

/-- Why a word is no instruction (02 R42).  `illegalClause`: a header whose ZERO bits are not zero (R24).
`illegalWord`: an unassigned opcode (R35) or a field that the word does not use and that is not zero (R14).
`illegalOperand`: a class index, kind or code outside its range (R21, R38 step 4).
`seqIllegal`: a sequencer word with an unassigned code or a non-zero unused bit (R15, R41). -/
inductive DecodeError where
  | illegalClause | illegalWord | illegalOperand | seqIllegal
  deriving DecidableEq, Repr

inductive Decoded where
  | ok (i : Instr)
  | bad (e : DecodeError)
  deriving DecidableEq, Repr

/-- Bits [hi:lo] of a word. -/
def fld (n hi lo : Nat) : Nat := n / 2 ^ lo % 2 ^ (hi - lo + 1)

/-- R14: the unused fields are zero. -/
def unusedZero (c : Bool) (r : Decoded) : Decoded := if c then r else .bad .illegalWord
/-- R21: the higher bits of a class-index field are zero. -/
def operandOk (c : Bool) (r : Decoded) : Decoded := if c then r else .bad .illegalOperand
/-- R15: the unused bits of a sequencer word are zero. -/
def seqZero (c : Bool) (r : Decoded) : Decoded := if c then r else .bad .seqIllegal

/-- Format C (R23): every code 0xF8 to 0xFF carries the header's mark. -/
def decodeHeader (n : Nat) : Decoded :=
  if fld n 2 0 = 0 then
    .ok (.clauseStart (.ofNat 4 (fld n 26 23)) (.ofNat 12 (fld n 22 11)) (.ofNat 4 (fld n 10 7)) (.ofNat 4 (fld n 6 3)))
  else .bad .illegalClause

/-- Strand opcodes 0x00 to 0x1F (R34). -/
def decodeOps00 (op n : Nat) : Decoded :=
  match op with
  | 0x01 => unusedZero (fld n 23 16 == 0) (.ok (.setmode (.ofNat 16 (fld n 15 0))))
  | 0x02 => unusedZero (fld n 23 16 == 0) (.ok (.setmodeh (.ofNat 16 (fld n 15 0))))
  | 0x03 => unusedZero (fld n 15 0 == 0) (.ok (.getmode (.ofNat 8 (fld n 23 16))))
  | 0x04 => unusedZero (fld n 23 16 == 0) (.ok (.rcv (.ofNat 16 (fld n 15 0))))
  | 0x05 => unusedZero (fld n 21 16 == 0) (.ok (.bra (.ofNat 2 (fld n 23 22)) (.ofNat 16 (fld n 15 0))))
  | 0x06 => unusedZero (fld n 16 16 == 0) (.ok (.brc (.ofNat 2 (fld n 23 22)) (.ofNat 4 (fld n 21 18)) (.ofNat 1 (fld n 17 17)) (.ofNat 16 (fld n 15 0))))
  | 0x07 => unusedZero (fld n 21 16 == 0 && fld n 7 0 == 0) (.ok (.brx (.ofNat 2 (fld n 23 22)) (.ofNat 8 (fld n 15 8))))
  | 0x08 => .ok (.call (.ofNat 8 (fld n 23 16)) (.ofNat 16 (fld n 15 0)))
  | 0x09 => unusedZero (fld n 23 16 == 0 && fld n 7 0 == 0) (.ok (.ret (.ofNat 8 (fld n 15 8))))
  | 0x0A => unusedZero (fld n 23 0 == 0) (.ok .exit)
  | 0x0B => unusedZero (fld n 23 0 == 0) (.ok .yield)
  | 0x0F => unusedZero (fld n 23 0 == 0) (.ok .nop)
  | 0x10 => unusedZero (fld n 7 0 == 0) (.ok (.mov (.ofNat 8 (fld n 23 16)) (.ofNat 8 (fld n 15 8))))
  | 0x11 => .ok (.lil (.ofNat 8 (fld n 23 16)) (.ofNat 16 (fld n 15 0)))
  | 0x12 => .ok (.lih (.ofNat 8 (fld n 23 16)) (.ofNat 16 (fld n 15 0)))
  | 0x13 => .ok (.sel (.ofNat 8 (fld n 23 16)) (.ofNat 8 (fld n 15 8)) (.ofNat 8 (fld n 7 0)))
  | 0x14 => .ok (.add (.ofNat 8 (fld n 23 16)) (.ofNat 8 (fld n 15 8)) (.ofNat 8 (fld n 7 0)))
  | 0x15 => .ok (.addc (.ofNat 8 (fld n 23 16)) (.ofNat 8 (fld n 15 8)) (.ofNat 8 (fld n 7 0)))
  | 0x16 => .ok (.sub (.ofNat 8 (fld n 23 16)) (.ofNat 8 (fld n 15 8)) (.ofNat 8 (fld n 7 0)))
  | 0x17 => .ok (.subb (.ofNat 8 (fld n 23 16)) (.ofNat 8 (fld n 15 8)) (.ofNat 8 (fld n 7 0)))
  | 0x18 => .ok (.mul (.ofNat 8 (fld n 23 16)) (.ofNat 8 (fld n 15 8)) (.ofNat 8 (fld n 7 0)))
  | 0x19 => .ok (.mulh (.ofNat 8 (fld n 23 16)) (.ofNat 8 (fld n 15 8)) (.ofNat 8 (fld n 7 0)))
  | 0x1A => .ok (.mad (.ofNat 8 (fld n 23 16)) (.ofNat 8 (fld n 15 8)) (.ofNat 8 (fld n 7 0)))
  | 0x1B => unusedZero (fld n 7 0 == 0) (.ok (.abs (.ofNat 8 (fld n 23 16)) (.ofNat 8 (fld n 15 8))))
  | 0x1C => unusedZero (fld n 7 0 == 0) (.ok (.neg (.ofNat 8 (fld n 23 16)) (.ofNat 8 (fld n 15 8))))
  | 0x1D => .ok (.min (.ofNat 8 (fld n 23 16)) (.ofNat 8 (fld n 15 8)) (.ofNat 8 (fld n 7 0)))
  | 0x1E => .ok (.max (.ofNat 8 (fld n 23 16)) (.ofNat 8 (fld n 15 8)) (.ofNat 8 (fld n 7 0)))
  | 0x1F => .ok (.lea (.ofNat 8 (fld n 23 16)) (.ofNat 8 (fld n 15 8)) (.ofNat 8 (fld n 7 0)))
  | _ => .bad .illegalWord

/-- Strand opcodes 0x20 to 0x3F (R34). -/
def decodeOps20 (op n : Nat) : Decoded :=
  match op with
  | 0x20 => .ok (.and (.ofNat 8 (fld n 23 16)) (.ofNat 8 (fld n 15 8)) (.ofNat 8 (fld n 7 0)))
  | 0x21 => .ok (.or (.ofNat 8 (fld n 23 16)) (.ofNat 8 (fld n 15 8)) (.ofNat 8 (fld n 7 0)))
  | 0x22 => .ok (.xor (.ofNat 8 (fld n 23 16)) (.ofNat 8 (fld n 15 8)) (.ofNat 8 (fld n 7 0)))
  | 0x23 => .ok (.andn (.ofNat 8 (fld n 23 16)) (.ofNat 8 (fld n 15 8)) (.ofNat 8 (fld n 7 0)))
  | 0x24 => unusedZero (fld n 7 0 == 0) (.ok (.not (.ofNat 8 (fld n 23 16)) (.ofNat 8 (fld n 15 8))))
  | 0x25 => .ok (.shl (.ofNat 8 (fld n 23 16)) (.ofNat 8 (fld n 15 8)) (.ofNat 8 (fld n 7 0)))
  | 0x26 => .ok (.shr (.ofNat 8 (fld n 23 16)) (.ofNat 8 (fld n 15 8)) (.ofNat 8 (fld n 7 0)))
  | 0x27 => .ok (.sar (.ofNat 8 (fld n 23 16)) (.ofNat 8 (fld n 15 8)) (.ofNat 8 (fld n 7 0)))
  | 0x28 => .ok (.rotl (.ofNat 8 (fld n 23 16)) (.ofNat 8 (fld n 15 8)) (.ofNat 8 (fld n 7 0)))
  | 0x29 => .ok (.bfx (.ofNat 8 (fld n 23 16)) (.ofNat 8 (fld n 15 8)) (.ofNat 8 (fld n 7 0)))
  | 0x2A => .ok (.bfi (.ofNat 8 (fld n 23 16)) (.ofNat 8 (fld n 15 8)) (.ofNat 8 (fld n 7 0)))
  | 0x2B => unusedZero (fld n 7 0 == 0) (.ok (.clz (.ofNat 8 (fld n 23 16)) (.ofNat 8 (fld n 15 8))))
  | 0x2C => unusedZero (fld n 7 0 == 0) (.ok (.ctz (.ofNat 8 (fld n 23 16)) (.ofNat 8 (fld n 15 8))))
  | 0x2D => unusedZero (fld n 7 0 == 0) (.ok (.popc (.ofNat 8 (fld n 23 16)) (.ofNat 8 (fld n 15 8))))
  | 0x2E => unusedZero (fld n 7 0 == 0) (.ok (.brev (.ofNat 8 (fld n 23 16)) (.ofNat 8 (fld n 15 8))))
  | 0x30 => .ok (.fadd (.ofNat 8 (fld n 23 16)) (.ofNat 8 (fld n 15 8)) (.ofNat 8 (fld n 7 0)))
  | 0x31 => .ok (.fsub (.ofNat 8 (fld n 23 16)) (.ofNat 8 (fld n 15 8)) (.ofNat 8 (fld n 7 0)))
  | 0x32 => .ok (.fmul (.ofNat 8 (fld n 23 16)) (.ofNat 8 (fld n 15 8)) (.ofNat 8 (fld n 7 0)))
  | 0x33 => .ok (.ffma (.ofNat 8 (fld n 23 16)) (.ofNat 8 (fld n 15 8)) (.ofNat 8 (fld n 7 0)))
  | 0x34 => .ok (.fmin (.ofNat 8 (fld n 23 16)) (.ofNat 8 (fld n 15 8)) (.ofNat 8 (fld n 7 0)))
  | 0x35 => .ok (.fmax (.ofNat 8 (fld n 23 16)) (.ofNat 8 (fld n 15 8)) (.ofNat 8 (fld n 7 0)))
  | 0x36 => .ok (.fminp (.ofNat 8 (fld n 23 16)) (.ofNat 8 (fld n 15 8)) (.ofNat 8 (fld n 7 0)))
  | 0x37 => .ok (.fmaxp (.ofNat 8 (fld n 23 16)) (.ofNat 8 (fld n 15 8)) (.ofNat 8 (fld n 7 0)))
  | 0x38 => unusedZero (fld n 7 0 == 0) (.ok (.fabs (.ofNat 8 (fld n 23 16)) (.ofNat 8 (fld n 15 8))))
  | 0x39 => unusedZero (fld n 7 0 == 0) (.ok (.fneg (.ofNat 8 (fld n 23 16)) (.ofNat 8 (fld n 15 8))))
  | 0x3A => unusedZero (fld n 7 0 == 0) (.ok (.frcp (.ofNat 8 (fld n 23 16)) (.ofNat 8 (fld n 15 8))))
  | 0x3B => unusedZero (fld n 7 0 == 0) (.ok (.frsq (.ofNat 8 (fld n 23 16)) (.ofNat 8 (fld n 15 8))))
  | 0x3C => unusedZero (fld n 7 0 == 0) (.ok (.fsqrt (.ofNat 8 (fld n 23 16)) (.ofNat 8 (fld n 15 8))))
  | 0x3D => unusedZero (fld n 7 0 == 0) (.ok (.fex2 (.ofNat 8 (fld n 23 16)) (.ofNat 8 (fld n 15 8))))
  | 0x3E => unusedZero (fld n 7 0 == 0) (.ok (.flg2 (.ofNat 8 (fld n 23 16)) (.ofNat 8 (fld n 15 8))))
  | 0x3F => unusedZero (fld n 7 0 == 0) (.ok (.fsin (.ofNat 8 (fld n 23 16)) (.ofNat 8 (fld n 15 8))))
  | _ => .bad .illegalWord

/-- Strand opcodes 0x40 to 0x5F (R34). -/
def decodeOps40 (op n : Nat) : Decoded :=
  match op with
  | 0x40 => unusedZero (fld n 7 0 == 0) (.ok (.fcos (.ofNat 8 (fld n 23 16)) (.ofNat 8 (fld n 15 8))))
  | 0x41 => unusedZero (fld n 7 0 == 0) (.ok (.frnd (.ofNat 8 (fld n 23 16)) (.ofNat 8 (fld n 15 8))))
  | 0x42 => unusedZero (fld n 7 0 == 0) (.ok (.fcls (.ofNat 8 (fld n 23 16)) (.ofNat 8 (fld n 15 8))))
  | 0x43 => .ok (.fscl (.ofNat 8 (fld n 23 16)) (.ofNat 8 (fld n 15 8)) (.ofNat 8 (fld n 7 0)))
  | 0x44 => .ok (.fdot4 (.ofNat 8 (fld n 23 16)) (.ofNat 8 (fld n 15 8)) (.ofNat 8 (fld n 7 0)))
  | 0x50 => .ok (.icmp (.ofNat 4 (fld n 23 20)) (.ofNat 4 (fld n 19 16)) (.ofNat 8 (fld n 15 8)) (.ofNat 8 (fld n 7 0)))
  | 0x51 => .ok (.fcmp (.ofNat 4 (fld n 23 20)) (.ofNat 4 (fld n 19 16)) (.ofNat 8 (fld n 15 8)) (.ofNat 8 (fld n 7 0)))
  | 0x52 => operandOk (fld n 23 20 == 0 && fld n 15 12 == 0 && fld n 7 4 == 0) (.ok (.pand (.ofNat 4 (fld n 19 16)) (.ofNat 4 (fld n 11 8)) (.ofNat 4 (fld n 3 0))))
  | 0x53 => operandOk (fld n 23 20 == 0 && fld n 15 12 == 0 && fld n 7 4 == 0) (.ok (.por (.ofNat 4 (fld n 19 16)) (.ofNat 4 (fld n 11 8)) (.ofNat 4 (fld n 3 0))))
  | 0x54 => operandOk (fld n 23 20 == 0 && fld n 15 12 == 0 && fld n 7 4 == 0) (.ok (.pxor (.ofNat 4 (fld n 19 16)) (.ofNat 4 (fld n 11 8)) (.ofNat 4 (fld n 3 0))))
  | 0x55 => unusedZero (fld n 7 0 == 0) (operandOk (fld n 15 12 == 0) (.ok (.p2v (.ofNat 8 (fld n 23 16)) (.ofNat 4 (fld n 11 8)))))
  | 0x56 => unusedZero (fld n 7 0 == 0) (operandOk (fld n 23 20 == 0) (.ok (.v2p (.ofNat 4 (fld n 19 16)) (.ofNat 8 (fld n 15 8)))))
  | 0x58 => unusedZero (fld n 23 16 == 0) (.ok (.vgrow (.ofNat 8 (fld n 15 8)) (.ofNat 8 (fld n 7 0))))
  | 0x59 => unusedZero (fld n 23 16 == 0) (.ok (.vshrink (.ofNat 8 (fld n 15 8)) (.ofNat 8 (fld n 7 0))))
  | 0x5A => .ok (.shfl (.ofNat 8 (fld n 23 16)) (.ofNat 8 (fld n 15 8)) (.ofNat 8 (fld n 7 0)))
  | 0x5B => .ok (.rot (.ofNat 8 (fld n 23 16)) (.ofNat 8 (fld n 15 8)) (.ofNat 8 (fld n 7 0)))
  | 0x5C => .ok (.vote (.ofNat 8 (fld n 23 16)) (.ofNat 8 (fld n 15 8)) (.ofNat 8 (fld n 7 0)))
  | 0x5D => unusedZero (fld n 15 8 == 0) (.ok (.lanes (.ofNat 8 (fld n 23 16)) (.ofNat 8 (fld n 7 0))))
  | 0x5E => unusedZero (fld n 7 0 == 0) (.ok (.rdsr (.ofNat 8 (fld n 23 16)) (.ofNat 8 (fld n 15 8))))
  | 0x5F => unusedZero (fld n 7 0 == 0) (.ok (.wrsr (.ofNat 8 (fld n 23 16)) (.ofNat 8 (fld n 15 8))))
  | _ => .bad .illegalWord

/-- Strand opcodes 0x60 to 0x7F (R34). -/
def decodeOps60 (op n : Nat) : Decoded :=
  match op with
  | 0x60 => unusedZero (fld n 7 0 == 0) (operandOk (fld n 23 18 == 0) (.ok (.setfmt (.ofNat 2 (fld n 17 16)) (.ofNat 8 (fld n 15 8)))))
  | 0x61 => unusedZero (fld n 7 0 == 0) (operandOk (fld n 15 10 == 0) (.ok (.getfmt (.ofNat 8 (fld n 23 16)) (.ofNat 2 (fld n 9 8)))))
  | 0x62 => .ok (.cvt (.ofNat 8 (fld n 23 16)) (.ofNat 8 (fld n 15 8)) (.ofNat 4 (fld n 7 4)) (.ofNat 4 (fld n 3 0)))
  | 0x63 => unusedZero (fld n 7 2 == 0) (.ok (.nfpk (.ofNat 8 (fld n 23 16)) (.ofNat 8 (fld n 15 8)) (.ofNat 2 (fld n 1 0))))
  | 0x64 => unusedZero (fld n 7 2 == 0) (.ok (.nfupk (.ofNat 8 (fld n 23 16)) (.ofNat 8 (fld n 15 8)) (.ofNat 2 (fld n 1 0))))
  | 0x65 => unusedZero (fld n 23 16 == 0 && fld n 7 0 == 0) (.ok (.srseed (.ofNat 8 (fld n 15 8))))
  | 0x68 => unusedZero (fld n 7 3 == 0 && (fld n 2 2 == 0 || fld n 1 0 ≥ 2)) (.ok (.lds (.ofNat 8 (fld n 23 16)) (.ofNat 8 (fld n 15 8)) (.ofNat 1 (fld n 2 2)) (.ofNat 2 (fld n 1 0))))
  | 0x69 => unusedZero (fld n 23 18 == 0) (.ok (.sts (.ofNat 2 (fld n 17 16)) (.ofNat 8 (fld n 15 8)) (.ofNat 8 (fld n 7 0))))
  | 0x6A => unusedZero (fld n 7 4 == 0) (.ok (.ldsm (.ofNat 8 (fld n 23 16)) (.ofNat 8 (fld n 15 8)) (.ofNat 4 (fld n 3 0))))
  | 0x6B => unusedZero (fld n 23 20 == 0) (.ok (.stsm (.ofNat 4 (fld n 19 16)) (.ofNat 8 (fld n 15 8)) (.ofNat 8 (fld n 7 0))))
  | 0x6C => unusedZero (fld n 7 0 == 0) (.ok (.spt (.ofNat 8 (fld n 23 16)) (.ofNat 8 (fld n 15 8))))
  | 0x6D => unusedZero (fld n 7 0 == 0) (.ok (.spc (.ofNat 8 (fld n 23 16)) (.ofNat 8 (fld n 15 8))))
  | 0x6E => unusedZero (fld n 23 20 == 0 && fld n 7 0 == 0) (.ok (.xsend (.ofNat 2 (fld n 19 18)) (.ofNat 2 (fld n 17 16)) (.ofNat 8 (fld n 15 8))))
  | 0x6F => unusedZero (fld n 15 12 == 0 && fld n 7 0 == 0) (.ok (.xrecv (.ofNat 8 (fld n 23 16)) (.ofNat 2 (fld n 11 10)) (.ofNat 2 (fld n 9 8))))
  | 0x70 => unusedZero (fld n 7 3 == 0 && (fld n 2 2 == 0 || fld n 1 0 ≥ 2)) (.ok (.ld (.ofNat 8 (fld n 23 16)) (.ofNat 8 (fld n 15 8)) (.ofNat 1 (fld n 2 2)) (.ofNat 2 (fld n 1 0))))
  | 0x71 => unusedZero (fld n 7 3 == 0 && (fld n 2 2 == 0 || fld n 1 0 ≥ 2)) (.ok (.ldb (.ofNat 8 (fld n 23 16)) (.ofNat 8 (fld n 15 8)) (.ofNat 1 (fld n 2 2)) (.ofNat 2 (fld n 1 0))))
  | 0x72 => unusedZero (fld n 23 18 == 0) (.ok (.st (.ofNat 2 (fld n 17 16)) (.ofNat 8 (fld n 15 8)) (.ofNat 8 (fld n 7 0))))
  | 0x73 => unusedZero (fld n 23 18 == 0) (.ok (.stb (.ofNat 2 (fld n 17 16)) (.ofNat 8 (fld n 15 8)) (.ofNat 8 (fld n 7 0))))
  | 0x74 => unusedZero (fld n 7 4 == 0) (.ok (.ldm (.ofNat 8 (fld n 23 16)) (.ofNat 8 (fld n 15 8)) (.ofNat 4 (fld n 3 0))))
  | 0x75 => unusedZero (fld n 23 20 == 0) (.ok (.stm (.ofNat 4 (fld n 19 16)) (.ofNat 8 (fld n 15 8)) (.ofNat 8 (fld n 7 0))))
  | 0x76 => unusedZero (fld n 23 16 == 0 && fld n 7 0 == 0) (.ok (.pref (.ofNat 8 (fld n 15 8))))
  | 0x77 => unusedZero (fld n 7 0 == 0) (.ok (.chain (.ofNat 8 (fld n 23 16)) (.ofNat 8 (fld n 15 8))))
  | 0x78 => unusedZero (fld n 23 16 == 0 && fld n 7 0 == 0) (.ok (.pin (.ofNat 8 (fld n 15 8))))
  | 0x79 => unusedZero (fld n 23 16 == 0 && fld n 7 0 == 0) (.ok (.unpin (.ofNat 8 (fld n 15 8))))
  | 0x7A => unusedZero (fld n 23 16 == 0 && fld n 7 0 == 0) (.ok (.lotwb (.ofNat 8 (fld n 15 8))))
  | 0x7B => unusedZero (fld n 23 16 == 0 && fld n 7 0 == 0) (.ok (.lotdrop (.ofNat 8 (fld n 15 8))))
  | 0x7C => .ok (.pgq (.ofNat 8 (fld n 23 16)) (.ofNat 8 (fld n 15 8)) (.ofNat 8 (fld n 7 0)))
  | 0x7D => unusedZero (fld n 23 20 == 0) (.ok (.tlbinv (.ofNat 4 (fld n 19 16)) (.ofNat 8 (fld n 15 8)) (.ofNat 8 (fld n 7 0))))
  | 0x7E => unusedZero (fld n 23 0 == 0) (.ok .tlbsync)
  | _ => .bad .illegalWord

/-- Strand opcodes 0x80 to 0x9F (R34). -/
def decodeOps80 (op n : Nat) : Decoded :=
  match op with
  | 0x80 => unusedZero (fld n 15 0 == 0) (operandOk (fld n 23 20 == 0) (.ok (.bar (.ofNat 4 (fld n 19 16)))))
  | 0x81 => operandOk (fld n 23 20 == 0) (match fld n 7 0 with
    | 0 => operandOk (fld n 15 8 == 0) (.ok (.barar (.ofNat 4 (fld n 19 16))))
    | 1 => .ok (.bararArm (.ofNat 4 (fld n 19 16)) (.ofNat 8 (fld n 15 8)))
    | _ => .bad .illegalOperand)
  | 0x82 => unusedZero (fld n 15 0 == 0) (operandOk (fld n 23 20 == 0) (.ok (.barw (.ofNat 4 (fld n 19 16)))))
  | 0x83 => unusedZero (fld n 7 0 == 0) (operandOk (fld n 15 12 == 0) (.ok (.barst (.ofNat 8 (fld n 23 16)) (.ofNat 4 (fld n 11 8)))))
  | 0x84 => unusedZero (fld n 15 0 == 0) (.ok (.gbar (.ofNat 8 (fld n 23 16))))
  | 0x85 => unusedZero (fld n 23 12 == 0) (.ok (.fwait (.ofNat 12 (fld n 11 0))))
  | 0x86 => unusedZero (fld n 23 18 == 0 && fld n 7 0 == 0) (.ok (.twait (.ofNat 2 (fld n 17 16)) (.ofNat 8 (fld n 15 8))))
  | 0x87 => unusedZero (fld n 15 2 == 0) (.ok (.tget (.ofNat 8 (fld n 23 16)) (.ofNat 2 (fld n 1 0))))
  | 0x88 => unusedZero (fld n 23 19 == 0 && fld n 15 0 == 0) (.ok (.fence (.ofNat 3 (fld n 18 16))))
  | 0x89 => .ok (.atom (.ofNat 3 (fld n 23 21)) (.ofNat 3 (fld n 20 18)) (.ofNat 2 (fld n 17 16)) (.ofNat 8 (fld n 15 8)) (.ofNat 8 (fld n 7 0)))
  | 0x8A => .ok (.atomn (.ofNat 3 (fld n 23 21)) (.ofNat 3 (fld n 20 18)) (.ofNat 2 (fld n 17 16)) (.ofNat 8 (fld n 15 8)) (.ofNat 8 (fld n 7 0)))
  | 0x8B => unusedZero (fld n 23 21 == 0) (.ok (.cas (.ofNat 3 (fld n 20 18)) (.ofNat 2 (fld n 17 16)) (.ofNat 8 (fld n 15 8)) (.ofNat 8 (fld n 7 0))))
  | 0x8C => unusedZero (fld n 20 16 == 0) (.ok (.atomsc (.ofNat 3 (fld n 23 21)) (.ofNat 8 (fld n 15 8)) (.ofNat 8 (fld n 7 0))))
  | 0x8D => unusedZero (fld n 7 4 == 0) (.ok (.lda (.ofNat 8 (fld n 23 16)) (.ofNat 8 (fld n 15 8)) (.ofNat 1 (fld n 3 3)) (.ofNat 3 (fld n 2 0))))
  | 0x8E => unusedZero (fld n 23 20 == 0) (.ok (.stl (.ofNat 1 (fld n 19 19)) (.ofNat 3 (fld n 18 16)) (.ofNat 8 (fld n 15 8)) (.ofNat 8 (fld n 7 0))))
  | 0x8F => unusedZero (fld n 7 4 == 0) (.ok (.ldar (.ofNat 8 (fld n 23 16)) (.ofNat 8 (fld n 15 8)) (.ofNat 1 (fld n 3 3)) (.ofNat 3 (fld n 2 0))))
  | 0x90 => unusedZero (fld n 23 16 == 0 && fld n 7 0 == 0) (.ok (.mon (.ofNat 8 (fld n 15 8))))
  | 0x91 => unusedZero (fld n 23 16 == 0 && fld n 7 0 == 0) (.ok (.mwait (.ofNat 8 (fld n 15 8))))
  | _ => .bad .illegalWord

/-- Strand opcodes 0xA0 to 0xBF (R34). -/
def decodeOpsA0 (op n : Nat) : Decoded :=
  match op with
  | 0xA0 => unusedZero (fld n 7 0 == 0) (.ok (.cpy (.ofNat 8 (fld n 23 16)) (.ofNat 4 (fld n 15 12)) (.ofNat 4 (fld n 11 8))))
  | 0xA1 => .ok (.cpym (.ofNat 8 (fld n 23 16)) (.ofNat 4 (fld n 15 12)) (.ofNat 4 (fld n 11 8)) (.ofNat 8 (fld n 7 0)))
  | 0xA2 => unusedZero (fld n 7 0 == 0) (.ok (.cpyq (.ofNat 8 (fld n 23 16)) (.ofNat 8 (fld n 15 8))))
  | 0xA3 => unusedZero (fld n 23 16 == 0 && fld n 7 1 == 0) (.ok (.sleepu (.ofNat 8 (fld n 15 8)) (.ofNat 1 (fld n 0 0))))
  | 0xA4 => unusedZero (fld n 23 17 == 0) (if fld n 16 16 = 0
    then .ok (.fixqRetry (.ofNat 8 (fld n 15 8)) (.ofNat 8 (fld n 7 0)))
    else .ok (.fixqFail (.ofNat 8 (fld n 15 8)) (.ofNat 8 (fld n 7 0))))
  | 0xA5 => unusedZero (fld n 7 0 == 0) (operandOk (fld n 23 20 == 0) (.ok (.shld (.ofNat 4 (fld n 19 16)) (.ofNat 8 (fld n 15 8)))))
  | 0xA6 => unusedZero (fld n 7 0 == 0) (.ok (.shset (.ofNat 4 (fld n 23 20)) (.ofNat 4 (fld n 19 16)) (.ofNat 8 (fld n 15 8))))
  | 0xA7 => unusedZero (fld n 7 0 == 0) (operandOk (fld n 23 20 == 0) (.ok (.shst (.ofNat 4 (fld n 19 16)) (.ofNat 8 (fld n 15 8)))))
  | 0xA8 => .ok (.mgo (.ofNat 8 (fld n 23 16)) (.ofNat 8 (fld n 15 8)) (.ofNat 8 (fld n 7 0)))
  | 0xA9 => unusedZero (fld n 15 0 == 0) (.ok (.mq (.ofNat 8 (fld n 23 16))))
  | 0xAA => unusedZero (fld n 7 0 == 0) (.ok (.mres (.ofNat 8 (fld n 23 16)) (.ofNat 8 (fld n 15 8))))
  | 0xAB => unusedZero (fld n 7 0 == 0) (.ok (.mabort (.ofNat 8 (fld n 23 16)) (.ofNat 8 (fld n 15 8))))
  | 0xB0 => unusedZero (fld n 23 8 == 0) (.ok (.zlen (.ofNat 8 (fld n 7 0))))
  | 0xB1 => unusedZero (fld n 7 0 == 0) (operandOk (fld n 23 20 == 0) (.ok (.zseed (.ofNat 4 (fld n 19 16)) (.ofNat 8 (fld n 15 8)))))
  | 0xB2 => unusedZero (fld n 6 4 == 0) (operandOk (fld n 23 22 == 0) (.ok (.zenc (.ofNat 6 (fld n 21 16)) (.ofNat 8 (fld n 15 8)) (.ofNat 1 (fld n 7 7)) (.ofNat 4 (fld n 3 0)))))
  | 0xB3 => unusedZero (fld n 6 0 == 0) (operandOk (fld n 15 14 == 0) (.ok (.zdec (.ofNat 8 (fld n 23 16)) (.ofNat 6 (fld n 13 8)) (.ofNat 1 (fld n 7 7)))))
  | 0xB4 => unusedZero (fld n 6 6 == 0) (operandOk (fld n 23 22 == 0 && fld n 15 14 == 0) (.ok (.zand (.ofNat 6 (fld n 21 16)) (.ofNat 6 (fld n 13 8)) (.ofNat 1 (fld n 7 7)) (.ofNat 6 (fld n 5 0)))))
  | 0xB5 => unusedZero (fld n 6 6 == 0) (operandOk (fld n 23 22 == 0 && fld n 15 14 == 0) (.ok (.zxnor (.ofNat 6 (fld n 21 16)) (.ofNat 6 (fld n 13 8)) (.ofNat 1 (fld n 7 7)) (.ofNat 6 (fld n 5 0)))))
  | 0xB6 => unusedZero (fld n 6 6 == 0) (operandOk (fld n 23 22 == 0 && fld n 15 14 == 0) (.ok (.zmin (.ofNat 6 (fld n 21 16)) (.ofNat 6 (fld n 13 8)) (.ofNat 1 (fld n 7 7)) (.ofNat 6 (fld n 5 0)))))
  | 0xB7 => .ok (.zmux (.ofNat 6 (fld n 23 18)) (.ofNat 6 (fld n 17 12)) (.ofNat 6 (fld n 11 6)) (.ofNat 6 (fld n 5 0)))
  | 0xB8 => unusedZero (fld n 7 0 == 0) (operandOk (fld n 15 14 == 0) (.ok (.zcnt (.ofNat 8 (fld n 23 16)) (.ofNat 6 (fld n 13 8)))))
  | 0xB9 => unusedZero (fld n 14 14 == 0 && fld n 7 6 == 0) (.ok (.zdot (.ofNat 8 (fld n 23 16)) (.ofNat 1 (fld n 15 15)) (.ofNat 6 (fld n 13 8)) (.ofNat 6 (fld n 5 0))))
  | 0xBA => unusedZero (fld n 7 4 == 0) (operandOk (fld n 23 22 == 0 && fld n 15 14 == 0) (.ok (.zregen (.ofNat 6 (fld n 21 16)) (.ofNat 6 (fld n 13 8)) (.ofNat 4 (fld n 3 0)))))
  | 0xBB => unusedZero (fld n 7 0 == 0) (operandOk (fld n 15 14 == 0) (.ok (.zcls (.ofNat 8 (fld n 23 16)) (.ofNat 6 (fld n 13 8)))))
  | 0xBC => unusedZero (fld n 7 5 == 0) (.ok (.ztop (.ofNat 8 (fld n 23 16)) (.ofNat 8 (fld n 15 8)) (.ofNat 5 (fld n 4 0))))
  | _ => .bad .illegalWord

/-- Strand opcodes 0xC0 to 0xDF (R34). -/
def decodeOpsC0 (op n : Nat) : Decoded :=
  match op with
  | 0xC0 => unusedZero (fld n 23 16 == 0 && fld n 7 0 == 0) (.ok (.gcall (.ofNat 8 (fld n 15 8))))
  | 0xC1 => unusedZero (fld n 23 0 == 0) (.ok .gret)
  | 0xC2 => match fld n 7 0 with
    | 0 => unusedZero (fld n 15 8 == 0) (.ok (.didqSelf (.ofNat 8 (fld n 23 16))))
    | 1 => .ok (.didqDpr (.ofNat 8 (fld n 23 16)) (.ofNat 8 (fld n 15 8)))
    | 2 => unusedZero (fld n 15 8 == 0) (.ok (.didqGate (.ofNat 8 (fld n 23 16))))
    | _ => .bad .illegalOperand
  | 0xC3 => operandOk (fld n 5 4 == 0) (match fld n 7 6 with
    | 0 => .ok (.dpsetDpr (.ofNat 8 (fld n 23 16)) (.ofNat 8 (fld n 15 8)) (.ofNat 4 (fld n 3 0)))
    | 1 => .ok (.dpsetSub (.ofNat 8 (fld n 23 16)) (.ofNat 8 (fld n 15 8)) (.ofNat 4 (fld n 3 0)))
    | 2 => .ok (.dpsetSeal (.ofNat 8 (fld n 23 16)) (.ofNat 8 (fld n 15 8)) (.ofNat 4 (fld n 3 0)))
    | _ => .bad .illegalOperand)
  | 0xC8 => unusedZero (fld n 7 0 == 0) (.ok (.syscall (.ofNat 8 (fld n 23 16)) (.ofNat 8 (fld n 15 8))))
  | 0xC9 => unusedZero (fld n 23 16 == 0) (.ok (.trap (.ofNat 16 (fld n 15 0))))
  | 0xCA => unusedZero (fld n 23 1 == 0) (.ok (.tret (.ofNat 1 (fld n 0 0))))
  | 0xCB => unusedZero (fld n 23 8 == 0) (.ok (.brk (.ofNat 8 (fld n 7 0))))
  | 0xCC => unusedZero (fld n 7 0 == 0) (.ok (.ctxsv (.ofNat 8 (fld n 23 16)) (.ofNat 8 (fld n 15 8))))
  | 0xCD => unusedZero (fld n 23 16 == 0 && fld n 7 0 == 0) (.ok (.ctxld (.ofNat 8 (fld n 15 8))))
  | 0xD0 => unusedZero (fld n 23 16 == 0) (.ok (.sigchk (.ofNat 16 (fld n 15 0))))
  | 0xD1 => unusedZero (fld n 15 0 == 0) (.ok (.sigrd (.ofNat 8 (fld n 23 16))))
  | 0xD2 => unusedZero (fld n 23 16 == 0 && fld n 7 0 == 0) (.ok (.sigset (.ofNat 8 (fld n 15 8))))
  | 0xD3 => unusedZero (fld n 7 1 == 0) (.ok (.errq (.ofNat 8 (fld n 23 16)) (.ofNat 8 (fld n 15 8)) (.ofNat 1 (fld n 0 0))))
  | _ => .bad .illegalWord

/-- A strand word by its opcode (R34, R35). -/
def decodeNat (n : Nat) : Decoded :=
  let op := fld n 31 24
  if op < 0x20 then decodeOps00 op n
  else if op < 0x40 then decodeOps20 op n
  else if op < 0x60 then decodeOps40 op n
  else if op < 0x80 then decodeOps60 op n
  else if op < 0xA0 then decodeOps80 op n
  else if op < 0xC0 then decodeOpsA0 op n
  else if op < 0xE0 then decodeOpsC0 op n
  else if op < 0xF8 then .bad .illegalWord
  else decodeHeader n

/-- The instruction that a strand word is, or why it is none. -/
def decode (w : Word) : Decoded := decodeNat w.toNat

/-- A sequencer word (R15, R40). -/
def decodeSeqNat (n : Nat) : Decoded :=
  match fld n 31 24 with
  | 0x01 => seqZero (fld n 15 0 == 0) (.ok (.mta (.ofNat 4 (fld n 23 20)) (.ofNat 4 (fld n 19 16))))
  | 0x02 => seqZero (fld n 20 16 == 0) (.ok (.mbind (.ofNat 3 (fld n 23 21)) (.ofNat 16 (fld n 15 0))))
  | 0x03 => .ok (.mmul (.ofNat 1 (fld n 23 23)) (.ofNat 4 (fld n 22 19)) (.ofNat 3 (fld n 18 16)) (.ofNat 16 (fld n 15 0)))
  | 0x04 => seqZero (fld n 15 0 == 0) (.ok (.mzero (.ofNat 1 (fld n 23 23)) (.ofNat 4 (fld n 22 19)) (.ofNat 3 (fld n 18 16))))
  | 0x05 => .ok (.mout (.ofNat 1 (fld n 23 23)) (.ofNat 4 (fld n 22 19)) (.ofNat 3 (fld n 18 16)) (.ofNat 3 (fld n 15 13)) (.ofNat 3 (fld n 12 10)) (.ofNat 10 (fld n 9 0)))
  | 0x06 => seqZero (fld n 14 0 == 0) (.ok (.mscl (.ofNat 2 (fld n 23 22)) (.ofNat 4 (fld n 21 18)) (.ofNat 3 (fld n 17 15))))
  | 0x07 => seqZero (fld n 13 0 == 0) (.ok (.mfmt (.ofNat 3 (fld n 23 21)) (.ofNat 3 (fld n 20 18)) (.ofNat 3 (fld n 17 15)) (.ofNat 1 (fld n 14 14))))
  | 0x08 => seqZero (fld n 19 16 == 0) (.ok (.mloop (.ofNat 1 (fld n 23 23)) (.ofNat 3 (fld n 22 20)) (.ofNat 16 (fld n 15 0))))
  | 0x09 => seqZero (fld n 23 0 == 0) (.ok .mendl)
  | 0x0A => seqZero (fld n 19 0 == 0) (.ok (.marr (.ofNat 4 (fld n 23 20))))
  | 0x0B => seqZero (fld n 19 0 == 0) (.ok (.mwb (.ofNat 4 (fld n 23 20))))
  | 0x0C => .ok (.mjmp (.ofNat 24 (fld n 23 0)))
  | 0x0D => seqZero (fld n 23 0 == 0) (.ok .mstop)
  | 0x0E => seqZero (fld n 11 0 == 0) (.ok (.mtrn (.ofNat 1 (fld n 23 23)) (.ofNat 4 (fld n 22 19)) (.ofNat 4 (fld n 18 15)) (.ofNat 3 (fld n 14 12))))
  | 0x0F => seqZero (fld n 11 0 == 0) (.ok (.maddt (.ofNat 1 (fld n 23 23)) (.ofNat 4 (fld n 22 19)) (.ofNat 3 (fld n 18 16)) (.ofNat 4 (fld n 15 12))))
  | 0x10 => seqZero (fld n 12 0 == 0) (.ok (.mmax (.ofNat 1 (fld n 23 23)) (.ofNat 4 (fld n 22 19)) (.ofNat 3 (fld n 18 16)) (.ofNat 3 (fld n 15 13))))
  | 0x11 => .ok (.mset (.ofNat 3 (fld n 23 21)) (.ofNat 2 (fld n 20 19)) (.ofNat 19 (fld n 18 0)))
  | _ => .bad .seqIllegal

def decodeSeq (w : Word) : Decoded := decodeSeqNat w.toNat

/-- The word of an instruction that has one (R11, R12, R15, R23); the steps of the device have none. -/
def encode (i : Instr) : Option Word :=
  match i with
  | .clauseStart l w a b => some (.ofNat 32 (0xF8000000 + l.toNat * 0x800000 + w.toNat * 0x800 + a.toNat * 0x80 + b.toNat * 0x8))
  | .setmode i => some (.ofNat 32 (0x01000000 + i.toNat))
  | .setmodeh i => some (.ofNat 32 (0x02000000 + i.toNat))
  | .getmode d => some (.ofNat 32 (0x03000000 + d.toNat * 0x10000))
  | .rcv o => some (.ofNat 32 (0x04000000 + o.toNat))
  | .bra h o => some (.ofNat 32 (0x05000000 + h.toNat * 0x400000 + o.toNat))
  | .brc h p s o => some (.ofNat 32 (0x06000000 + h.toNat * 0x400000 + p.toNat * 0x40000 + s.toNat * 0x20000 + o.toNat))
  | .brx h a => some (.ofNat 32 (0x07000000 + h.toNat * 0x400000 + a.toNat * 0x100))
  | .call d o => some (.ofNat 32 (0x08000000 + d.toNat * 0x10000 + o.toNat))
  | .ret a => some (.ofNat 32 (0x09000000 + a.toNat * 0x100))
  | .exit => some (.ofNat 32 (0x0A000000))
  | .yield => some (.ofNat 32 (0x0B000000))
  | .nop => some (.ofNat 32 (0x0F000000))
  | .mov d a => some (.ofNat 32 (0x10000000 + d.toNat * 0x10000 + a.toNat * 0x100))
  | .lil d i => some (.ofNat 32 (0x11000000 + d.toNat * 0x10000 + i.toNat))
  | .lih d i => some (.ofNat 32 (0x12000000 + d.toNat * 0x10000 + i.toNat))
  | .sel d a b => some (.ofNat 32 (0x13000000 + d.toNat * 0x10000 + a.toNat * 0x100 + b.toNat))
  | .add d a b => some (.ofNat 32 (0x14000000 + d.toNat * 0x10000 + a.toNat * 0x100 + b.toNat))
  | .addc d a b => some (.ofNat 32 (0x15000000 + d.toNat * 0x10000 + a.toNat * 0x100 + b.toNat))
  | .sub d a b => some (.ofNat 32 (0x16000000 + d.toNat * 0x10000 + a.toNat * 0x100 + b.toNat))
  | .subb d a b => some (.ofNat 32 (0x17000000 + d.toNat * 0x10000 + a.toNat * 0x100 + b.toNat))
  | .mul d a b => some (.ofNat 32 (0x18000000 + d.toNat * 0x10000 + a.toNat * 0x100 + b.toNat))
  | .mulh d a b => some (.ofNat 32 (0x19000000 + d.toNat * 0x10000 + a.toNat * 0x100 + b.toNat))
  | .mad d a b => some (.ofNat 32 (0x1A000000 + d.toNat * 0x10000 + a.toNat * 0x100 + b.toNat))
  | .abs d a => some (.ofNat 32 (0x1B000000 + d.toNat * 0x10000 + a.toNat * 0x100))
  | .neg d a => some (.ofNat 32 (0x1C000000 + d.toNat * 0x10000 + a.toNat * 0x100))
  | .min d a b => some (.ofNat 32 (0x1D000000 + d.toNat * 0x10000 + a.toNat * 0x100 + b.toNat))
  | .max d a b => some (.ofNat 32 (0x1E000000 + d.toNat * 0x10000 + a.toNat * 0x100 + b.toNat))
  | .lea d a b => some (.ofNat 32 (0x1F000000 + d.toNat * 0x10000 + a.toNat * 0x100 + b.toNat))
  | .and d a b => some (.ofNat 32 (0x20000000 + d.toNat * 0x10000 + a.toNat * 0x100 + b.toNat))
  | .or d a b => some (.ofNat 32 (0x21000000 + d.toNat * 0x10000 + a.toNat * 0x100 + b.toNat))
  | .xor d a b => some (.ofNat 32 (0x22000000 + d.toNat * 0x10000 + a.toNat * 0x100 + b.toNat))
  | .andn d a b => some (.ofNat 32 (0x23000000 + d.toNat * 0x10000 + a.toNat * 0x100 + b.toNat))
  | .not d a => some (.ofNat 32 (0x24000000 + d.toNat * 0x10000 + a.toNat * 0x100))
  | .shl d a b => some (.ofNat 32 (0x25000000 + d.toNat * 0x10000 + a.toNat * 0x100 + b.toNat))
  | .shr d a b => some (.ofNat 32 (0x26000000 + d.toNat * 0x10000 + a.toNat * 0x100 + b.toNat))
  | .sar d a b => some (.ofNat 32 (0x27000000 + d.toNat * 0x10000 + a.toNat * 0x100 + b.toNat))
  | .rotl d a b => some (.ofNat 32 (0x28000000 + d.toNat * 0x10000 + a.toNat * 0x100 + b.toNat))
  | .bfx d a b => some (.ofNat 32 (0x29000000 + d.toNat * 0x10000 + a.toNat * 0x100 + b.toNat))
  | .bfi d a b => some (.ofNat 32 (0x2A000000 + d.toNat * 0x10000 + a.toNat * 0x100 + b.toNat))
  | .clz d a => some (.ofNat 32 (0x2B000000 + d.toNat * 0x10000 + a.toNat * 0x100))
  | .ctz d a => some (.ofNat 32 (0x2C000000 + d.toNat * 0x10000 + a.toNat * 0x100))
  | .popc d a => some (.ofNat 32 (0x2D000000 + d.toNat * 0x10000 + a.toNat * 0x100))
  | .brev d a => some (.ofNat 32 (0x2E000000 + d.toNat * 0x10000 + a.toNat * 0x100))
  | .fadd d a b => some (.ofNat 32 (0x30000000 + d.toNat * 0x10000 + a.toNat * 0x100 + b.toNat))
  | .fsub d a b => some (.ofNat 32 (0x31000000 + d.toNat * 0x10000 + a.toNat * 0x100 + b.toNat))
  | .fmul d a b => some (.ofNat 32 (0x32000000 + d.toNat * 0x10000 + a.toNat * 0x100 + b.toNat))
  | .ffma d a b => some (.ofNat 32 (0x33000000 + d.toNat * 0x10000 + a.toNat * 0x100 + b.toNat))
  | .fmin d a b => some (.ofNat 32 (0x34000000 + d.toNat * 0x10000 + a.toNat * 0x100 + b.toNat))
  | .fmax d a b => some (.ofNat 32 (0x35000000 + d.toNat * 0x10000 + a.toNat * 0x100 + b.toNat))
  | .fminp d a b => some (.ofNat 32 (0x36000000 + d.toNat * 0x10000 + a.toNat * 0x100 + b.toNat))
  | .fmaxp d a b => some (.ofNat 32 (0x37000000 + d.toNat * 0x10000 + a.toNat * 0x100 + b.toNat))
  | .fabs d a => some (.ofNat 32 (0x38000000 + d.toNat * 0x10000 + a.toNat * 0x100))
  | .fneg d a => some (.ofNat 32 (0x39000000 + d.toNat * 0x10000 + a.toNat * 0x100))
  | .frcp d a => some (.ofNat 32 (0x3A000000 + d.toNat * 0x10000 + a.toNat * 0x100))
  | .frsq d a => some (.ofNat 32 (0x3B000000 + d.toNat * 0x10000 + a.toNat * 0x100))
  | .fsqrt d a => some (.ofNat 32 (0x3C000000 + d.toNat * 0x10000 + a.toNat * 0x100))
  | .fex2 d a => some (.ofNat 32 (0x3D000000 + d.toNat * 0x10000 + a.toNat * 0x100))
  | .flg2 d a => some (.ofNat 32 (0x3E000000 + d.toNat * 0x10000 + a.toNat * 0x100))
  | .fsin d a => some (.ofNat 32 (0x3F000000 + d.toNat * 0x10000 + a.toNat * 0x100))
  | .fcos d a => some (.ofNat 32 (0x40000000 + d.toNat * 0x10000 + a.toNat * 0x100))
  | .frnd d a => some (.ofNat 32 (0x41000000 + d.toNat * 0x10000 + a.toNat * 0x100))
  | .fcls d a => some (.ofNat 32 (0x42000000 + d.toNat * 0x10000 + a.toNat * 0x100))
  | .fscl d a b => some (.ofNat 32 (0x43000000 + d.toNat * 0x10000 + a.toNat * 0x100 + b.toNat))
  | .fdot4 d a b => some (.ofNat 32 (0x44000000 + d.toNat * 0x10000 + a.toNat * 0x100 + b.toNat))
  | .icmp c p a b => some (.ofNat 32 (0x50000000 + c.toNat * 0x100000 + p.toNat * 0x10000 + a.toNat * 0x100 + b.toNat))
  | .fcmp c p a b => some (.ofNat 32 (0x51000000 + c.toNat * 0x100000 + p.toNat * 0x10000 + a.toNat * 0x100 + b.toNat))
  | .pand d a b => some (.ofNat 32 (0x52000000 + d.toNat * 0x10000 + a.toNat * 0x100 + b.toNat))
  | .por d a b => some (.ofNat 32 (0x53000000 + d.toNat * 0x10000 + a.toNat * 0x100 + b.toNat))
  | .pxor d a b => some (.ofNat 32 (0x54000000 + d.toNat * 0x10000 + a.toNat * 0x100 + b.toNat))
  | .p2v d n => some (.ofNat 32 (0x55000000 + d.toNat * 0x10000 + n.toNat * 0x100))
  | .v2p n a => some (.ofNat 32 (0x56000000 + n.toNat * 0x10000 + a.toNat * 0x100))
  | .vgrow a b => some (.ofNat 32 (0x58000000 + a.toNat * 0x100 + b.toNat))
  | .vshrink a b => some (.ofNat 32 (0x59000000 + a.toNat * 0x100 + b.toNat))
  | .shfl d a b => some (.ofNat 32 (0x5A000000 + d.toNat * 0x10000 + a.toNat * 0x100 + b.toNat))
  | .rot d a b => some (.ofNat 32 (0x5B000000 + d.toNat * 0x10000 + a.toNat * 0x100 + b.toNat))
  | .vote d a k => some (.ofNat 32 (0x5C000000 + d.toNat * 0x10000 + a.toNat * 0x100 + k.toNat))
  | .lanes d k => some (.ofNat 32 (0x5D000000 + d.toNat * 0x10000 + k.toNat))
  | .rdsr d s => some (.ofNat 32 (0x5E000000 + d.toNat * 0x10000 + s.toNat * 0x100))
  | .wrsr s a => some (.ofNat 32 (0x5F000000 + s.toNat * 0x10000 + a.toNat * 0x100))
  | .setfmt n a => some (.ofNat 32 (0x60000000 + n.toNat * 0x10000 + a.toNat * 0x100))
  | .getfmt d n => some (.ofNat 32 (0x61000000 + d.toNat * 0x10000 + n.toNat * 0x100))
  | .cvt d a t s => some (.ofNat 32 (0x62000000 + d.toNat * 0x10000 + a.toNat * 0x100 + t.toNat * 0x10 + s.toNat))
  | .nfpk d a n => some (.ofNat 32 (0x63000000 + d.toNat * 0x10000 + a.toNat * 0x100 + n.toNat))
  | .nfupk d a n => some (.ofNat 32 (0x64000000 + d.toNat * 0x10000 + a.toNat * 0x100 + n.toNat))
  | .srseed a => some (.ofNat 32 (0x65000000 + a.toNat * 0x100))
  | .lds d a s z => some (.ofNat 32 (0x68000000 + d.toNat * 0x10000 + a.toNat * 0x100 + s.toNat * 0x4 + z.toNat))
  | .sts z a b => some (.ofNat 32 (0x69000000 + z.toNat * 0x10000 + a.toNat * 0x100 + b.toNat))
  | .ldsm d a n => some (.ofNat 32 (0x6A000000 + d.toNat * 0x10000 + a.toNat * 0x100 + n.toNat))
  | .stsm n a b => some (.ofNat 32 (0x6B000000 + n.toNat * 0x10000 + a.toNat * 0x100 + b.toNat))
  | .spt d a => some (.ofNat 32 (0x6C000000 + d.toNat * 0x10000 + a.toNat * 0x100))
  | .spc d a => some (.ofNat 32 (0x6D000000 + d.toNat * 0x10000 + a.toNat * 0x100))
  | .xsend c r a => some (.ofNat 32 (0x6E000000 + c.toNat * 0x40000 + r.toNat * 0x10000 + a.toNat * 0x100))
  | .xrecv d c r => some (.ofNat 32 (0x6F000000 + d.toNat * 0x10000 + c.toNat * 0x400 + r.toNat * 0x100))
  | .ld d a s z => some (.ofNat 32 (0x70000000 + d.toNat * 0x10000 + a.toNat * 0x100 + s.toNat * 0x4 + z.toNat))
  | .ldb d a s z => some (.ofNat 32 (0x71000000 + d.toNat * 0x10000 + a.toNat * 0x100 + s.toNat * 0x4 + z.toNat))
  | .st z a b => some (.ofNat 32 (0x72000000 + z.toNat * 0x10000 + a.toNat * 0x100 + b.toNat))
  | .stb z a b => some (.ofNat 32 (0x73000000 + z.toNat * 0x10000 + a.toNat * 0x100 + b.toNat))
  | .ldm d a n => some (.ofNat 32 (0x74000000 + d.toNat * 0x10000 + a.toNat * 0x100 + n.toNat))
  | .stm n a b => some (.ofNat 32 (0x75000000 + n.toNat * 0x10000 + a.toNat * 0x100 + b.toNat))
  | .pref a => some (.ofNat 32 (0x76000000 + a.toNat * 0x100))
  | .chain d a => some (.ofNat 32 (0x77000000 + d.toNat * 0x10000 + a.toNat * 0x100))
  | .pin a => some (.ofNat 32 (0x78000000 + a.toNat * 0x100))
  | .unpin a => some (.ofNat 32 (0x79000000 + a.toNat * 0x100))
  | .lotwb a => some (.ofNat 32 (0x7A000000 + a.toNat * 0x100))
  | .lotdrop a => some (.ofNat 32 (0x7B000000 + a.toNat * 0x100))
  | .pgq d a k => some (.ofNat 32 (0x7C000000 + d.toNat * 0x10000 + a.toNat * 0x100 + k.toNat))
  | .tlbinv k a b => some (.ofNat 32 (0x7D000000 + k.toNat * 0x10000 + a.toNat * 0x100 + b.toNat))
  | .tlbsync => some (.ofNat 32 (0x7E000000))
  | .bar k => some (.ofNat 32 (0x80000000 + k.toNat * 0x10000))
  | .barar k => some (.ofNat 32 (0x81000000 + k.toNat * 0x10000))
  | .bararArm k a => some (.ofNat 32 (0x81000001 + k.toNat * 0x10000 + a.toNat * 0x100))
  | .barw k => some (.ofNat 32 (0x82000000 + k.toNat * 0x10000))
  | .barst d k => some (.ofNat 32 (0x83000000 + d.toNat * 0x10000 + k.toNat * 0x100))
  | .gbar g => some (.ofNat 32 (0x84000000 + g.toNat * 0x10000))
  | .fwait m => some (.ofNat 32 (0x85000000 + m.toNat))
  | .twait c a => some (.ofNat 32 (0x86000000 + c.toNat * 0x10000 + a.toNat * 0x100))
  | .tget d c => some (.ofNat 32 (0x87000000 + d.toNat * 0x10000 + c.toNat))
  | .fence s => some (.ofNat 32 (0x88000000 + s.toNat * 0x10000))
  | .atom o s r a x => some (.ofNat 32 (0x89000000 + o.toNat * 0x200000 + s.toNat * 0x40000 + r.toNat * 0x10000 + a.toNat * 0x100 + x.toNat))
  | .atomn o s r a x => some (.ofNat 32 (0x8A000000 + o.toNat * 0x200000 + s.toNat * 0x40000 + r.toNat * 0x10000 + a.toNat * 0x100 + x.toNat))
  | .cas s r a x => some (.ofNat 32 (0x8B000000 + s.toNat * 0x40000 + r.toNat * 0x10000 + a.toNat * 0x100 + x.toNat))
  | .atomsc o a x => some (.ofNat 32 (0x8C000000 + o.toNat * 0x200000 + a.toNat * 0x100 + x.toNat))
  | .lda d a z s => some (.ofNat 32 (0x8D000000 + d.toNat * 0x10000 + a.toNat * 0x100 + z.toNat * 0x8 + s.toNat))
  | .stl z s a b => some (.ofNat 32 (0x8E000000 + z.toNat * 0x80000 + s.toNat * 0x10000 + a.toNat * 0x100 + b.toNat))
  | .ldar d a z s => some (.ofNat 32 (0x8F000000 + d.toNat * 0x10000 + a.toNat * 0x100 + z.toNat * 0x8 + s.toNat))
  | .mon a => some (.ofNat 32 (0x90000000 + a.toNat * 0x100))
  | .mwait a => some (.ofNat 32 (0x91000000 + a.toNat * 0x100))
  | .cpy d t s => some (.ofNat 32 (0xA0000000 + d.toNat * 0x10000 + t.toNat * 0x1000 + s.toNat * 0x100))
  | .cpym d t s g => some (.ofNat 32 (0xA1000000 + d.toNat * 0x10000 + t.toNat * 0x1000 + s.toNat * 0x100 + g.toNat))
  | .cpyq d a => some (.ofNat 32 (0xA2000000 + d.toNat * 0x10000 + a.toNat * 0x100))
  | .sleepu a q => some (.ofNat 32 (0xA3000000 + a.toNat * 0x100 + q.toNat))
  | .fixqRetry a b => some (.ofNat 32 (0xA4000000 + a.toNat * 0x100 + b.toNat))
  | .fixqFail a b => some (.ofNat 32 (0xA4010000 + a.toNat * 0x100 + b.toNat))
  | .shld s a => some (.ofNat 32 (0xA5000000 + s.toNat * 0x10000 + a.toNat * 0x100))
  | .shset w s a => some (.ofNat 32 (0xA6000000 + w.toNat * 0x100000 + s.toNat * 0x10000 + a.toNat * 0x100))
  | .shst s a => some (.ofNat 32 (0xA7000000 + s.toNat * 0x10000 + a.toNat * 0x100))
  | .mgo d a b => some (.ofNat 32 (0xA8000000 + d.toNat * 0x10000 + a.toNat * 0x100 + b.toNat))
  | .mq d => some (.ofNat 32 (0xA9000000 + d.toNat * 0x10000))
  | .mres d a => some (.ofNat 32 (0xAA000000 + d.toNat * 0x10000 + a.toNat * 0x100))
  | .mabort d a => some (.ofNat 32 (0xAB000000 + d.toNat * 0x10000 + a.toNat * 0x100))
  | .zlen l => some (.ofNat 32 (0xB0000000 + l.toNat))
  | .zseed c a => some (.ofNat 32 (0xB1000000 + c.toNat * 0x10000 + a.toNat * 0x100))
  | .zenc d a p c => some (.ofNat 32 (0xB2000000 + d.toNat * 0x10000 + a.toNat * 0x100 + p.toNat * 0x80 + c.toNat))
  | .zdec d a p => some (.ofNat 32 (0xB3000000 + d.toNat * 0x10000 + a.toNat * 0x100 + p.toNat * 0x80))
  | .zand d a r b => some (.ofNat 32 (0xB4000000 + d.toNat * 0x10000 + a.toNat * 0x100 + r.toNat * 0x80 + b.toNat))
  | .zxnor d a r b => some (.ofNat 32 (0xB5000000 + d.toNat * 0x10000 + a.toNat * 0x100 + r.toNat * 0x80 + b.toNat))
  | .zmin d a r b => some (.ofNat 32 (0xB6000000 + d.toNat * 0x10000 + a.toNat * 0x100 + r.toNat * 0x80 + b.toNat))
  | .zmux d a b s => some (.ofNat 32 (0xB7000000 + d.toNat * 0x40000 + a.toNat * 0x1000 + b.toNat * 0x40 + s.toNat))
  | .zcnt d a => some (.ofNat 32 (0xB8000000 + d.toNat * 0x10000 + a.toNat * 0x100))
  | .zdot d k a b => some (.ofNat 32 (0xB9000000 + d.toNat * 0x10000 + k.toNat * 0x8000 + a.toNat * 0x100 + b.toNat))
  | .zregen d a c => some (.ofNat 32 (0xBA000000 + d.toNat * 0x10000 + a.toNat * 0x100 + c.toNat))
  | .zcls d a => some (.ofNat 32 (0xBB000000 + d.toNat * 0x10000 + a.toNat * 0x100))
  | .ztop d a k => some (.ofNat 32 (0xBC000000 + d.toNat * 0x10000 + a.toNat * 0x100 + k.toNat))
  | .gcall a => some (.ofNat 32 (0xC0000000 + a.toNat * 0x100))
  | .gret => some (.ofNat 32 (0xC1000000))
  | .didqSelf d => some (.ofNat 32 (0xC2000000 + d.toNat * 0x10000))
  | .didqDpr d a => some (.ofNat 32 (0xC2000001 + d.toNat * 0x10000 + a.toNat * 0x100))
  | .didqGate d => some (.ofNat 32 (0xC2000002 + d.toNat * 0x10000))
  | .dpsetDpr t a i => some (.ofNat 32 (0xC3000000 + t.toNat * 0x10000 + a.toNat * 0x100 + i.toNat))
  | .dpsetSub t a i => some (.ofNat 32 (0xC3000040 + t.toNat * 0x10000 + a.toNat * 0x100 + i.toNat))
  | .dpsetSeal t a i => some (.ofNat 32 (0xC3000080 + t.toNat * 0x10000 + a.toNat * 0x100 + i.toNat))
  | .syscall x a => some (.ofNat 32 (0xC8000000 + x.toNat * 0x10000 + a.toNat * 0x100))
  | .trap c => some (.ofNat 32 (0xC9000000 + c.toNat))
  | .tret k => some (.ofNat 32 (0xCA000000 + k.toNat))
  | .brk c => some (.ofNat 32 (0xCB000000 + c.toNat))
  | .ctxsv d a => some (.ofNat 32 (0xCC000000 + d.toNat * 0x10000 + a.toNat * 0x100))
  | .ctxld a => some (.ofNat 32 (0xCD000000 + a.toNat * 0x100))
  | .sigchk i => some (.ofNat 32 (0xD0000000 + i.toNat))
  | .sigrd d => some (.ofNat 32 (0xD1000000 + d.toNat * 0x10000))
  | .sigset a => some (.ofNat 32 (0xD2000000 + a.toNat * 0x100))
  | .errq d a c => some (.ofNat 32 (0xD3000000 + d.toNat * 0x10000 + a.toNat * 0x100 + c.toNat))
  | .mta i n => some (.ofNat 32 (0x01000000 + i.toNat * 0x100000 + n.toNat * 0x10000))
  | .mbind r u => some (.ofNat 32 (0x02000000 + r.toNat * 0x200000 + u.toNat))
  | .mmul e b j k => some (.ofNat 32 (0x03000000 + e.toNat * 0x800000 + b.toNat * 0x80000 + j.toNat * 0x10000 + k.toNat))
  | .mzero e b j => some (.ofNat 32 (0x04000000 + e.toNat * 0x800000 + b.toNat * 0x80000 + j.toNat * 0x10000))
  | .mout e b j r f p => some (.ofNat 32 (0x05000000 + e.toNat * 0x800000 + b.toNat * 0x80000 + j.toNat * 0x10000 + r.toNat * 0x2000 + f.toNat * 0x400 + p.toNat))
  | .mscl k i r => some (.ofNat 32 (0x06000000 + k.toNat * 0x400000 + i.toNat * 0x40000 + r.toNat * 0x8000))
  | .mfmt a b r s => some (.ofNat 32 (0x07000000 + a.toNat * 0x200000 + b.toNat * 0x40000 + r.toNat * 0x8000 + s.toNat * 0x4000))
  | .mloop s r n => some (.ofNat 32 (0x08000000 + s.toNat * 0x800000 + r.toNat * 0x100000 + n.toNat))
  | .mendl => some (.ofNat 32 (0x09000000))
  | .marr k => some (.ofNat 32 (0x0A000000 + k.toNat * 0x100000))
  | .mwb k => some (.ofNat 32 (0x0B000000 + k.toNat * 0x100000))
  | .mjmp o => some (.ofNat 32 (0x0C000000 + o.toNat))
  | .mstop => some (.ofNat 32 (0x0D000000))
  | .mtrn e b i r => some (.ofNat 32 (0x0E000000 + e.toNat * 0x800000 + b.toNat * 0x80000 + i.toNat * 0x8000 + r.toNat * 0x1000))
  | .maddt e b j i => some (.ofNat 32 (0x0F000000 + e.toNat * 0x800000 + b.toNat * 0x80000 + j.toNat * 0x10000 + i.toNat * 0x1000))
  | .mmax e b j r => some (.ofNat 32 (0x10000000 + e.toNat * 0x800000 + b.toNat * 0x80000 + j.toNat * 0x10000 + r.toNat * 0x2000))
  | .mset r o i => some (.ofNat 32 (0x11000000 + r.toNat * 0x200000 + o.toNat * 0x80000 + i.toNat))
  | .clauseFetch => none
  | .fragmentRefill _ => none
  | .fragmentExchange _ => none
  | .yieldRelease _ => none
  | .strandReclaim _ => none
  | .blockEnd _ => none
  | .allotmentClear _ => none
  | .growthGrant _ _ => none
  | .growthRelief _ _ => none
  | .spilledStrandRefill _ => none
  | .transcendentalComplete _ => none
  | .localAccessComplete _ => none
  | .gangWindowArrival _ => none
  | .xsendAccept _ => none
  | .edgeEntryArrival _ => none
  | .tagSlot _ _ => none
  | .lotMotionEnd _ _ => none
  | .frontLanding _ _ _ => none
  | .gateLanding _ _ _ => none
  | .missFillArrival _ _ => none
  | .missRetry _ _ => none
  | .writeAcknowledge _ _ => none
  | .remoteReplyArrival _ _ => none
  | .lotRecall _ _ => none
  | .tlbWalkComplete _ => none
  | .tlbinvComplete _ => none
  | .scannerJob _ => none
  | .scannerFlashDone _ => none
  | .scannerFlashFail _ => none
  | .peerGone _ _ => none
  | .peerStoreAck _ => none
  | .peerAccess _ _ _ _ => none
  | .logicalClockTick _ => none
  | .leaseSweep _ => none
  | .promotionRequest _ _ => none
  | .promotionAnswer _ => none
  | .atomscTicket _ => none
  | .barrierWatchdogExpiry _ _ => none
  | .twaitTimeout _ _ => none
  | .mwaitExpiry _ _ => none
  | .mwbTimeout _ => none
  | .copySegment _ _ _ => none
  | .fixupReplay _ _ => none
  | .scannerHoldRetry _ _ _ => none
  | .multicastDeposit _ => none
  | .promiseDue _ _ => none
  | .arraySlotGrant _ => none
  | .seqStreamStart _ => none
  | .seqFetch _ => none
  | .stochasticSlotGrant _ => none
  | .stochasticRequestComplete _ => none
  | .dpsetEffect _ => none
  | .trapTaken _ => none
  | .gangRelaunch _ => none
  | .sliceExpiry _ _ => none
  | .preemptionDone _ _ => none
  | .syscallAppend _ _ => none
  | .serviceReply _ _ => none
  | .collectiveComplete _ _ _ => none
  | .notifyWrite _ _ => none
  | .packetAccept _ => none
  | .launchStart _ => none
  | .placementReserve _ _ _ => none
  | .placementCommit _ _ => none
  | .placementRetry _ => none
  | .pinRelease _ => none
  | .launchComplete _ => none
  | .heldEventWrite => none
  | .haltStrand _ => none
  | .releaseStrand _ => none
  | .resumeStrand _ => none
  | .killGang _ => none
  | .preemptSlot _ => none
  | .resumeSavedGang _ _ => none
  | .takeCoreOutOfService _ => none
  | .abortQueue _ => none
  | .checkpoint _ => none
  | .attest _ => none
  | .refusedCommand _ _ => none
  | .controlRegisterWrite _ _ => none
  | .hostAccess _ _ => none
  | .hartAccess _ _ _ _ _ => none
  | .tractTeardown _ => none
  | .teardownReport _ => none
  | .patrolScrub _ _ => none
  | .busBeatError _ _ _ _ => none
  | .sensorSample _ _ _ _ _ => none
  | .powerHoldStep _ _ => none
  | .thermalStop _ _ => none
  | .packageReset => none
  | .packageBoot _ _ => none
  | .recoveryImageWrite _ => none
  | .bypassLoadDelivery _ _ => none
  | .checkpointWritesComplete => none

/-- The words of a sequencer's stream (R15, R40). -/
def Instr.isSequencer (i : Instr) : Bool :=
  match i with
  | .mta .. | .mbind .. | .mmul .. | .mzero .. | .mout .. | .mscl .. | .mfmt .. | .mloop .. | .mendl .. | .marr .. | .mwb .. | .mjmp ..
  | .mstop .. | .mtrn .. | .maddt .. | .mmax .. | .mset .. => true
  | _ => false

/-- The opcode of a word. -/
def opcodeOf (w : Word) : Nat := fld w.toNat 31 24

/-- The long-latency words, marked † in R34. -/
def longOp (op : Nat) : Bool := (0x3A ≤ op && op ≤ 0x40) || (0x68 ≤ op && op ≤ 0x6B) || (0x6E ≤ op && op ≤ 0x7D) || (0x89 ≤ op && op ≤ 0x90) || (0xA0 ≤ op && op ≤ 0xA2) || (0xA4 ≤ op && op ≤ 0xA5) || (0xA7 ≤ op && op ≤ 0xAB) || (0xB2 ≤ op && op ≤ 0xBA) || op == 0xBC || (0xCC ≤ op && op ≤ 0xCD)

/-- The holding words, marked ‡ in R34. -/
def holdingOp (op : Nat) : Bool := op == 0x58 || op == 0x7E || op == 0x80 || op == 0x82 || (0x84 ≤ op && op ≤ 0x86) || op == 0x88 || op == 0x91 || op == 0xA3 || op == 0xC8

/-- Whether a word carries the mark of a clause header (R23). -/
def isHeader (w : Word) : Bool := fld w.toNat 31 27 == 31

/-- R78: the either words; every other assigned code is a pipe-1 word. -/
def eitherOp (op : Nat) : Bool := op == 0x0F || (0x10 ≤ op && op ≤ 0x67)

/-- R38: the words whose active mask is the whole mask of the fragment: the words of R86 (the control words), `vgrow`
and `vshrink`, the barrier arrival and wait words, the words of R408, the words of R433 and `sigchk`. -/
def wholeMaskOp (op : Nat) : Bool :=
  op ≤ 0x0F || op == 0x58 || op == 0x59 || (0x80 ≤ op && op ≤ 0x82) || op == 0x84 ||
  (0xC0 ≤ op && op ≤ 0xC3) || (0xC8 ≤ op && op ≤ 0xCD) || op == 0xD0

/-- The instruction of a table word of `nbits` bits: a strand word where the strand decoder accepts it, else a sequencer
word.  The two streams have separate opcode spaces (02), so a word may be legal in both. -/
def decodeTableWord (nbits w : Nat) : Option Instr :=
  if nbits = 32 then
    match decode (.ofNat 32 w) with
    | .ok i => some i
    | .bad _ =>
      match decodeSeq (.ofNat 32 w) with
      | .ok i => some i
      | .bad _ => none
  else none

end Sys2Proof
end

