-- ==== Sys2Proof/Machine/Float.lean ====
section
/-!
DEFINITION. Exact values, the formats of 03 and the one rounding of R47, R48 and R49.
-/
namespace Sys2Proof.Machine

/-- Signed reading of the low `w` bits of `n`. -/
def toSigned (w n : Nat) : Int :=
  let x := n % 2 ^ w
  if x < 2 ^ (w - 1) then (x : Int) else (x : Int) - (2 ^ w : Nat)

/-- The low `w` bits of an integer. -/
def ofInt (w : Nat) (x : Int) : Nat := (x % ((2 ^ w : Nat) : Int)).toNat

/-- The number of significant bits. -/
def bitLen (n : Nat) : Nat := if n = 0 then 0 else Nat.log2 n + 1

/-- An exact value.  `fin neg m e sticky` is ±(m + ε)·2^e, where 0 < ε < 1 if `sticky` holds and ε = 0 otherwise. -/
inductive Exact where
  | nan
  | inf (neg : Bool)
  | fin (neg : Bool) (m : Nat) (e : Int) (sticky : Bool)
  deriving DecidableEq, Repr

/-- A zero of a sign. -/
def Exact.zero (neg : Bool) : Exact := .fin neg 0 0 false
/-- An integer. -/
def Exact.int (x : Int) : Exact := .fin (decide (x < 0)) x.natAbs 0 false

/-- A floating format or narrow format (R43, R52, R56): exponent and fraction widths, bias, whether it has a sign, how
it uses its top codes (0 IEEE-like, 1 NaN only at the all-ones magnitude, 2 none), and whether MODE.SAT acts on it. -/
structure Fmt where
  exp      : Nat
  man      : Nat
  bias     : Int
  signed   : Bool
  specials : Nat
  narrow   : Bool
  deriving DecidableEq, Repr

def Fmt.f16  : Fmt := ⟨5, 10, 15, true, 0, false⟩
def Fmt.bf16 : Fmt := ⟨8, 7, 127, true, 0, false⟩
def Fmt.f32  : Fmt := ⟨8, 23, 127, true, 0, false⟩
def Fmt.f64  : Fmt := ⟨11, 52, 1023, true, 0, false⟩
/-- R56. -/
def Fmt.f32x : Fmt := ⟨10, 23, 511, true, 0, false⟩

/-- The unsigned 8-bit fixed-point descriptor of R53. -/
def qIsU8 (q : Word) : Bool := q.toNat % 2 == 0 && q.toNat / 2 % 8 == 0 && q.toNat / 16 % 8 == 0

/-- The format a q register describes (R52). -/
def Fmt.ofQ (q : Word) : Fmt :=
  let n := q.toNat
  ⟨n / 2 % 8, n / 16 % 8, toSigned 8 (n / 256), n % 2 == 1, n / 65536 % 4, true⟩

/-- The width W of a q register's format (R53). -/
def qWidth (q : Word) : Nat :=
  if qIsU8 q then 8 else q.toNat % 2 + q.toNat / 2 % 8 + q.toNat / 16 % 8

/-- SCALE of a q register. -/
def qScale (q : Word) : Nat := q.toNat / 262144 % 4

/-- R53: a descriptor is valid. -/
def qValid (q : Word) : Bool :=
  let n := q.toNat
  let f := Fmt.ofQ q
  let w := qWidth q
  n / 1048576 == 0 && n / 128 % 2 == 0 && f.specials != 3 && decide (1 ≤ w) && decide (w ≤ 8) &&
  (f.exp != 0 || f.specials == 2) &&
  (f.specials != 0 || decide (1 ≤ f.man)) &&
  (f.specials != 1 || decide (2 ≤ f.exp + f.man)) &&
  (if f.exp = 0 then
      decide ((if qIsU8 q then (8 : Int) else (f.man : Int)) - f.bias ≤ 127)
    else if f.specials = 0 then decide (((2 ^ f.exp : Nat) : Int) - 2 - f.bias ≤ 127)
    else decide (((2 ^ f.exp : Nat) : Int) - 1 - f.bias ≤ 127))

/-- The width of a format's codes. -/
def Fmt.width (f : Fmt) : Nat := (if f.signed then 1 else 0) + f.exp + f.man

/-- The exponent of the lowest bit of the format's smallest binade. -/
def Fmt.emin (f : Fmt) : Int := 1 - f.bias - f.man

/-- The magnitude code of the largest finite value. -/
def Fmt.maxCode (f : Fmt) : Nat :=
  if f.specials = 0 then (2 ^ f.exp - 1) * 2 ^ f.man - 1
  else if f.specials = 1 then 2 ^ (f.exp + f.man) - 2
  else 2 ^ (f.exp + f.man) - 1

/-- The magnitude of a finite code, as significand and exponent (R54). -/
def Fmt.codeMag (f : Fmt) (c : Nat) : Nat × Int :=
  let e := c / 2 ^ f.man
  let m := c % 2 ^ f.man
  if e = 0 then (m, f.emin) else (2 ^ f.man + m, f.emin + (e - 1 : Nat))

/-- The value of a floating code (R43, R54, R56). -/
def Fmt.decode (f : Fmt) (bits : Nat) : Exact :=
  let neg := f.signed && bits / 2 ^ (f.exp + f.man) % 2 == 1
  let c := bits % 2 ^ (f.exp + f.man)
  let e := c / 2 ^ f.man
  let m := c % 2 ^ f.man
  if f.specials = 0 && e == 2 ^ f.exp - 1 then (if m = 0 then .inf neg else .nan)
  else if f.specials = 1 && c == 2 ^ (f.exp + f.man) - 1 then .nan
  else let (m', e') := f.codeMag c; .fin neg m' e' false

/-- The canonical NaN code (R45, R48). -/
def Fmt.nanCode (f : Fmt) : Nat :=
  if f.specials = 0 then (2 ^ f.exp - 1) * 2 ^ f.man + (if f.man = 0 then 0 else 2 ^ (f.man - 1))
  else if f.specials = 1 then 2 ^ (f.exp + f.man) - 1
  else 0

/-- A magnitude code with a sign. -/
def Fmt.withSign (f : Fmt) (neg : Bool) (c : Nat) : Nat :=
  if neg && f.signed then 2 ^ (f.exp + f.man) + c else c

def Fmt.infCode (f : Fmt) : Nat := (2 ^ f.exp - 1) * 2 ^ f.man

/-- R47, R49: the significand of ±(m + ε)·2^e on the grid 2^q.  `rnd` is MODE.RND and `draw` the 24-bit draw.  A tie between two
values of a narrow format with MAN 0 goes to the larger magnitude (log entry 62). -/
def roundGrid (rnd : Nat) (neg : Bool) (m : Nat) (e : Int) (sticky : Bool) (q : Int) (draw : Nat) : Nat :=
  if q ≤ e then m * 2 ^ (e - q).toNat
  else
    let sh := (q - e).toNat
    let lo := m / 2 ^ sh
    let rem := m % 2 ^ sh
    let half := 2 ^ (sh - 1)
    let inexact := rem != 0 || sticky
    let up :=
      match rnd with
      | 0 => decide (rem > half) || (rem == half && (sticky || lo % 2 == 1))
      | 1 => false
      | 2 => inexact && !neg
      | 3 => inexact && neg
      | 4 => decide (rem ≥ half)
      | _ => inexact && decide (rem * 16777216 / 2 ^ sh > draw)
    if up then lo + 1 else lo

/-- Whether m₁·2^e₁ exceeds m₂·2^e₂. -/
def magGt (m₁ : Nat) (e₁ : Int) (m₂ : Nat) (e₂ : Int) : Bool :=
  if e₁ ≥ e₂ then decide (m₁ * 2 ^ (e₁ - e₂).toNat > m₂) else decide (m₁ > m₂ * 2 ^ (e₂ - e₁).toNat)

/-- R48, "IEEE": the overflow result of a mode, whether it is infinite. -/
def overflowInf (rnd : Nat) (neg : Bool) : Bool :=
  match rnd with
  | 1 => false
  | 2 => !neg
  | 3 => neg
  | _ => true

/-- R48: the overflow result of a format, as a code. -/
def Fmt.overflow (f : Fmt) (rnd : Nat) (sat : Bool) (neg : Bool) : Nat :=
  let max := f.withSign neg f.maxCode
  if f.narrow && sat then max
  else
    match f.specials with
    | 0 => if overflowInf rnd neg then f.withSign neg f.infCode else max
    | 1 => f.nanCode
    | _ => max

/-- R47, R48: an exact value into a floating format.  A tie at max + half ulp goes to the even neighbour (DESIGN CHOICE, log entry 62). -/
def Fmt.round (f : Fmt) (rnd : Nat) (sat : Bool) (draw : Nat) (x : Exact) : Nat :=
  match x with
  | .nan => f.nanCode
  | .inf neg =>
    if neg && !f.signed then 0
    else if f.narrow && sat then f.withSign neg f.maxCode
    else
      match f.specials with
      | 0 => f.withSign neg f.infCode
      | 1 => f.nanCode
      | _ => f.withSign neg f.maxCode
  | .fin neg m e sticky =>
    if neg && !f.signed then 0
    else
      let q := if m = 0 then f.emin else max f.emin (e + (bitLen m : Int) - ((f.man + 1 : Nat) : Int))
      let r := roundGrid rnd neg m e sticky q draw
      let (mm, me) := f.codeMag f.maxCode
      if magGt r q mm me then f.overflow rnd sat neg
      else f.withSign neg ((q - f.emin).toNat * 2 ^ f.man + r)

/-- R48: an exact value to an integer of `w` bits, clamped: the largest or smallest on overflow or infinity, 0 for NaN. -/
def roundInt (w : Nat) (signed : Bool) (rnd draw : Nat) (x : Exact) : Int :=
  let hi : Int := if signed then (2 ^ (w - 1) : Nat) - 1 else (2 ^ w : Nat) - 1
  let lo : Int := if signed then -((2 ^ (w - 1) : Nat) : Int) else 0
  match x with
  | .nan => 0
  | .inf neg => if neg then lo else hi
  | .fin neg m e sticky =>
    let r := roundGrid rnd neg m e sticky 0 draw
    let v : Int := if neg then -(r : Int) else r
    if v > hi then hi else if v < lo then lo else v

/-- The value of a narrow element (R54). -/
def narrowValue (q : Word) (bits : Nat) : Exact :=
  let f := Fmt.ofQ q
  let w := qWidth q
  let b := bits % 2 ^ w
  if f.exp = 0 then
    let n : Int := if f.signed then toSigned w b else b
    .fin (decide (n < 0)) n.natAbs (-f.bias) false
  else f.decode b

/-- An exact value into a narrow format (R47, R48, R54), as a code of its width. -/
def narrowRound (q : Word) (rnd : Nat) (sat : Bool) (draw : Nat) (x : Exact) : Nat :=
  let f := Fmt.ofQ q
  let w := qWidth q
  if f.exp = 0 then
    let y := match x with
      | .fin neg m e s => Exact.fin neg m (e + f.bias) s
      | y => y
    ofInt w (roundInt w f.signed rnd draw y)
  else f.round rnd sat draw x

/-- Negation. -/
def Exact.neg : Exact → Exact
  | .nan => .nan
  | .inf n => .inf (!n)
  | .fin n m e s => .fin (!n) m e s

/-- The exact product; NaN for ∞ × 0. -/
def Exact.mul : Exact → Exact → Exact
  | .nan, _ => .nan
  | _, .nan => .nan
  | .inf a, .inf b => .inf (a != b)
  | .inf a, .fin b m _ _ => if m = 0 then .nan else .inf (a != b)
  | .fin a m _ _, .inf b => if m = 0 then .nan else .inf (a != b)
  | .fin a m e _, .fin b m' e' _ => .fin (a != b) (m * m') (e + e') false

/-- The exact sum; an exact zero of unlike signs is −0 only if `rdn` (R143). -/
def Exact.add (rdn : Bool) : Exact → Exact → Exact
  | .nan, _ => .nan
  | _, .nan => .nan
  | .inf a, .inf b => if a = b then .inf a else .nan
  | .inf a, .fin _ _ _ _ => .inf a
  | .fin _ _ _ _, .inf b => .inf b
  | .fin a m e _, .fin b m' e' _ =>
    let q := min e e'
    let x : Int := (m * 2 ^ (e - q).toNat : Nat)
    let y : Int := (m' * 2 ^ (e' - q).toNat : Nat)
    let s := (if a then -x else x) + (if b then -y else y)
    if s = 0 then
      if m = 0 && m' == 0 && a == b then .zero a else .zero rdn
    else .fin (decide (s < 0)) s.natAbs q false

/-- The value times 2^n; exponents are cut where every format has long overflowed or vanished. -/
def Exact.scale (x : Exact) (n : Int) : Exact :=
  match x with
  | .fin neg m e s => .fin neg m (e + max (-8000) (min 8000 n)) s
  | y => y

/-- The total order of R144 on numbers, −0 below +0: whether x lies below y. -/
def Exact.lt : Exact → Exact → Bool
  | .inf a, .inf b => a && !b
  | .inf a, .fin _ _ _ _ => a
  | .fin _ _ _ _, .inf b => !b
  | .fin a m e _, .fin b m' e' _ =>
    if m = 0 && m' == 0 then a && !b
    else if m = 0 then !b
    else if m' = 0 then a
    else if a && !b then true
    else if b && !a then false
    else if a then magGt m e m' e' else magGt m' e' m e
  | _, _ => false

/-- Equality of numbers, −0 equal to +0. -/
def Exact.eqv : Exact → Exact → Bool
  | .inf a, .inf b => a == b
  | .fin a m e _, .fin b m' e' _ =>
    if m = 0 || m' == 0 then m == 0 && m' == 0
    else a == b && !magGt m e m' e' && !magGt m' e' m e
  | _, _ => false

/-- R143: rounding to an integral value, keeping the sign. -/
def Exact.integral (rnd draw : Nat) : Exact → Exact
  | .fin neg m e s => if e ≥ 0 then .fin neg m e s else .fin neg (roundGrid rnd neg m e s 0 draw) 0 false
  | x => x

/-- R49: one step of a generator state. -/
def srStep (x : Word) : Word :=
  let x := x ^^^ (x <<< 13)
  let x := x ^^^ (x >>> 17)
  x ^^^ (x <<< 5)

/-- R49: the 24-bit draw of a stepped state. -/
def srDraw (x : Word) : Nat := (srStep x).toNat / 256

end Sys2Proof.Machine
end

