-- ==== Sys2Proof/Machine/Elements.lean ====
section
/-!
DEFINITION. The element types of the lanes (03 R43) and the splitting of a register into its elements.  A register, or a
pair, of one lane is a natural number below 2^32 or 2^64.
-/
namespace Sys2Proof.Machine

/-- The width of one element of a TYPE. -/
def typeWidth (t : Nat) : Nat :=
  match t with
  | 0 | 1 | 8 => 32
  | 2 | 3 | 9 | 10 => 16
  | 4 | 5 => 8
  | _ => 64

/-- A 64-bit TYPE, whose values stand in pairs (R43, R128). -/
def type64 (t : Nat) : Bool := t == 6 || t == 7 || t == 11
/-- A signed integer TYPE (R128). -/
def typeSigned (t : Nat) : Bool := t == 0 || t == 2 || t == 4 || t == 6
/-- The format of a float TYPE. -/
def typeFmt (t : Nat) : Fmt :=
  match t with
  | 8 => .f32
  | 9 => .f16
  | 10 => .bf16
  | _ => .f64
def typeFloat (t : Nat) : Bool := 8 ≤ t && t ≤ 11
/-- Elements in a register or pair. -/
def typeCount (t : Nat) : Nat := if type64 t then 1 else 32 / typeWidth t

/-- Element `i` of width `w`. -/
def elem (w x i : Nat) : Nat := x / 2 ^ (w * i) % 2 ^ w

/-- A register whose element `i` is `f i`. -/
def ofElems (w n : Nat) (f : Nat → Nat) : Nat :=
  (List.range n).foldl (fun acc i => acc + f i % 2 ^ w * 2 ^ (w * i)) 0

/-- Applies `f` to each element of two registers. -/
def mapElems2 (t : Nat) (f : Nat → Nat → Nat) (a b : Nat) : Nat :=
  let w := typeWidth t
  ofElems w (typeCount t) (fun i => f (elem w a i) (elem w b i))

/-- Applies `f` to each element of three registers. -/
def mapElems3 (t : Nat) (f : Nat → Nat → Nat → Nat) (a b d : Nat) : Nat :=
  let w := typeWidth t
  ofElems w (typeCount t) (fun i => f (elem w a i) (elem w b i) (elem w d i))

def mapElems1 (t : Nat) (f : Nat → Nat) (a : Nat) : Nat := mapElems2 t (fun x _ => f x) a 0

/-- An element read as a signed or unsigned integer. -/
def elemInt (signed : Bool) (w x : Nat) : Int := if signed then toSigned w x else (x % 2 ^ w : Nat)

/-- R136: int_fit. -/
def intFit (sat signed : Bool) (w : Nat) (x : Int) : Nat :=
  if !sat then ofInt w x
  else
    let lo : Int := if signed then -((2 ^ (w - 1) : Nat) : Int) else 0
    let hi : Int := if signed then ((2 ^ (w - 1) : Nat) : Int) - 1 else ((2 ^ w : Nat) : Int) - 1
    ofInt w (min (max x lo) hi)

/-- The value of an integer constant of a code in every element of a TYPE (R20): `#n` and `lid`. -/
def constElems (t : Nat) (n : Int) : Nat :=
  let w := typeWidth t
  let x := if typeFloat t then (typeFmt t).round 0 false 0 (.int n) else ofInt w n
  ofElems w (typeCount t) (fun _ => x)

/-- Rounds `x i` into each element `i` in ascending order under RND, taking one draw an element from the lane's
generator when RND is 5 (R49, R50): the register and the generator's new state. -/
def roundElems (w n : Nat) (round : Nat → Exact → Nat) (rnd : Nat) (st : Word) (x : Nat → Word → Exact) :
    Nat × Word :=
  (List.range n).foldl
    (fun p i =>
      let s := p.2
      (p.1 + round (srDraw s) (x i s) % 2 ^ w * 2 ^ (w * i), if rnd = 5 then srStep s else s))
    (0, st)

end Sys2Proof.Machine
end

