-- ==== Sys2Proof/Machine/Flags.lean ====
section
/-!
DEFINITION. What predicates record: the conditions of R22 on integers and floats, and the carries of R137.
-/
namespace Sys2Proof.Machine

/-- R22, `icmp`: conditions 0 to 5; `none` for a condition that `icmp` does not have. -/
def icmpCond (c : Nat) (a b : Int) : Option Bool :=
  match c with
  | 0 => some (decide (a = b))
  | 1 => some (decide (a ≠ b))
  | 2 => some (decide (a < b))
  | 3 => some (decide (a ≤ b))
  | 4 => some (decide (a > b))
  | 5 => some (decide (a ≥ b))
  | _ => none

/-- R22, R149: `fcmp`; −0 equals +0 and a NaN of either kind is unordered. -/
def fcmpCond (c : Nat) (a b : Exact) : Option Bool :=
  let uno := a == .nan || b == .nan
  let eq := Exact.eqv a b
  let lt := !eq && Exact.lt a b
  let gt := !eq && Exact.lt b a
  match c with
  | 0 => some (!uno && eq)
  | 1 => some (!uno && !eq)
  | 2 => some (!uno && lt)
  | 3 => some (!uno && (lt || eq))
  | 4 => some (!uno && gt)
  | 5 => some (!uno && (gt || eq))
  | 6 => some (!uno)
  | 7 => some uno
  | 8 => some (uno || eq)
  | 9 => some (uno || !eq)
  | 10 => some (uno || lt)
  | 11 => some (uno || lt || eq)
  | 12 => some (uno || gt)
  | 13 => some (uno || gt || eq)
  | _ => none

/-- Whether a compare condition code is one the word has (R22). -/
def condOk (float : Bool) (c : Nat) : Bool := if float then decide (c < 14) else decide (c < 6)

/-- R137: the carry out of A + B + c. -/
def addCarry (w a b : Nat) (c : Bool) : Nat × Bool :=
  let x := a % 2 ^ w + b % 2 ^ w + (if c then 1 else 0)
  (x % 2 ^ w, decide (x ≥ 2 ^ w))

/-- R137: the borrow out of A − B − c. -/
def subBorrow (w a b : Nat) (c : Bool) : Nat × Bool :=
  let x : Int := (a % 2 ^ w : Nat) - (b % 2 ^ w : Nat) - (if c then 1 else 0)
  (ofInt w x, decide (x < 0))

end Sys2Proof.Machine
end

