-- ==== Sys2Proof/Machine/Transcend.lean ====
section
/-!
DEFINITION. The exact values of the transcendental words (05 R148), as significands long enough for every rounding of
R47 and R49.  `frcp`, `frsq` and `fsqrt` come from exact division and square root of integers.  `fex2`, `flg2`, `fsin`
and `fcos` come from series in fixed-point integers with an error bound; the precision doubles until the bound no longer
matters (log entry 7).
-/
namespace Sys2Proof.Machine

/-- The integer square root, rounded down: `k` binary digits. -/
def isqrtGo (n : Nat) : Nat → Nat → Nat
  | 0, r => r
  | k + 1, r =>
    let t := r + 2 ^ k
    isqrtGo n k (if t * t ≤ n then t else r)
def isqrt (n : Nat) : Nat := isqrtGo n (bitLen n / 2 + 1) 0

/-- n / d as an exact value times 2^e, to 120 or more significant bits. -/
def quotient (neg : Bool) (n d : Nat) (e : Int) : Exact :=
  let k := bitLen d + 120 - bitLen n
  let x := n * 2 ^ k
  .fin neg (x / d) (e - k) (x % d != 0)

/-- The square root of n·2^e, to 120 or more significant bits. -/
def rootOf (neg : Bool) (n : Nat) (e : Int) : Exact :=
  let k := 240 - bitLen n
  let k := if (e - k) % 2 = 0 then k else k + 1
  let x := n * 2 ^ k
  let r := isqrt x
  .fin neg r ((e - k) / 2) (r * r != x)

/-- 1 ÷ a. -/
def rcpExact : Exact → Exact
  | .nan => .nan
  | .inf n => .zero n
  | .fin n m e _ => if m = 0 then .inf n else quotient n 1 m (-e)

/-- √a. -/
def sqrtExact : Exact → Exact
  | .nan => .nan
  | .inf n => if n then .nan else .inf false
  | .fin n m e _ => if m = 0 then .zero n else if n then .nan else rootOf false m e

/-- 1 ÷ √a = √(2^2k ÷ a), kept as the root of the quotient. -/
def rsqExact : Exact → Exact
  | .nan => .nan
  | .inf n => if n then .nan else .zero false
  | .fin n m e _ =>
    if m = 0 then .inf n
    else if n then .nan
    else
      let k := bitLen m + 240
      let k := if (-e - k) % 2 = 0 then k else k + 1
      let y := 2 ^ k / m
      let r := isqrt y
      .fin false r ((-e - k) / 2) (r * r * m != 2 ^ k)

/-- The exact value that lies between lo·2^e and hi·2^e, when 64 leading bits of the two agree. -/
def settle (neg : Bool) (lo hi : Int) (e : Int) : Option Exact :=
  if lo ≤ 0 then none
  else
    let l := lo.toNat
    let cut := bitLen l - 64
    if l / 2 ^ cut = hi.toNat / 2 ^ cut then some (.fin neg (l / 2 ^ cut) (e + cut) true) else none

/-- The first precision that settles the value. -/
def firstSettled (f : Nat → Option Exact) : List Nat → Exact
  | [] => .nan
  | p :: ps => match f p with
    | some x => x
    | none => firstSettled f ps

def precisions : List Nat := [256, 512, 1024, 2048]

/-- The error bound of the series below, in units of the last place. -/
def slack : Int := 1048576

/-- Σ z^(2k+1)/(2k+1), scaled by 2^p: `z` the current odd power, `zz` the square. -/
def atanhGo (p zz : Nat) : Nat → Nat → Nat → Nat → Nat
  | 0, _, _, acc => acc
  | f + 1, k, z, acc => if z = 0 then acc else atanhGo p zz f (k + 2) (z * zz / 2 ^ p) (acc + z / k)

/-- 2·artanh(n/d)·2^p. -/
def ln2xAtanh (p n d : Nat) : Nat :=
  let z := n * 2 ^ p / d
  2 * atanhGo p (z * z / 2 ^ p) (p + 2) 1 z 0

/-- ln 2 · 2^p. -/
def ln2 (p : Nat) : Nat := ln2xAtanh p 1 3

/-- Σ y^k/k!, scaled by 2^p. -/
def expGo (p y : Nat) : Nat → Nat → Nat → Nat → Nat
  | 0, _, _, acc => acc
  | f + 1, k, t, acc => if t = 0 then acc else expGo p y f (k + 1) (t * y / 2 ^ p / k) (acc + t)

/-- 2^a for a = ±m·2^e, not an integer. -/
def ex2At (neg : Bool) (m : Nat) (e : Int) (p : Nat) : Option Exact :=
  -- a = n + f, f in (0,1) as an exact fraction of 2^-e
  let d := (-e).toNat
  let a : Int := if neg then -(m : Int) else m
  let n := a / ((2 ^ d : Nat) : Int)
  let f := (a % ((2 ^ d : Nat) : Int)).toNat
  let y := f * ln2 p / 2 ^ d
  let v : Int := expGo p y (p + 2) 1 (2 ^ p) 0
  settle false (v - slack) (v + slack) (n - p)

/-- 2^a. -/
def ex2Exact : Exact → Exact
  | .nan => .nan
  | .inf n => if n then .zero false else .inf false
  | .fin n m e _ =>
    if m = 0 then .fin false 1 0 false
    else if e ≥ 0 || m % 2 ^ (-e).toNat == 0 then
      let k : Int := if e ≥ 0 then m * 2 ^ (min e 20).toNat else m / 2 ^ (-e).toNat
      .fin false 1 (if n then max (-8000) (-k) else min 8000 k) false
    else if m / 2 ^ (-e).toNat ≥ 4000 then
      .fin false (2 ^ 64) (if n then -8000 else 8000) true
    else firstSettled (ex2At n m e) precisions

/-- log₂ a for a = m·2^e > 0, not a power of two. -/
def lg2At (m : Nat) (e : Int) (p : Nat) : Option Exact :=
  let b := bitLen m - 1
  let k : Int := e + b
  -- x = m / 2^b in (1,2): ln x = 2 artanh((x-1)/(x+1))
  let lnx := ln2xAtanh p (m - 2 ^ b) (m + 2 ^ b)
  let v : Int := k * 2 ^ p + (lnx * 2 ^ p / ln2 p : Nat)
  if v < 0 then settle true (-v - slack) (-v + slack) (-p) else settle false (v - slack) (v + slack) (-p)

/-- log₂ a. -/
def lg2Exact : Exact → Exact
  | .nan => .nan
  | .inf n => if n then .nan else .inf false
  | .fin n m e _ =>
    if m = 0 then .inf true
    else if n then .nan
    else if m = 2 ^ (bitLen m - 1) then .int (e + (bitLen m - 1 : Nat))
    else firstSettled (lg2At m e) precisions

/-- Σ (−1)^k y^(2k)/(2k)! (from `k = 1`, term 2^p) or Σ (−1)^k y^(2k+1)/(2k+1)! (from `k = 2`, term y), scaled by 2^p. -/
def trigGo (p yy : Nat) : Nat → Nat → Nat → Bool → Int → Int
  | 0, _, _, _, acc => acc
  | f + 1, k, t, plus, acc =>
    if t = 0 then acc
    else trigGo p yy f (k + 2) (t * yy / 2 ^ p / (k * (k + 1))) (!plus) (if plus then acc + t else acc - t)

/-- Σ (−1)^k z^(2k+1)/(2k+1), scaled by 2^p. -/
def atanGo (p zz : Nat) : Nat → Nat → Nat → Bool → Int → Int
  | 0, _, _, _, acc => acc
  | f + 1, k, z, plus, acc =>
    if z = 0 then acc
    else atanGo p zz f (k + 2) (z * zz / 2 ^ p) (!plus) (if plus then acc + (z / k : Nat) else acc - (z / k : Nat))

/-- arctan(1/d)·2^p. -/
def atanInv (p d : Nat) : Int := let z := 2 ^ p / d; atanGo p (z * z / 2 ^ p) (p + 2) 1 z true 0

/-- π·2^p, by π = 16 arctan(1/5) − 4 arctan(1/239). -/
def piAt (p : Nat) : Nat := (16 * atanInv p 5 - 4 * atanInv p 239).toNat

/-- sin or cos of m·2^e > 0: the quadrant turns one into the other. -/
def trigAt (cos neg : Bool) (m : Nat) (e : Int) (p : Nat) : Option Exact :=
  -- work on w = p + 192 bits so that the reduction by π/2 keeps p bits
  let w := p + 192
  let x := if e + w ≥ 0 then m * 2 ^ (e + w).toNat else m / 2 ^ (-(e + w)).toNat
  let half := piAt (w + 192)
  let q := x * 2 ^ 193 / half
  let r := (x * 2 ^ 193 - q * half) / 2 ^ 193
  let y := r * 2 ^ p / 2 ^ w
  let yy := y * y / 2 ^ p
  let quad := (q + (if cos then 1 else 0)) % 4
  let v := if quad % 2 = 0 then trigGo p yy (p + 2) 2 y true 0 else trigGo p yy (p + 2) 1 (2 ^ p) true 0
  settle (neg != decide (quad ≥ 2)) (v - slack) (v + slack) (-p)

/-- sin a; below 2^-32 the value lies just under a. -/
def sinExact : Exact → Exact
  | .nan => .nan
  | .inf _ => .nan
  | .fin n m e _ =>
    if m = 0 then .zero n
    else if e + (bitLen m : Int) ≤ -32 then
      let k := 64 - bitLen m
      .fin n (m * 2 ^ k - 1) (e - k) true
    else firstSettled (trigAt false n m e) precisions

/-- cos a; below 2^-34 the value lies just under 1. -/
def cosExact : Exact → Exact
  | .nan => .nan
  | .inf _ => .nan
  | .fin _ m e _ =>
    if m = 0 then .fin false 1 0 false
    else if e + (bitLen m : Int) ≤ -34 then .fin false (2 ^ 64 - 1) (-64) true
    else firstSettled (trigAt true false m e) precisions

end Sys2Proof.Machine
end

