-- ==== Sys2Proof/Machine/LaneFns.lean ====
section
/-!
DEFINITION. What the arithmetic words compute in one lane (05 R136 to R148, 03 R66, R67): functions of the lane's source
values, without any state.
-/
namespace Sys2Proof.Machine

/-- R136: the integer words on one element. -/
inductive IntOp where
  | add | sub | mul | mulh | mad | abs | neg | min | max
  deriving DecidableEq, Repr

def intElem (op : IntOp) (sat signed : Bool) (w a b d : Nat) : Nat :=
  let x := elemInt signed w a
  let y := elemInt signed w b
  let z := elemInt signed w d
  match op with
  | .add => intFit sat signed w (x + y)
  | .sub => intFit sat signed w (x - y)
  | .mul => intFit sat signed w (x * y)
  | .mulh => ofInt w (x * y / ((2 ^ w : Nat) : Int))
  | .mad => intFit sat signed w (z + x * y)
  | .abs => if signed then intFit sat signed w x.natAbs else a
  | .neg => intFit sat signed w (-x)
  | .min => if x ≤ y then a else b
  | .max => if x ≤ y then b else a

/-- R136 on a register. -/
def intLane (op : IntOp) (t : Nat) (sat : Bool) (a b d : Nat) : Nat :=
  mapElems3 t (intElem op sat (typeSigned t) (typeWidth t)) a b d

/-- R139: the shifts on one element. -/
inductive ShiftOp where
  | shl | shr | sar | rotl
  deriving DecidableEq, Repr

def shiftElem (op : ShiftOp) (w a b : Nat) : Nat :=
  let n := b % w
  match op with
  | .shl => a * 2 ^ n % 2 ^ w
  | .shr => a / 2 ^ n
  | .sar => ofInt w (toSigned w a / ((2 ^ n : Nat) : Int))
  | .rotl => (a * 2 ^ n + a / 2 ^ (w - n)) % 2 ^ w

def shiftLane (op : ShiftOp) (t a b : Nat) : Nat := mapElems2 t (shiftElem op (typeWidth t)) a b

/-- R141: the counting words on one element. -/
inductive CountOp where
  | clz | ctz | popc | brev
  deriving DecidableEq, Repr

def countElem (op : CountOp) (w a : Nat) : Nat :=
  match op with
  | .clz => w - bitLen a
  | .ctz => ((List.range w).find? (fun j => a / 2 ^ j % 2 == 1)).getD w
  | .popc => ((List.range w).filter (fun j => a / 2 ^ j % 2 == 1)).length
  | .brev => (List.range w).foldl (fun acc j => acc + a / 2 ^ j % 2 * 2 ^ (w - 1 - j)) 0

def countLane (op : CountOp) (t a : Nat) : Nat := mapElems1 t (countElem op (typeWidth t)) a

/-- R138: the logic words on a register or pair of `w` bits. -/
inductive LogicOp where
  | and | or | xor | andn | not
  deriving DecidableEq, Repr

def logicLane (op : LogicOp) (w a b : Nat) : Nat :=
  let ones := 2 ^ w - 1
  match op with
  | .and => a &&& b
  | .or => a ||| b
  | .xor => a ^^^ b
  | .andn => a &&& (ones ^^^ (b % 2 ^ w))
  | .not => ones ^^^ (a % 2 ^ w)

/-- R140: position and length of a bit field. -/
def fieldPos (w b : Nat) : Nat := b % 64 % w
def fieldLen (w b : Nat) : Nat :=
  let l := b / 256 % w
  if l = 0 then w else l

/-- R140: extract. -/
def bfxLane (signed : Bool) (w a b : Nat) : Nat :=
  let pos := fieldPos w b
  let len := fieldLen w b
  let t := if signed then ofInt w (toSigned w a / ((2 ^ pos : Nat) : Int)) else a / 2 ^ pos
  let x := t % 2 ^ len
  if signed then ofInt w (toSigned len x) else x

/-- R140: insert. -/
def bfiLane (w a b d : Nat) : Nat :=
  let pos := fieldPos w b
  let len := fieldLen w b
  let m := (2 ^ len - 1) * 2 ^ pos % 2 ^ w
  (d &&& ((2 ^ w - 1) ^^^ m)) ||| (a * 2 ^ pos % 2 ^ w &&& m)

/-- R142: `lea`. -/
def leaLane (t scale a b : Nat) : Nat :=
  let x := if t == 6 || t == 7 then b
    else if t == 0 || t == 2 || t == 4 then ofInt 64 (toSigned 32 b)
    else b % 2 ^ 32
  (a + x * 2 ^ scale) % 2 ^ 64

/-- R143, R148: the rounding float words on one element. -/
inductive FloatOp where
  | fadd | fsub | fmul | ffma | frnd | fscl | frcp | frsq | fsqrt | fex2 | flg2 | fsin | fcos
  deriving DecidableEq, Repr

/-- The exact result, before its one rounding.  `n` is B's element as an integer, for `fscl`. -/
def floatExact (op : FloatOp) (rnd draw : Nat) (n : Int) (a b d : Exact) : Exact :=
  match op with
  | .fadd => a.add (rnd == 3) b
  | .fsub => a.add (rnd == 3) b.neg
  | .fmul => a.mul b
  | .ffma => (a.mul b).add (rnd == 3) d
  | .frnd => a.integral rnd draw
  | .fscl => a.scale n
  | .frcp => rcpExact a
  | .frsq => rsqExact a
  | .fsqrt => sqrtExact a
  | .fex2 => ex2Exact a
  | .flg2 => lg2Exact a
  | .fsin => sinExact a
  | .fcos => cosExact a

/-- A float word on one lane: the register and the generator's new state (R143, R148, R50). -/
def floatLane (op : FloatOp) (t rnd : Nat) (st : Word) (a b d : Nat) : Nat × Word :=
  let f := typeFmt t
  let w := typeWidth t
  roundElems w (typeCount t) (fun draw x => f.round rnd false draw x) rnd st
    (fun i s => floatExact op rnd (srDraw s) (toSigned w (elem w b i))
      (f.decode (elem w a i)) (f.decode (elem w b i)) (f.decode (elem w d i)))

/-- R144: the selecting float words. -/
inductive FminOp where
  | fmin | fmax | fminp | fmaxp
  deriving DecidableEq, Repr

def fminElem (op : FminOp) (f : Fmt) (a b : Nat) : Nat :=
  let x := f.decode a
  let y := f.decode b
  let prop := op == .fminp || op == .fmaxp
  let lesser := op == .fmin || op == .fminp
  if x == .nan && y == .nan then f.nanCode
  else if x == .nan then (if prop then f.nanCode else b)
  else if y == .nan then (if prop then f.nanCode else a)
  else if Exact.lt y x then (if lesser then b else a)
  else (if lesser then a else b)

def fminLane (op : FminOp) (t a b : Nat) : Nat := mapElems2 t (fminElem op (typeFmt t)) a b

/-- R145: `fabs`, `fneg` act on the sign bit alone. -/
def signLane (neg : Bool) (t a : Nat) : Nat :=
  let w := typeWidth t
  mapElems1 t (fun x => if neg then x ^^^ 2 ^ (w - 1) else x % 2 ^ (w - 1)) a

/-- R145: the class bit of an element. -/
def classElem (f : Fmt) (x : Nat) : Nat :=
  let neg := x / 2 ^ (f.exp + f.man) % 2 == 1
  let c := x % 2 ^ (f.exp + f.man)
  let e := c / 2 ^ f.man
  let m := c % 2 ^ f.man
  let bit :=
    if e = 2 ^ f.exp - 1 then
      if m = 0 then (if neg then 0 else 7) else if m < 2 ^ (f.man - 1) then 8 else 9
    else if c = 0 then (if neg then 3 else 4)
    else if e = 0 then (if neg then 2 else 5)
    else (if neg then 1 else 6)
  2 ^ bit

def fclsLane (t a : Nat) : Nat := mapElems1 t (classElem (typeFmt t)) a

/-- R58: the exact sum of terms, with its zero sign: −0 if every term is −0, else −0 only under RDN. -/
def sumExact (rdn : Bool) (ts : List Exact) : Exact :=
  match ts with
  | [] => .zero false
  | x :: r =>
    let s := r.foldl (Exact.add rdn) x
    match s with
    | .fin _ 0 _ _ => if ts.all (fun y => match y with | .fin n 0 _ _ => n | _ => false) then .zero true else .zero rdn
    | y => y

/-- R146: `fdot4`. -/
def fdot4Lane (q0 q1 : Word) (rnd : Nat) (st : Word) (a b d : Nat) : Nat × Word :=
  let prod i := (narrowValue q0 (elem 8 a i)).mul (narrowValue q1 (elem 8 b i))
  let x := sumExact (rnd == 3) [prod 0, prod 1, prod 2, prod 3, Fmt.f32.decode d]
  (Fmt.f32.round rnd false (srDraw st) x, if rnd = 5 then srStep st else st)

/-- R64: a conversion format, by its code: a TYPE, or the q register 12 to 15 with its descriptor. -/
inductive CvtFmt where
  | lane (t : Nat)
  | narrow (q : Word)
  deriving DecidableEq, Repr

/-- R65: the element count of a format. -/
def CvtFmt.count : CvtFmt → Nat
  | .lane t => typeCount t
  | .narrow _ => 1
def CvtFmt.is64 : CvtFmt → Bool
  | .lane t => type64 t
  | .narrow _ => false
/-- R48: a conversion from integers; one from a narrow fixed-point format converts as from floats (log entry 62). -/
def CvtFmt.isInt : CvtFmt → Bool
  | .lane t => !typeFloat t
  | .narrow _ => false
def CvtFmt.width : CvtFmt → Nat
  | .lane t => typeWidth t
  | .narrow _ => 32

/-- R65: which operands a pairing names: `(A is a pair, D is a pair)`, `none` for an illegal pairing. -/
def cvtPairing (dst src : CvtFmt) : Option (Bool × Bool) :=
  if dst.count = src.count then some (src.is64, dst.is64)
  else if src.count = 1 && dst.count == 2 && !src.is64 then some (true, false)
  else if src.count = 2 && dst.count == 1 && !dst.is64 then some (false, true)
  else none

/-- exact_value of R66. -/
def cvtValue (f : CvtFmt) (bits : Nat) : Exact :=
  match f with
  | .lane t =>
    if typeFloat t then (typeFmt t).decode bits else .int (elemInt (typeSigned t) (typeWidth t) bits)
  | .narrow q => narrowValue q bits

/-- round_into of R66.  An integer that comes from an integer keeps its low bits, or saturates under SAT (R48). -/
def cvtRound (dst : CvtFmt) (srcInt : Bool) (rnd : Nat) (sat : Bool) (draw : Nat) (x : Exact) : Nat :=
  match dst with
  | .narrow q => narrowRound q rnd sat draw x
  | .lane t =>
    if typeFloat t then (typeFmt t).round rnd sat draw x
    else if srcInt then
      match x with
      | .fin n m _ _ => intFit sat (typeSigned t) (typeWidth t) (if n then -(m : Int) else m)
      | _ => 0
    else ofInt (typeWidth t) (roundInt (typeWidth t) (typeSigned t) rnd draw x)

/-- R65, R66: `cvt` on one lane.  A pair of 32-bit elements is its 64 bits. -/
def cvtLane (dst src : CvtFmt) (rnd : Nat) (sat : Bool) (st : Word) (a : Nat) : Nat × Word :=
  let sw := if src.count = 1 && dst.count == 2 then 32 else src.width
  let dw := if src.count = 2 && dst.count == 1 then 32 else dst.width
  let n := max src.count dst.count
  roundElems dw n (fun draw x => cvtRound dst src.isInt rnd sat draw x) rnd st (fun i _ => cvtValue src (elem sw a i))

/-- R67: elements in a packed word. -/
def packCount (q : Word) : Nat := if qWidth q ≤ 4 then 8 else 4

/-- R67: `nfpk` on one lane, from the binary32 values of the run. -/
def nfpkLane (q : Word) (rnd : Nat) (sat : Bool) (st : Word) (xs : List Nat) : Nat × Word :=
  let k := packCount q
  roundElems (32 / k) k (fun draw x => narrowRound q rnd sat draw x) rnd st (fun i _ => Fmt.f32.decode (xs.getD i 0))

/-- R67: `nfupk` on one lane: element `i` as binary32. -/
def nfupkLane (q : Word) (a i : Nat) : Nat :=
  Fmt.f32.round 0 false 0 (narrowValue q (elem (32 / packCount q) a i))

end Sys2Proof.Machine
end

