-- ==== Sys2Proof/Machine/Roles.lean ====
section
/-!
DEFINITION. What each operand field of a word names (02 R16 to R22, 05 R128): its role, from which come its legality, the
registers it names and how it is read.
-/
namespace Sys2Proof.Machine

/-- What a field that holds an operand code names. -/
inductive Role where
  /-- a 32-bit source, a 64-bit source (R18), a source whose width follows TYPE (R128) -/
  | src | src64 | srcT
  /-- a destination of 32 bits, of 64 bits, of TYPE's width -/
  | dst | dst64 | dstT
  /-- a v or o code that is read, and may be written, of 32 bits or of TYPE's width -/
  | vo | voT
  /-- the first of `n` vector registers (R167) -/
  | run (n : Nat)
  /-- the first of the vector registers of q register `n` (R67) -/
  | pack (n : Nat)
  /-- a run of four registers at a multiple of four (R332) -/
  | quad
  /-- the run of `cas` (R310) -/
  | cas
  /-- the index of `lea`: a pair under TYPE 6 and 7 (R142) -/
  | index
  deriving DecidableEq, Repr

/-- The width that a special register has (R123). -/
def sprWide (n : Nat) : Bool := n == 3 || n == 4 || n == 5 || (8 ≤ n && n ≤ 12)

/-- A float or integer format code of `cvt`, for the pairing alone: a narrow code counts one element of 32 bits. -/
def cvtShape (c : BitVec 4) : CvtFmt := if c.toNat < 12 then .lane c.toNat else .narrow 0

/-- R65: the roles of A and D of `cvt`, `none` for an illegal pairing. -/
def cvtRoles (t s : BitVec 4) : Option (Role × Role) :=
  (cvtPairing (cvtShape t) (cvtShape s)).map
    (fun p => (if p.1 then .src64 else .src, if p.2 then .dst64 else .dst))

/-- The operand fields of a strand word, in the order D, A, B of R38. -/
def operandsOf (i : Instr) : List (Role × BitVec 8) :=
  match i with
  | .getmode d => [(.dst, d)]
  | .brx _ a => [(.src64, a)]
  | .ret a => [(.src64, a)]
  | .call d _ => [(.dst64, d)]
  | .mov d a => [(.dstT, d), (.srcT, a)]
  | .lil d _ => [(.dst, d)]
  | .lih d _ => [(.dst, d)]
  | .sel d a b | .add d a b | .addc d a b | .sub d a b | .subb d a b | .mul d a b | .mulh d a b | .mad d a b
  | .min d a b | .max d a b | .and d a b | .or d a b | .xor d a b | .andn d a b | .shl d a b | .shr d a b | .sar d a b
  | .rotl d a b | .fadd d a b | .fsub d a b | .fmul d a b | .ffma d a b | .fmin d a b | .fmax d a b | .fminp d a b
  | .fmaxp d a b | .fscl d a b => [(.dstT, d), (.srcT, a), (.srcT, b)]
  | .abs d a | .neg d a | .not d a | .clz d a | .ctz d a | .popc d a | .brev d a | .fabs d a | .fneg d a | .frcp d a
  | .frsq d a | .fsqrt d a | .fex2 d a | .flg2 d a | .fsin d a | .fcos d a | .frnd d a | .fcls d a =>
    [(.dstT, d), (.srcT, a)]
  | .lea d a b => [(.dst64, d), (.src64, a), (.index, b)]
  | .bfx d a b | .bfi d a b | .shfl d a b | .rot d a b => [(.dstT, d), (.srcT, a), (.src, b)]
  | .fdot4 d a b => [(.dst, d), (.src, a), (.src, b)]
  | .icmp _ _ a b => [(.srcT, a), (.srcT, b)]
  | .fcmp _ _ a b => [(.srcT, a), (.srcT, b)]
  | .p2v d _ => [(.dst, d)]
  | .v2p _ a => [(.src, a)]
  | .vote d a _ => [(.dst, d), (.src, a)]
  | .lanes d _ => [(.dst, d)]
  | .rdsr d s => [(if sprWide s.toNat then .dst64 else .dst, d)]
  | .wrsr s a => [(if sprWide s.toNat then .src64 else .src, a)]
  | .setfmt _ a => [(.src, a)]
  | .getfmt d _ => [(.dst, d)]
  | .cvt d a t s =>
    match cvtRoles t s with
    | some (ra, rd) => [(rd, d), (ra, a)]
    | none => []
  | .nfpk d a n => [(.dst, d), (.pack n.toNat, a)]
  | .nfupk d a n => [(.pack n.toNat, d), (.src, a)]
  | .srseed a => [(.src, a)]
  | .lds d a _ z => [(if z = 1 then .dst64 else .dst, d), (.src, a)]
  | .sts z a b => [(.src, a), (if z = 1 then .src64 else .src, b)]
  | .ldsm d a n => [(.run (n.toNat + 1), d), (.src, a)]
  | .stsm n a b => [(.src, a), (.run (n.toNat + 1), b)]
  | .spt d a => [(.dst, d), (.src64, a)]
  | .spc d a => [(.dst64, d), (.src64, a)]
  | .xsend _ _ a => [(.src, a)]
  | .xrecv d _ _ => [(.dst, d)]
  | .ld d a _ z | .ldb d a _ z => [(if z = 1 then .dst64 else .dst, d), (.src64, a)]
  | .st z a b | .stb z a b => [(.src64, a), (if z = 1 then .src64 else .src, b)]
  | .ldm d a n => [(.run (n.toNat + 1), d), (.src64, a)]
  | .stm n a b => [(.src64, a), (.run (n.toNat + 1), b)]
  | .pref a | .pin a | .unpin a | .lotwb a | .lotdrop a | .mon a => [(.src64, a)]
  | .chain d a => [(.dst, d), (.src64, a)]
  | .pgq d a _ => [(.dst64, d), (.src64, a)]
  | .tlbinv _ a b => [(.src64, a), (.src, b)]
  | .bararArm _ a => [(.src, a)]
  | .barst d _ => [(.dst64, d)]
  | .twait _ a => [(.src64, a)]
  | .tget d _ => [(.dst64, d)]
  | .atom _ _ _ a x | .atomsc _ a x => [(.src64, a), (.voT, x)]
  | .atomn _ _ _ a x => [(.src64, a), (.srcT, x)]
  | .cas _ _ a x => [(.src64, a), (.cas, x)]
  | .lda d a z _ | .ldar d a z _ => [(if z = 1 then .dst64 else .dst, d), (.src64, a)]
  | .stl z _ a b => [(.src64, a), (if z = 1 then .src64 else .src, b)]
  | .mwait a => [(.src, a)]
  | .cpy d _ _ | .cpym d _ _ _ => [(.quad, d)]
  | .cpyq d a => [(.dst64, d), (.src64, a)]
  | .sleepu a _ => [(.quad, a)]
  | .fixqRetry a b | .fixqFail a b => [(.src64, a), (.src, b)]
  | .shld _ a | .shst _ a => [(.src64, a)]
  | .shset _ _ a => [(.src, a)]
  | .mgo d a b => [(.dst64, d), (.src64, a), (.src, b)]
  | .mq d => [(.dst64, d)]
  | .mres d a | .mabort d a => [(.dst64, d), (.src64, a)]
  | .zseed _ a => [(.src, a)]
  | .zenc _ a _ _ => [(.src, a)]
  | .zdec d _ _ | .zcnt d _ | .zdot d _ _ _ | .zcls d _ => [(.dst, d)]
  | .ztop d a _ => [(.dst, d), (.src, a)]
  | .gcall a => [(.src, a)]
  | .didqSelf d | .didqGate d => [(.dst, d)]
  | .didqDpr d a => [(.dst, d), (.src, a)]
  | .dpsetDpr _ a _ | .dpsetSub _ a _ | .dpsetSeal _ a _ => [(.vo, a)]
  | .syscall x a => [(.run 8, x), (.src, a)]
  | .ctxsv d a => [(.dst, d), (.src64, a)]
  | .ctxld a => [(.src64, a)]
  | .sigrd d => [(.dst, d)]
  | .sigset a => [(.src, a)]
  | .errq d a _ => [(.dst64, d), (.src, a)]
  | _ => []

/-- Words whose constants and `lid` are read as elements of TYPE (R20, R128, R307). -/
def typeGeneric (i : Instr) : Bool :=
  match i with
  | .add .. | .sub .. | .mul .. | .mulh .. | .mad .. | .abs .. | .neg .. | .min .. | .max .. | .shl .. | .shr ..
  | .sar .. | .rotl .. | .clz .. | .ctz .. | .popc .. | .brev .. | .addc .. | .subb .. | .icmp ..
  | .fadd .. | .fsub .. | .fmul .. | .ffma .. | .fmin .. | .fmax .. | .fminp .. | .fmaxp .. | .fabs .. | .fneg ..
  | .frnd .. | .fcls .. | .fscl .. | .frcp .. | .fsqrt .. | .frsq .. | .fex2 .. | .flg2 .. | .fsin .. | .fcos ..
  | .fcmp .. | .atom .. | .atomn .. | .atomsc .. => true
  | _ => false

/-- R128, R307, R390: whether a word may issue under a TYPE. -/
def typeOk (i : Instr) (t : Nat) : Bool :=
  match i with
  | .add .. | .sub .. | .mul .. | .mulh .. | .mad .. | .abs .. | .neg .. | .min .. | .max .. | .shl .. | .shr ..
  | .sar .. | .rotl .. | .clz .. | .ctz .. | .popc .. | .brev .. | .bfx .. | .bfi .. => t ≤ 7
  | .addc .. | .subb .. | .icmp .. => t == 0 || t == 1 || t == 6 || t == 7
  | .fadd .. | .fsub .. | .fmul .. | .ffma .. | .fmin .. | .fmax .. | .fminp .. | .fmaxp .. | .fabs .. | .fneg ..
  | .frnd .. | .fcls .. | .fscl .. | .frcp .. | .fsqrt .. => 8 ≤ t && t ≤ 11
  | .frsq .. | .fex2 .. | .flg2 .. | .fsin .. | .fcos .. => 8 ≤ t && t ≤ 10
  | .fcmp .. => t == 8 || t == 11
  | .fdot4 .. => t == 8
  | .atom o _ _ _ _ | .atomn o _ _ _ _ | .atomsc o _ _ =>
    if t ≤ 1 || t == 6 || t == 7 then true
    else if t ≤ 5 then false
    else o == 0 || o == 4 || o == 5 || o == 6
  | .ztop .. => t == 0 || t == 1 || t == 8
  | _ => true

/-- A code that may stand in a source position (R16). -/
def srcCode (c : Nat) : Bool := c < 212 || 224 ≤ c
/-- A code that may stand in a destination position (R16). -/
def dstCode (c : Nat) : Bool := c < 208
/-- A v or o code is even where it names a pair (R18). -/
def pairCode (c : Nat) : Bool := c ≥ 208 || c % 2 == 0

/-- Whether a run of `n` registers from code `c` stays inside its class (R310, R332). -/
def insideClass (c n : Nat) : Bool := (c < 192 && c + n ≤ 192) || (192 ≤ c && c + n ≤ 208)

/-- R16, R18, R167, R310, R332: a code is legal in its role.  `wide`: TYPE is 6, 7 or 11; `idx`: TYPE is 6 or 7; `k`: the
length of the run of a q register. -/
def codeOk (wide idx : Bool) (k : Nat → Nat) (r : Role) (c : Nat) : Bool :=
  match r with
  | .src => srcCode c
  | .src64 => srcCode c && pairCode c
  | .srcT => srcCode c && (!wide || pairCode c)
  | .dst => dstCode c
  | .dst64 => dstCode c && pairCode c
  | .dstT => dstCode c && (!wide || pairCode c)
  | .vo => dstCode c
  | .voT => dstCode c && (!wide || pairCode c)
  | .run n => decide (c + n ≤ 192)
  | .pack n => decide (c + k n ≤ 192)
  | .quad => c % 4 == 0 && insideClass c 4
  | .cas => if wide then c % 4 == 0 && insideClass c 4 else c % 2 == 0 && insideClass c 2
  | .index => srcCode c && (!idx || pairCode c)

/-- The number of registers that a v or o code names in its role. -/
def Role.count (wide idx : Bool) (k : Nat → Nat) : Role → Nat
  | .src | .dst | .vo => 1
  | .src64 | .dst64 => 2
  | .srcT | .dstT | .voT => if wide then 2 else 1
  | .run n => n
  | .pack n => k n
  | .quad => 4
  | .cas => if wide then 4 else 2
  | .index => if idx then 2 else 1

/-- R17: registers `c` to `c + n − 1` lie in granules that a map holds; operand registers are always held. -/
def heldIn (map : BitVec 24) (c n : Nat) : Bool :=
  c ≥ 192 || (List.range n).all (fun j => map.getLsbD ((c + j) / 8))

/-- The checks of raw codes and immediates that give ILLEGAL_OPERAND whatever the strand holds (R22, R65, R100, R112, R125,
R134, R246, R247, R250, R381). -/
def fieldsOk (i : Instr) : Bool :=
  match i with
  | .setmode x => let n := x.toNat; n % 16 < 12 && n / 16 % 8 < 6 && n / 8192 % 4 != 3
  | .setmodeh x => let n := x.toNat; n / 64 % 4 == 0 && n / 2048 == 0
  | .icmp c _ _ _ => condOk false c.toNat
  | .fcmp c _ _ _ => condOk true c.toNat
  | .vgrow a b | .vshrink a b =>
    a.toNat % 8 == 0 && b.toNat % 8 == 7 && a.toNat < 192 && b.toNat < 192 && a.toNat ≤ b.toNat
  | .vote _ _ k | .lanes _ k => k.toNat < 4
  | .rdsr _ s => s.toNat ≤ 12
  | .wrsr s _ => 9 ≤ s.toNat && s.toNat ≤ 12
  | .cvt _ _ t s => (cvtRoles t s).isSome
  | .pgq _ _ k => k.toNat < 3
  | .tlbinv k _ _ => k.toNat < 6
  | .fence s => s.toNat < 6
  | .atom _ s _ _ _ | .atomn _ s _ _ _ => s.toNat < 6
  | .cas s _ _ _ => s.toNat < 6
  | .lda _ _ _ s | .ldar _ _ _ s => s.toNat < 6
  | .stl _ s _ _ => s.toNat < 6
  | .zlen l => l.toNat < 3
  | .dpsetDpr t _ i => t.toNat < 192 && i.toNat < 4
  | .dpsetSub t _ i => t.toNat < 24 && i.toNat < 4
  | .dpsetSeal t _ i => t.toNat == 0 && i.toNat < 15
  | _ => true

end Sys2Proof.Machine
end

