-- ==== Sys2Proof/Config.lean ====
section
/-!
DEFINITION. What one part fixes, and the free values.  An `opaque` constant has no body: nothing can be proved of its
value.  `freeDWord`, `freeWord` and `freeByte` are applied to the counter `State.fresh`, which every use advances (log entry 4).
-/
namespace Sys2Proof.Config

/-- Cores, clusters, partitions of a core, strand slots of a partition, block slots of a core (00, 04 R69). -/
def cores : Nat := 192
def clusters : Nat := 24
def partitions : Nat := 6
def strandSlots : Nat := 16
def blockSlots : Nat := 8
/-- The bytes of HBM4E (08 R214). -/
def hbmBytes : Nat := 0x00C0_0000_0000
/-- What a byte that nothing has written reads as (24 R492 leaves HBM4E undefined; log entry 2). -/
def unlistedByte : Byte := 0

/-- A 64-bit value that the spec leaves open. -/
opaque freeDWord : Nat → DWord
/-- A 32-bit value that the spec leaves open. -/
opaque freeWord : Nat → Word
/-- The device serial, and the digest of a list of words (24 R495; log entry 71). -/
opaque serial : BitVec 128
opaque digest : List Nat → BitVec 384
/-- A byte that the spec leaves open. -/
opaque freeByte : Nat → Byte
/-- What a lane reads where 05 R127 names no source lane, by the time of its word and the lane (log entry 4). -/
opaque freeLane : DWord → Nat → DWord

end Sys2Proof.Config
end

