-- ==== Sys2Proof/Machine/Sparse.lean ====
section
/-!
DEFINITION. Sparse data by number: a list of (key, value) pairs in one canonical form, keys strictly rising, and no
entry equal to what an unlisted key reads as.  Memory, register files and the tables of the package are held so.
-/
namespace Sys2Proof.Machine

/-- Pairs of a key and a value, keys strictly rising. -/
abbrev Tbl (α : Type) := List (Nat × α)

/-- The value listed at a key. -/
def Tbl.find {α : Type} : Tbl α → Nat → Option α
  | [], _ => none
  | (j, a) :: r, k => if j = k then some a else Tbl.find r k

/-- The table with `a` listed at `k`. -/
def Tbl.put {α : Type} : Tbl α → Nat → α → Tbl α
  | [], k, a => [(k, a)]
  | (j, b) :: r, k, a =>
    if k < j then (k, a) :: (j, b) :: r
    else if k = j then (k, a) :: r
    else (j, b) :: Tbl.put r k a

/-- The table with nothing listed at `k`. -/
def Tbl.del {α : Type} : Tbl α → Nat → Tbl α
  | [], _ => []
  | (j, b) :: r, k => if k = j then Tbl.del r k else (j, b) :: Tbl.del r k

/-- The value at `k`, where an unlisted key reads as `d`. -/
def Tbl.get {α : Type} (d : α) (t : Tbl α) (k : Nat) : α := (Tbl.find t k).getD d

/-- Writes `a` at `k`; writing what an unlisted key reads as removes the entry. -/
def Tbl.set {α : Type} [DecidableEq α] (d : α) (t : Tbl α) (k : Nat) (a : α) : Tbl α :=
  if a = d then Tbl.del t k else Tbl.put t k a

/-- Applies `f` to the value listed at `k`, if one is. -/
def Tbl.modify {α : Type} (t : Tbl α) (k : Nat) (f : α → α) : Tbl α :=
  match Tbl.find t k with
  | some a => Tbl.put t k (f a)
  | none => t

/-- Every key lies above `lo`, and the keys rise strictly. -/
def Tbl.sortedFrom {α : Type} : Nat → Tbl α → Bool
  | _, [] => true
  | lo, (j, _) :: r => decide (lo ≤ j) && Tbl.sortedFrom (j + 1) r

/-- The keys rise strictly. -/
def Tbl.sorted {α : Type} (t : Tbl α) : Bool := Tbl.sortedFrom 0 t

/-- No entry equals what an unlisted key reads as. -/
def Tbl.noDefault {α : Type} [DecidableEq α] (d : α) (t : Tbl α) : Bool := t.all (fun p => decide (p.2 ≠ d))

/-- The keys of a table whose value satisfies `f`, in rising order. -/
def Tbl.keysWhere {α : Type} (t : Tbl α) (f : Nat → α → Bool) : List Nat :=
  (t.filter (fun p => f p.1 p.2)).map Prod.fst

/-- The smallest number not listed, at or above `lo`, among the next `n`. -/
def Tbl.freeKey {α : Type} (t : Tbl α) (lo n : Nat) : Option Nat :=
  ((List.range n).map (· + lo)).find? (fun k => (Tbl.find t k).isNone)

end Sys2Proof.Machine
end

