-- ==== Sys2Proof/Machine/State.lean ====
section
/-!
DEFINITION. The state of the whole YN-3300 package as plain data, and the state after a package reset.
Every field cites the rule that names it.  Sparse tables list only what differs from what an unlisted key reads as.
-/
namespace Sys2Proof.Machine

/-- Why the machine stops with a fault.  It never does: the spec gives every instruction and every event an effect, and every cause of
R413 a handler. -/
inductive Fault where
  deriving DecidableEq, Repr

/-- Why an instruction has no meaning here. -/
inductive Refusal where
  /-- Raised by the arms of `exec` whose instruction has no meaning yet.  Safe: no next state is claimed. -/
  | notModelled (mnemonic : String)
  deriving DecidableEq, Repr

/-- The causes of R413. -/
inductive Cause where
  | illegalWord | illegalOperand | illegalClause | misaligned | badWindow | foreignWindow | notPresent | stage2
  | permission | domain | remoteGone | poisonConsumed | pinQuota | gate | correlatedMix | streamLength | queueQuota
  | promiseMiss | mwaitTimeout | barrierTimeout | controlIntegrity | seqIllegal | syscall | break | softTrap
  deriving DecidableEq, Repr

/-- What of DETAIL a cause fills beside its address (R419), as bits of the 512-bit field. -/
abbrev Detail := BitVec 512

/-- A fault record while it is in the machine (R418); `Record.bits` lays it out in 128 bytes. -/
structure Record where
  cause     : Cause
  wordWide  : Bool
  seq       : Bool
  frag      : Bool
  mask      : Mask
  secondary : Mask
  seqAddr   : DWord
  wordPc    : DWord
  pc        : DWord
  header    : DWord
  index     : Nat
  restart   : Nat
  oplog     : Nat
  halted    : Bool
  addr      : DWord
  time      : DWord
  detail    : Detail
  deriving DecidableEq, Repr

/-- What a holding word waits for (R32). -/
inductive Hold where
  | none
  /-- `vgrow`: its request stands in the growth queue (R113). -/
  | grow
  /-- `bar`, `barw`: until PHASE has passed `phase` (R295). -/
  | bar (k : Nat) (phase : Word)
  /-- `gbar`: until the group's phase counter passes `phase` (R299). -/
  | gbar (g : Nat) (phase : Nat) (since : DWord)
  /-- `fwait` (R300). -/
  | flags (m : BitVec 12)
  /-- `twait`: counter, value, DCLK of issue, and its place in program order (R301, 10 R254). -/
  | counter (c : Nat) (n : DWord) (since : DWord) (pos : Nat)
  /-- `fence`: scope, and the first flight that it does not wait for (R303). -/
  | fence (scope : Nat) (upto : Nat)
  /-- `tlbsync`: the first flight that it does not wait for (R248). -/
  | tlbsync (upto : Nat)
  /-- `mwait`: the DCLK that ends it, and t (R313). -/
  | mwait (deadline : DWord) (t : Word)
  /-- `sleepu`: request, promise, quiet (R334). -/
  | promise (n : DWord) (t : DWord) (quiet : Bool)
  /-- `syscall`: the number of its service entry, none while it waits for room (R434). -/
  | service (entry : Option DWord)
  deriving DecidableEq, Repr

/-- A live fragment (R85), with the clause it has fetched (R10): the header word first. -/
structure Frag where
  pc      : DWord
  header  : DWord
  index   : Nat
  clause  : List Word
  started : Bool
  /-- R31: resumed inside a clause, which does not wait on WAIT again. -/
  resumed : Bool
  mask    : Mask
  mode    : Word
  q       : List Word
  join    : Option Nat
  age     : DWord
  hold    : Hold
  /-- the lanes that the next word is limited to, when a lane-wise cause reissues it (R415) -/
  only    : Option Mask
  /-- flags that its clause has taken before the other fragment of the strand, which named them too (R82) -/
  claims  : BitVec 12
  /-- its `syscall` was holding at a save, so it resumes that request (R434) -/
  calling : Bool
  deriving DecidableEq, Repr

/-- An entry of the divergence stack that is not free (R88, R90, R93). -/
inductive StackEntry where
  | frag (f : Frag) (spillTime : DWord)
  | join (addr : DWord) (mask arrived : Mask) (mode : Word) (q : List Word) (parent : Option Nat)
  deriving DecidableEq, Repr

/-- A frame of the gate stack (R407). -/
structure GateFrame where
  ret      : DWord
  ident    : BitVec 12
  asid     : BitVec 16
  groot    : DWord
  mwait    : Bool
  kernel   : Bool
  gate     : BitVec 16
  deriving DecidableEq, Repr

/-- What an access is made under, as it stood when it was issued or submitted (R217, R399, R408). -/
structure Agent where
  core   : Nat
  tract  : Nat
  vmid   : BitVec 8
  asid   : BitVec 16
  pasid  : BitVec 16
  groot  : DWord
  proot  : DWord
  ident  : BitVec 12
  /-- the identifier is sealed -/
  sealed : Bool
  gang   : BitVec 13
  launch : Nat
  block  : Nat
  deriving DecidableEq, Repr

/-- An entry of the operand log (R234, R430). -/
structure LogEntry where
  flight : Nat
  pc     : DWord
  header : DWord
  index  : Nat
  word   : Word
  mode   : Word
  q      : List Word
  flag   : Option Nat
  mask   : Mask
  replay : Mask
  restart : Nat
  addr   : Lanes DWord
  data   : List (Lanes DWord)
  image  : Nat
  /-- code of the cause, when lanes are to be replayed -/
  cause  : Nat
  /-- the word's first position in program order (10 R254) -/
  pos    : Nat
  /-- what the word was issued under (R217, R408) -/
  agent  : Agent
  deriving DecidableEq, Repr

/-- A strand's monitor (R312, R313). -/
structure Monitor where
  lot   : Nat
  /-- the chain that holds the entry, or 24 + its stack for a memory controller (log entry 57) -/
  chain : Nat
  fired : Bool
  lost  : Bool
  deriving DecidableEq, Repr

/-- A strand's open fault, before its record is final (R233, R417). -/
structure OpenFault where
  record : Record
  /-- Continued issue is allowed (R233). -/
  issuing : Bool
  detected : DWord
  /-- the place in program order of the word that raised the cause (R417); 0 for a cause whose word has ended -/
  pos : Nat
  deriving DecidableEq, Repr

/-- What a translation is made under: its tags and roots (R217). -/
structure Space where
  priv  : Bool
  tract : Nat
  vmid  : BitVec 8
  asid  : BitVec 16
  root  : Nat
  ident : BitVec 12
  sealed : Bool
  /-- a processor outside the cores, whose domain the domain frame table does not check -/
  sys   : Bool
  deriving DecidableEq, Repr

/-- A strand in its slot (R85 to R93, R109 to R125, R407, R430). -/
structure Strand where
  fragA : Option Frag
  fragB : Option Frag
  ageCount : DWord
  stack : Tbl StackEntry
  /-- vector registers; an unlisted one reads as zero in every lane -/
  v : Tbl (Lanes Word)
  o : Tbl (Lanes Word)
  granules : BitVec 24
  l0 : Lanes DWord
  l1 : Lanes DWord
  p : Tbl Mask
  flags : BitVec 12
  sig : Word
  user0 : DWord
  user1 : DWord
  ctxBase : DWord
  strandId : Word
  gangInfo : DWord
  launchShape : DWord
  launchArg : DWord
  ident : BitVec 12
  rightMwait : Bool
  rightKernel : Bool
  groot : DWord
  proot : DWord
  asid : BitVec 16
  pasid : BitVec 16
  vmid : BitVec 8
  sr : Lanes Word
  gates : List GateFrame
  tvec : DWord
  tmask : Word
  recordValid : Bool
  halted : Bool
  debug : Bool
  inHandler : Bool
  /-- the slot that entered the trap vector, while INHANDLER is 1 -/
  handlerSlot : Bool
  syscallPending : Bool
  spilled : Bool
  record : Option Record
  saveMode : Word
  saveJoin : Option Nat
  saveQ : List Word
  /-- the record with which the trap vector was entered (R421, R436) -/
  saveRecord : Option Record
  opLog : List LogEntry
  openFault : Option OpenFault
  /-- stopped for a trap that the kernel or the hypervisor has to answer (R420) -/
  stopped : Bool
  lost : Word
  lostPeer : Byte
  monitor : Option Monitor
  /-- `yield` in force: the strands still to issue, and the clk that ends it (R107) -/
  yielding : Option (List Nat × DWord)
  nextExchange : DWord
  startTime : DWord
  /-- the block and the number of the strand in it -/
  block : Nat
  number : Nat
  queue : Nat
  /-- the translation of the queue's reads as its launch was accepted (22 R457) -/
  space : Space
  tract : Nat
  /-- no lane is live, parked or spilled (R92) -/
  ended : Bool
  /-- POISON_CONSUMED that waits for the strand's next instruction boundary: the word's address, lanes and detail (16 R378) -/
  due : List (DWord × Mask × Detail)
  deriving DecidableEq, Repr

/-- The translation of one 64 KiB page for one strand (R224, R226, R230). -/
structure Xlat where
  /-- physical address of the 64 KiB frame -/
  pa    : Nat
  cls   : Nat
  hint  : Nat
  lease : Nat
  r : Bool
  w : Bool
  x : Bool
  file  : Bool
  dirty : Bool
  size  : Nat
  deriving DecidableEq, Repr

/-- The answer for one page: a translation, or the cause of R226 with its detail. -/
inductive XRes where
  | ok (x : Xlat)
  | bad (cause : Cause) (detail : Detail)
  deriving DecidableEq, Repr

/-- How far one lot of an in-flight word has come. -/
inductive Phase where
  /-- waits for its tag slot in its chain (R181) -/
  | tag
  /-- rejected, to be retried (R192) -/
  | retry
  /-- served by a miss entry whose fill has not arrived (R189) -/
  | fill
  /-- served in another chain or at a peer, the reply under way (R200) -/
  | reply
  /-- read at the memory controller, not yet delivered (R201) -/
  | deliver
  /-- waits for the lot to land (R208, R211, R213) -/
  | land
  /-- waits for the acknowledgement of a write (R498) -/
  | ack
  | done
  deriving DecidableEq, Repr

/-- One lot that one register of an in-flight word names. -/
structure Req where
  reg   : Nat
  lot   : Nat
  lanes : Mask
  /-- the chain of its next tag slot -/
  chain : Nat
  /-- it has passed the tag stage of the issuing cluster and goes on to `chain` -/
  away  : Bool
  /-- its place among the leased stores of its cluster (R265) -/
  order : Nat
  /-- the page that translated it, by its key in the word's pages -/
  page  : Nat
  /-- the age of a rejected miss, and the DCLK of its first tag slot (R192) -/
  age   : Nat
  firstSlot : Option DWord
  /-- what the home answered: the copy's lease end and the stamp that the cluster's clock takes (R243, R268) -/
  stop  : BitVec 20
  stamp : BitVec 20
  phase : Phase
  /-- the sclk at which it became ready for its next tag slot (R181) -/
  since : Nat
  /-- the leased copy of its own cluster into which its bytes have been merged (10 R263); 0 for none -/
  copy  : Nat
  /-- how many writes of its lot are still to be acknowledged before it goes on (R213, R499); 0 where it waits for its own write at a
  controller (R201) -/
  wb    : Nat
  deriving DecidableEq, Repr

/-- What a long-latency word does when it is performed. -/
inductive FlightOp where
  | load (signed : Bool) (size : Nat) (place : Bool)
  | store (size : Nat) (place : Bool)
  | loadRun (n : Nat)
  | storeRun (n : Nat)
  | pref | chain | pin | unpin | lotwb | lotdrop
  | pgq (k : Nat)
  | tlbinv (k : Nat) (addr : DWord) (tag : Word)
  | atom (op : Nat) (type : Nat) (result : Bool)
  | cas (wide : Bool)
  | mon
  | xsend (dir ch : Nat)
  | xrecv (dir ch : Nat)
  /-- a transcendental word: its results are those of the issue clk (R147) -/
  | func
  /-- `shld`, `shst`: 64 bytes (R336) -/
  | shapeLoad (s : Nat)
  | shapeStore (s : Nat)
  /-- `ctxsv`, `ctxld` (R437, R438) -/
  | ctxSave
  | ctxLoad
  /-- `mabort`, `mres` on an image (R354 to R356) -/
  | mabort
  /-- `mres` with the number of its stream (R356) -/
  | mres (n : DWord)
  /-- a stochastic request, completed by number (R376) -/
  | stream (n : DWord)
  /-- `fixq.retry` with entries that it matched still to be replayed: its address and tag (R335) -/
  | fixq (addr tag : Nat)
  deriving DecidableEq, Repr

/-- A long-latency word in flight (R27, R32, R80): its sources as read at issue, its lanes not yet done, and what it has
read so far, by register. -/
structure Flight where
  id     : Nat
  strand : Nat
  pc     : DWord
  header : DWord
  index  : Nat
  word   : Word
  agent  : Agent
  flag   : Option Nat
  op     : FlightOp
  /-- the lanes to be performed -/
  mask   : Mask
  /-- the lanes of MODE and guard, whole (for records) -/
  addr   : Lanes DWord
  data   : List (Lanes DWord)
  /-- first destination register code, and the width of one register: 32 or 64 -/
  dst    : BitVec 8
  wide   : Bool
  regs   : Nat
  /-- a run of registers: the first to be moved, and the first that is not (R168) -/
  first  : Nat
  stop   : Nat
  scope  : Nat
  acquire : Bool
  release : Bool
  /-- lanes still to be served by the block's own store, by another block, and by translation -/
  localL : Mask
  gangL  : Mask
  xlatL  : Mask
  pages  : Tbl XRes
  /-- the pages that faulted: space, first and last address, and the cause (R231) -/
  spans  : List (Bool × Nat × Nat × Cause × BitVec 512)
  reqs   : List Req
  got    : List (Lanes DWord)
  /-- the bytes of a word that moves an image or a shape register, lowest first -/
  image  : Nat
  /-- lanes that faulted, by cause -/
  bad    : List (Cause × Mask × Detail)
  ticket : Option Nat
  /-- promotion (R269): cores that have received the request, cores that have not, the latest clock answered, and whether the
  answers are still awaited -/
  asked  : List Nat
  asking : List Nat
  stamp  : BitVec 20
  promoting : Bool
  /-- its first position in program order, which a replay keeps (10 R254) -/
  pos    : Nat
  deriving DecidableEq, Repr

/-- Where a lot of a chain stands (R175, R182, R184, R189). -/
inductive Place where
  | station (c : Nat)
  /-- in motion from a hole, or waiting to land: gate (`true` the cap station), sclk at which its motion ends, touch sclk,
  core and partition of the touch, and whether the motion has ended -/
  | moving (ring : Nat) (hole : Option Nat) (cap : Bool) (ready touch : Nat) (core part : Nat) (ended : Bool)
  /-- a fill whose data has arrived: `true` for the insertion gate -/
  | arrived (stream : Bool) (ready touch : Nat) (core part : Nat)
  /-- a miss entry whose fill has not arrived -/
  | miss (stream : Bool) (touch : Nat) (core part : Nat) (reserved : Bool)
  deriving DecidableEq, Repr

/-- A leased copy (R198, R242): its lease end and its 256 bytes; its number; and, while its fill is pending, the bytes of the stores
that have joined it, each with its place in tag order (R190). -/
structure LeaseCopy where
  stop : BitVec 20
  data : List Byte
  id   : Nat
  late : List (Nat × Nat × Byte)
  deriving DecidableEq, Repr

/-- A lot held in a chain. -/
structure Lot where
  place : Place
  sub   : Nat
  dirty : Bool
  /-- a store has been merged since the last write of it began (R193, R194) -/
  stored : Bool
  copy  : Option LeaseCopy
  wts   : BitVec 20
  rts   : BitVec 20
  stamp : BitVec 20
  /-- the domain whose access brought it in (R202) -/
  dom   : BitVec 12
  deriving DecidableEq, Repr

/-- A write of a lot to its controller (R193, R194, R213, R499). `held`: the lot is in the entry; `entry`: it takes one of the
sub-chain's write-back entries; `dom`: the lot's domain (R202).  The writes of one lot are made in the order of the list. -/
structure WriteBack where
  lot     : Nat
  sub     : Nat
  started : Bool
  held    : Bool
  entry   : Bool
  dom     : BitVec 12
  deriving DecidableEq, Repr

/-- An entry of the pin table (R210). -/
structure Pin where
  lot   : Nat
  tag   : BitVec 13
  sub   : Nat
  count : Nat
  deriving DecidableEq, Repr

/-- What the locality predictor remembers of a coherent lot (R306). -/
structure Watch where
  core  : Nat
  count : Nat
  last  : Nat
  deriving DecidableEq, Repr

/-- A TLB entry (R230), for a page of the smaller of the two stages' sizes (R224). -/
structure TlbEntry where
  priv  : Bool
  /-- the page's first 64 KiB of virtual addresses, and the translation of those -/
  page  : Nat
  asid  : BitVec 16
  vmid  : BitVec 8
  ident : BitVec 12
  x     : Xlat
  gpa   : Nat
  gen   : Byte
  used  : Nat
  /-- the sizes of the two stages' pages, by the codes of R246 -/
  size1 : Nat
  size2 : Nat
  /-- what the walker has read of the domain frame table for it, by 2 MiB frame (R219, R228) -/
  frames : Tbl Nat
  deriving DecidableEq, Repr

/-- A write by a processor outside the cores that waits for room in the dirty ring (R236). `hub`: one of the hub's units makes it. -/
structure LateWrite where
  sp  : Space
  va  : Nat
  bs  : List Byte
  hub : Bool
  deriving DecidableEq, Repr

/-- A table entry in a walk cache (R230). -/
structure WalkEntry where
  pa    : Nat
  value : DWord
  asid  : BitVec 16
  vmid  : BitVec 8
  used  : Nat
  deriving DecidableEq, Repr

/-- A spiral chain with the rest of its cluster (07, R242, R244, R306). -/
structure Cluster where
  /-- the four sub-chain entries of R178 -/
  subs  : List (BitVec 128)
  lots  : Tbl Lot
  wbs   : List WriteBack
  pins  : List Pin
  mts   : BitVec 20
  clock : BitVec 20
  /-- ticks of the clock so far: DCLK div 1,024 when they are all made -/
  ticks : Nat
  /-- lots lent by this home: the borrowing cluster -/
  lent  : Tbl Nat
  watch : Tbl Watch
  tlb   : List TlbEntry
  walk  : List WalkEntry
  /-- last sclk in which each sub-chain made its front landings -/
  landed : Tbl Nat
  /-- the clk in which each sub-chain made its last tag lookups, from 1, and how many (R187) -/
  looked : Tbl (Nat × Nat)
  deriving DecidableEq, Repr

/-- A numbered barrier of a block (R285). -/
structure Barrier where
  phase         : Word
  strandsExpect : Nat
  seqExpect     : Nat
  nextExpect    : Option (Nat × Nat)
  arrivals      : Nat
  seqArrived    : Nat
  arrivedStrands : Mask
  pending       : DWord
  firstWait     : Option DWord
  /-- strands waiting on the current phase have been timed out (R291) -/
  expired       : Bool
  /-- sequencer reports of carried arrivals, merged when they count (R287) -/
  carried       : List DWord
  /-- per strand of the block: LANES and TOKEN -/
  lanes         : Tbl Mask
  token         : Tbl Word
  /-- carried arrivals: the strand of each, in order, and the place of the sequencer's last one with its stream's number (R288,
  R359) -/
  carry         : Tbl Nat
  seqCarry      : Option (Nat × DWord)
  /-- waits begun and not ended, by 2·strand + slot: the phase waited for (R293) -/
  waits         : Tbl Word
  deriving DecidableEq, Repr

/-- The finished or failed state of a segment of a copy (R321 to R324). -/
inductive SegState where
  | todo
  | done
  /-- a fix-up entry: replayed already, so held; its cause, side, address, fault span and tag (R323, R335) -/
  | fix (held : Bool) (cause : Cause) (dst : Bool) (addr : DWord) (lo hi : Nat) (asid : BitVec 16) (vmid : BitVec 8)
        (scanner : Bool)
  | error (cause : Cause) (dst : Bool) (addr : DWord)
  deriving DecidableEq, Repr

/-- A copy request, or a number reserved for a multicast deposit (R315, R329, R332). -/
structure CopyReq where
  n       : DWord
  strand  : Nat
  agent   : Agent
  src     : BitVec 512
  dst     : BitVec 512
  bytes   : Nat
  promise : DWord
  group   : Option Nat
  deposit : Bool
  inQueue : Bool
  segs    : List SegState
  finished : Bool
  /-- the first error in segment order: cause, side, address -/
  error   : Option (Cause × Bool × DWord)
  /-- the error has been raised (R325) -/
  raised  : Bool
  /-- a rejected miss of it: its age, the DCLK of its first tag slot, and the chain (07 R192) -/
  miss    : Option (Nat × DWord × Nat)
  /-- STRAND_ID and CTX_BASE of the strand that submitted it, for its events (R323) -/
  who     : Word
  ctx     : DWord
  deriving DecidableEq, Repr

/-- A block's context on the copy engine (R315). -/
structure CopyCtx where
  submitted : DWord
  tlc       : DWord
  reqs      : List CopyReq
  quota     : Nat
  /-- the first request with a side in a tract-peer region (R277) -/
  far       : Option DWord
  /-- the clocks of the multicasts whose deposits have completed requests here, which an acquire of TLC takes (10 R279) -/
  clocks    : List (DWord × BitVec 20)
  deriving DecidableEq, Repr

/-- A loop record of the sequencer (R344, R359). -/
structure LoopRec where
  start : DWord
  count : Word
  deriving DecidableEq, Repr

/-- The state a sequencer stream runs with (R344). -/
structure Stream where
  n      : DWord
  /-- SEQNO of the image that the stream starts from (R356) -/
  seqno  : Option Word
  strand : Nat
  agent  : Agent
  spc    : DWord
  /-- the word fetched at SPC and not yet performed -/
  ready  : Option Word
  /-- PROGRESS: the word in progress is valid, DEPTH, ROW, COL -/
  busy   : Bool
  depth  : Nat
  row    : Nat
  col    : Nat
  sq     : List Word
  fmt    : BitVec 24
  tiles  : Option (BitVec 24)
  bbase  : Option Word
  ascale : Option Nat
  bsbase : Option Word
  tsa    : Word
  tsb    : Word
  x      : List Word
  loops  : List LoopRec
  carry  : Word
  stok   : Tbl Word
  sg     : List Word
  /-- a `mres` image that is malformed halts the stream at its start (R356) -/
  malformed : Bool
  /-- `mres` has not read its image yet (R356) -/
  loading : Bool
  /-- UNIT of a report that the word in progress has made (R346) -/
  reported : List Nat
  /-- the barrier on which the word just ended arrived: the next word starts within the two clk of R288 -/
  arrived : Option Nat
  /-- its word was waiting when the image was written that it starts from (R356) -/
  waiting : Bool
  deriving DecidableEq, Repr

/-- What the running stream waits for: a barrier phase, and since when (R359, R348). -/
structure SeqWait where
  k     : Nat
  phase : Word
  since : DWord
  deriving DecidableEq, Repr

/-- A block's sequencer (R351). -/
structure Seq where
  submitted : DWord
  tlm       : DWord
  seqno     : Word
  running   : Option Stream
  queued    : List Stream
  /-- a halt in force, with its detail code (R348, R349) -/
  halt      : Option Nat
  wait      : Option SeqWait
  /-- completed out of the counter's order, and causes still to be raised (R347) -/
  finished  : List DWord
  causes    : List DWord
  /-- a cause that waits for its strand: the strand that started the stream, and the word's address (R41, R348) -/
  pend      : Option (Nat × Cause × DWord × Detail)
  /-- stopped for a `mabort` whose image is not written: the last request that it aborts (R355) -/
  aborting  : Option DWord
  deriving DecidableEq, Repr

/-- A stream register with its tag (R368, R369). -/
structure ZReg where
  bits : BitVec 4096
  /-- POISON of the stored stream -/
  poison : Bool
  /-- LEN and CLASSES, as the requests issued so far leave them (R375) -/
  len  : Nat
  classes : BitVec 16
  deriving DecidableEq, Repr

/-- A stochastic request (R373, R374): everything captured at issue. -/
structure ZReq where
  /-- the lanes whose sources were poisoned as the requests before it leave them (R375, R378) -/
  bad    : Mask
  n      : DWord
  flight : Nat
  strand : Nat
  word   : Word
  mask   : Mask
  lb     : Nat
  seeds  : List (BitVec 16)
  src    : Lanes Word
  acc    : Lanes Word
  type   : Nat
  /-- it has read its sources; what it writes to streams, by register, and to a vector register; and the index of its next stream
  word, in lane order (R374, R376, R377) -/
  begun  : Bool
  out    : List (Nat × Nat)
  vals   : Lanes DWord
  next   : Nat
  deriving DecidableEq, Repr

/-- A block's context on the stochastic engine (R368 to R373). -/
structure Stoch where
  lb    : Nat
  seeds : List (BitVec 16)
  z     : Tbl ZReg
  submitted : DWord
  tls   : DWord
  reqs  : List ZReq
  deriving DecidableEq, Repr

/-- An entry of a receive queue (R171): 128 bytes and a mask. -/
structure Edge where
  data : Lanes Word
  mask : Mask
  deriving DecidableEq, Repr

/-- An element of an accumulator bank (R337): its F32x code, and its poison mark. -/
structure Acc where
  code   : BitVec 34
  poison : Bool
  deriving DecidableEq, Repr

/-- A block in its slot (04 R69). -/
structure Block where
  tag     : BitVec 13
  launch  : Nat
  index   : Nat
  domSlot : Nat
  strands : Nat
  /-- SA and CA (R152) -/
  sa      : Nat
  ca      : Nat
  spadBase : Nat
  colBase : Nat
  tbase   : Nat
  tcount  : Nat
  abase   : Nat
  acount  : Nat
  zbase   : Nat
  zcount  : Nat
  /-- bytes of the local offset space; unlisted ones read as zero (R154) -/
  store   : Tbl Byte
  /-- poisoned words, by offset div 4 (R158) -/
  poison  : Tbl Unit
  /-- bits of its storage that are wrong, not found yet: what the check code can correct (`false`) or not (`true`).  Words by offset
  div 4 (R158), tile words by byte div 4, accumulator elements, streams, array cells by 128·row + column, and the words whose
  output path is wrong (14 R345, 16 R378).  No step of the package makes one (log entry 33) -/
  ecc     : Tbl Bool
  tileEcc : Tbl Bool
  accEcc  : Tbl Bool
  zEcc    : Tbl Bool
  cellEcc : Tbl Bool
  pathEcc : Tbl Unit
  barriers : Tbl Barrier
  /-- arrivals on groups: group, LANES and TOKEN of each strand (R297) -/
  groupLanes : Tbl Mask
  groupDone  : Tbl Mask
  groupToken : Tbl Nat
  /-- the strands that have arrived on a group in a phase, by 2·group + phase mod 2, with the phase (R292) -/
  groupIn    : Tbl (Nat × Mask)
  /-- waits on groups, by 2·strand + slot: group and phase (R293) -/
  groupWait  : Tbl (Nat × Nat)
  shapes  : Tbl (BitVec 512)
  copy    : CopyCtx
  seq     : Seq
  stoch   : Stoch
  tlx     : DWord
  tlxSubmitted : DWord
  tlxDone : List DWord
  /-- collectives that recorded REMOTE_GONE, with the peer, not raised yet (R475) -/
  tlxGone : List (DWord × Nat)
  /-- tiles: bytes at tile·32768 + 256·row + byte -/
  tiles   : Tbl Byte
  tilePoison : Tbl Unit
  /-- accumulators: element at bank·16384 + 128·row + column -/
  acc     : Tbl Acc
  /-- receive queues, by 4·link + channel (R171) -/
  edges   : Tbl (List Edge)
  limit   : Nat
  saveSlot : DWord
  /-- of a saved block: its strands with the keys they had, its words parked in flight, its own key, and the DCLK of the save
  (R427, R428, R442) -/
  savedStrands : List (Nat × Strand)
  savedFlights : List Flight
  savedKey : Nat
  savedAt  : DWord
  deriving DecidableEq, Repr

/-- A request of a partition's growth queue (R113, R115): what it needs, when it asked, and whether it refills a spilled
strand; `slot` is the fragment's slot, or whether a refill has been withdrawn. -/
structure GrowReq where
  strand : Nat
  slot   : Bool
  need   : BitVec 24
  age    : DWord
  refill : Bool
  deriving DecidableEq, Repr

/-- The slot time register of a domain slot (R424), with what the collector still waits for and the slice-miss count
(R426). -/
structure SlotTime where
  sliceEnd : DWord
  courses  : BitVec 3
  deadline : Word
  /-- SLICE_END has been reached and acted on -/
  reached  : Bool
  deriving DecidableEq, Repr

/-- A part of a core's scratchpad or column (R152, R155): its banks, and the bytes of each bank; a column has one bank here. -/
structure Area where
  col   : Bool
  bank  : Nat
  banks : Nat
  lo    : Nat
  hi    : Nat
  deriving DecidableEq, Repr

/-- A core (04 R69, 18 R395). -/
structure Core where
  dpr      : List (BitVec 1024)
  hintMiss : DWord
  /-- error log counters, 11 of the core and 11 of each slot (R456) -/
  errCore  : Tbl DWord
  errSlot  : Tbl DWord
  tlb      : List TlbEntry
  /-- release stamp register (R267) -/
  stamp    : BitVec 20
  /-- growth queues of the six partitions -/
  growth   : Tbl (List GrowReq)
  times    : List SlotTime
  sliceMiss : Tbl DWord
  /-- allotments returned and not yet cleared (R154) -/
  clearing : List Area
  outOfService : Bool
  /-- wires of the column bus wrong in the last beats, by group·72 + wire; wires marked failed (R453) -/
  wires    : Tbl Nat
  failed   : Tbl Unit
  /-- the last reading of each sensor and how often it has been repeated, and the sensors that have failed (R454) -/
  sensors  : Tbl (Int × Nat)
  sensorBad : Tbl Unit
  /-- the DCLKs of the last four uncorrectable column errors, latest first (R455) -/
  colErrors : List DWord
  /-- the array's pointer over block slots, the block slot served, and the frame slot it was granted in, from 1 (R342) -/
  arrayPtr  : Nat
  arrayFor  : Option Nat
  arraySlot : Nat
  /-- the same for the stochastic engine (R376) -/
  stochPtr  : Nat
  stochFor  : Option Nat
  stochSlot : Nat
  deriving DecidableEq, Repr

/-- What the next step does, when something outside has decided it (log entry 3). -/
inductive Turn where
  /-- a fragment's next move: fetch, clause start or body word -/
  | issue (strand : Nat) (slot : Bool)
  /-- a block's sequencer fetches or performs its next word -/
  | seq (block : Nat)
  /-- a step of the device -/
  | event (i : Instr)
  /-- only time passes -/
  | idle
  deriving DecidableEq, Repr

/-- A launch that a packet processor has accepted and not completed (R463 to R465). -/
structure Launch where
  id      : Nat
  queue   : Nat
  tower   : Nat
  seq     : DWord
  index   : DWord
  packet  : BitVec 512
  /-- the queue's descriptor as the acceptance read it (R457) -/
  desc    : BitVec 1024
  acceptDclk : DWord
  /-- started: barrier, acquire and group table done (R464) -/
  started : Bool
  /-- the launch's copy of the group table: member blocks as 8·gang + index (R77) -/
  groups  : Tbl (List Nat)
  /-- group phase counters, the members arrived, and the groups broken (R297, R298) -/
  groupPhase   : Tbl Nat
  groupArrived : Tbl (List Nat)
  groupBroken  : List Nat
  /-- the latest clock of an arrival on each group, which a departure acquires (10 R255) -/
  groupStamp   : Tbl (BitVec 20)
  /-- FIRST_WAIT of a group's present phase, and whether the phase has expired (R291, R441) -/
  groupFirst   : Tbl (DWord × Bool)
  /-- the next gang to be placed, and gangs waiting to be placed again (R450) -/
  nextGang : Nat
  /-- gangs to be placed again: number, and the cause and DETAIL of their kill -/
  relaunch : List (Nat × Nat × Nat)
  ended    : Nat
  relaunches : Nat
  /-- relaunch count of each gang (R450) -/
  relaunchCount : Tbl Nat
  /-- copy numbers reserved so far in members that are not placed yet (13 R329) -/
  reserved : Tbl Nat
  /-- STATUS and DETAIL, CAUSE, GANG of an outcome already fixed (R466) -/
  outcome  : Option (Nat × Nat × Nat × Nat)
  unplaceable : Bool
  /-- the clock that the launch has acquired, and the latest clock of its ended blocks (R464, R465) -/
  startStamp : Option (BitVec 20)
  endStamp   : Option (BitVec 20)
  deriving DecidableEq, Repr

/-- A gang in being (04 R75), live or saved. -/
structure Gang where
  tag     : BitVec 13
  launch  : Nat
  number  : Nat
  queue   : Nat
  tract   : Nat
  /-- keys of its live blocks -/
  blocks  : List Nat
  relaunchable : Bool
  /-- its saved blocks, with what the part keeps of them in its own format (R428, R431) -/
  saved   : List Block
  /-- the domain of its launch -/
  ident   : BitVec 12
  /-- the cause of a kill under way, and whether it is relaunched (R449, R450) -/
  killed  : Option (Nat × Nat)
  /-- to be placed again from its saved blocks as soon as it fits: by R455, or by op 6 (R470) -/
  moving  : Bool
  deriving DecidableEq, Repr

/-- A block's place, reserved on a core (R73): its key, the block as it will start, its strands' keys by number, and the
granules of each. -/
structure Seat where
  key      : Nat
  block    : Block
  strands  : List Nat
  granules : Nat
  deriving DecidableEq, Repr

/-- A placement unit at work (R73, R74). -/
structure PlaceUnit where
  launch   : Nat
  gang     : Nat
  attempts : Nat
  reserved : Option (List Seat)
  retryAt  : DWord
  deriving DecidableEq, Repr

/-- A store to a peer region that the peer has not confirmed (R241). -/
structure PeerStore where
  id     : Nat
  strand : Nat
  tract  : Nat
  peer   : Nat
  lanes  : Nat
  launch : Nat
  /-- the gang that made it -/
  gang   : BitVec 13
  /-- the place of its word in program order (R248) -/
  pos    : Nat
  /-- the block and the number of the copy request that made it, if one did (13 R322, 10 R277) -/
  copy   : Option (Nat × DWord)
  deriving DecidableEq, Repr

/-- A second-stage fault that has gone to a tract's hypervisor (R225, R323): of a strand, or of copy request `request`, with the
virtual address and the detail of R225. -/
structure HyperFault where
  tract    : Nat
  strandId : Word
  ctxBase  : DWord
  request  : DWord
  addr     : DWord
  detail   : BitVec 512
  deriving DecidableEq, Repr

/-- A job of the dirty-page scanner (R236, R237). -/
structure ScanJob where
  id    : Nat
  tract : Nat
  va    : DWord
  frame : DWord
  entry : DWord
  asid  : BitVec 16
  size  : Nat
  /-- the physical address of the leaf and the value that the scanner left there (R237 step 1) -/
  leafAt : Nat
  leaf  : DWord
  /-- the physical ranges of the page: base and length (R224) -/
  parts : List (Nat × Nat)
  /-- the address of the job in its ring (R239, R472) -/
  jobAt : DWord
  deriving DecidableEq, Repr

/-- A service entry whose reply is awaited (R434, R460). -/
structure Service where
  queue  : Nat
  entry  : DWord
  strand : Nat
  /-- the strand's context image -/
  ctx    : DWord
  run    : Nat
  mask   : Mask
  saved  : Bool
  /-- the gang of the strand, and the translation of its image (R457) -/
  tag    : BitVec 13
  space  : Space
  deriving DecidableEq, Repr

/-- A `dpset` not yet in force (R411). -/
structure Setting where
  id     : Nat
  kind   : Nat
  target : Nat
  index  : Nat
  image  : BitVec 1024
  due    : DWord
  deriving DecidableEq, Repr

/-- A deposit of a multicast that is still to be written (R329, R330). -/
structure Deposit where
  id     : Nat
  launch : Nat
  /-- 8·gang + gang-relative index of the member -/
  member : Nat
  src    : BitVec 512
  dst    : BitVec 512
  n      : DWord
  /-- bytes read so far, by canonical byte, and the segments still to be read -/
  data   : Tbl Byte
  left   : Nat
  /-- the submitting block's request, which this deposit completes a part of -/
  owner  : Nat
  ownerN : DWord
  /-- the clock of the submitter's cluster (10 R279) -/
  stamp  : BitVec 20
  deriving DecidableEq, Repr

/-- A pre-emption of a domain slot of a cluster under way (R425, R426). -/
structure Preempt where
  cluster : Nat
  slot    : Nat
  /-- 0 drain, 1 save, 2 discard -/
  course  : Nat
  start   : DWord
  /-- started by op 5: CMD_STATUS is busy until it is over -/
  command : Bool
  /-- the gangs concerned, when it is not all of the slot's (R455) -/
  only    : Option (List (BitVec 13))
  /-- the gangs that its discard has killed, whose stores it waits for (R429) -/
  killed  : List (BitVec 13)
  deriving DecidableEq, Repr

/-- A collective operation of the hub (R475). -/
structure Collective where
  block  : Nat
  number : DWord
  op     : Nat
  src    : DWord
  dst    : DWord
  bytes  : Nat
  set    : Nat
  strand : Nat
  agent  : Agent
  deriving DecidableEq, Repr

/-- The registers of the control window (R469). -/
structure Control where
  busy      : Bool
  refused   : Bool
  qdBase    : DWord
  fbBase    : List DWord
  fbAck     : List DWord
  eventBase : DWord
  eventAck  : DWord
  hartClass : DWord
  tractBase : DWord
  telemetry : DWord
  /-- the queue whose launches op 8 is ending (R470) -/
  aborting  : Option Nat
  /-- the gangs whose kill op 4 or op 7 waits for, the core that op 7 is emptying, and the gang that op 6 is placing (R470) -/
  killing   : List (BitVec 13)
  outing    : Option Nat
  placing   : Option (BitVec 13)
  deriving DecidableEq, Repr

/-- What an agent outside the cores got for its last access (21 R448, 22 R474, 10 R275): a hart `done` with the value read (0 for a
store), a load access fault for poisoned data, or an access fault; the host or a peer a completion, a poisoned one, or none. -/
inductive Answer where
  | done (value : DWord)
  | poisoned
  | refused
  deriving DecidableEq, Repr

/-- The numbers of the outside agents in `State.answers`: harts 0 to 31, the host, and peers by 256·tract + peer. -/
def hostAgent : Nat := 32
def peerAgent : Nat := 64

/-- Boot, power and faults of the package (21, 24). -/
structure Board where
  /-- boot stage (R493): 0 in reset, 1 the boot processor runs, 2 the kernel runs, 3 recovery mode -/
  stage     : Nat
  version   : DWord
  rollback  : DWord
  /-- issue-hold level of R497 -/
  hold      : Nat
  /-- the DCLK of its last change, and since when the condition has been clear -/
  holdSince : DWord
  clearSince : Option DWord
  /-- the hold stands for the power cap (R496) -/
  capped    : Bool
  stopped   : Bool
  /-- slot A of the boot flash, when a recovery image has been written there (R493) -/
  slotA     : Option BootImage
  /-- the out-of-service list of the boot processor's own store (R455) -/
  outList   : List Nat
  /-- stacks that failed at boot: their frames are not in the physical map (R493) -/
  badStacks : List Nat
  /-- SHA-384 of the running firmware image, and of the resident kernel's as loaded (R494, R495) -/
  firmware  : BitVec 384
  kernel    : BitVec 384
  deriving DecidableEq, Repr

/-- The whole package. -/
structure State where
  /-- device time (R3) -/
  dclk    : DWord
  /-- bytes of HBM4E: the value at each byte's point of performance (R252); an unlisted byte reads as
  `Config.unlistedByte` -/
  mem     : Tbl Byte
  /-- poisoned 32-byte granules of HBM4E, by address div 32 (R195, R447) -/
  poison  : Tbl Unit
  /-- granules with bits that are wrong, not found yet: what the check code can correct (`false`) or not (`true`) (07 R195, 21 R447).
  No step of the package makes one (log entry 33) -/
  ecc     : Tbl Bool
  /-- granules that patrol scrub has marked in memory while a chain holds their lot, by address div 32 (21 R447) -/
  scrubbed : Tbl Unit
  /-- strands, by core·96 + partition·16 + slot -/
  strands : Tbl Strand
  /-- blocks, by core·8 + block slot -/
  blocks  : Tbl Block
  cores   : Tbl Core
  clusters : Tbl Cluster
  /-- holders of private frames, by frame number (R197) -/
  holders : Tbl Nat
  /-- generations of peer entries already seen gone are in the peer table; unacknowledged peer stores (R241) -/
  peerStores : List PeerStore
  hyper    : List HyperFault
  /-- the domain that the kernel has given to each VMID of the sandboxes (22 R474, log entry 73) -/
  hartDom  : Tbl (BitVec 12)
  /-- the last answer that each outside agent has had (R448, R474) -/
  answers : Tbl Answer
  /-- writes that wait for room in a dirty ring (R236) -/
  late     : List LateWrite
  /-- tract descriptors as they stood when their fields last took effect, by 2·tract for those that gangs hold, and 2·tract + 1 for
  those of the dirty ring (R219) -/
  latched  : Tbl (BitVec 2048)
  /-- external stamp (R274) -/
  extStamp : BitVec 20
  /-- the latest clock released by a completed launch (R465) -/
  procStamp : BitVec 20
  /-- the latest clock of a strand's release at `.d` or `.x`, all of which a processor observes (R464) -/
  relStamp : BitVec 20
  flights : List Flight
  nextFlight : Nat
  /-- the next number in tag order of a leased access of a cluster, from 1 (R190, R265) -/
  nextOrder : Nat
  /-- the global sequencer's next ticket (R270) -/
  nextTicket : Nat
  sealed  : List Word
  control : Control
  /-- notify registers by queue (R458) -/
  notify  : Tbl DWord
  /-- the queue after the one whose packet each tower's processor accepted last (R458) -/
  lastQueue : Tbl Nat
  /-- next SEQ of each tower's field book (R467) -/
  nextSeq : List DWord
  launches : List Launch
  nextLaunch : Nat
  gangs   : List Gang
  /-- placement units by number 0 to 7: four of each tower; the unit that holds a tower's token -/
  units   : Tbl PlaceUnit
  tokens  : Tbl Nat
  /-- the tags whose pins are being freed (R212) -/
  pinRelease : List (BitVec 13)
  /-- events written, and events held while the ring is full (R472) -/
  eventProd : DWord
  eventHeld : List (BitVec 512)
  services : List Service
  settings : List Setting
  deposits : List Deposit
  preempts : List Preempt
  collectives : List Collective
  scans   : List ScanJob
  /-- jobs outside every backing region (R236) -/
  scanDropped : DWord
  /-- tracts being torn down (R451) -/
  teardowns : List Nat
  /-- the tract of a checkpoint in progress (R476) -/
  checkpoint : Option Nat
  board   : Board
  /-- barriers whose phase is complete and has not flipped: block, barrier, and the DCLK of the flip (R288) -/
  flips   : List (Nat × Nat × DWord)
  /-- the model's own fields (log entries 3 and 4): what the next steps do, whose word is being executed, and the counter of
  the free values -/
  agenda  : List Turn
  cur     : Nat
  curSlot : Bool
  fresh   : Nat
  /-- R81: the fragment slot at which each partition's scan starts, and the partition that moved last (log entry 3) -/
  rot     : Tbl Nat
  lastPart : Nat
  deriving DecidableEq, Repr

/-- A sub-chain entry at reset (R178). -/
def resetSubs : List (BitVec 128) :=
  -- FRONT_SLOTS all ones; PIN_QUOTA 2,048; DOMAIN 0; RINGS 7; VALID 1
  [BitVec.ofNat 128 (0xFFFF_FFFF_FFFF * 2 ^ 64 + 2048 * 2 ^ 48 + 7 * 2 + 1), 0, 0, 0]

/-- DPR0 at reset (R395): domain 0 holds every resource. -/
def resetDpr0 : BitVec 1024 :=
  BitVec.ofNat 1024
    (15 * 2 ^ 164 + 15 * 2 ^ 160 + 0xFFFF * 2 ^ 144 + 0xFFFF * 2 ^ 128 + 15 * 2 ^ 120 + 64 * 2 ^ 110 + 8 * 2 ^ 99 +
      16 * 2 ^ 88 + 384 * 2 ^ 73 + 256 * 2 ^ 40 + 2 ^ 31 + 2 ^ 26 + 2 ^ 25 + 0x3F * 2 ^ 16)

/-- A slot time register at reset (R424): the slice never ends. -/
def resetTime : SlotTime := ⟨0xFFFF_FFFF_FFFF_FFFF#64, 0b010#3, 0, false⟩

/-- A core at reset (24 R492). -/
def Core.reset : Core where
  dpr := [resetDpr0, 0, 0, 0]
  hintMiss := 0
  errCore := []
  errSlot := []
  tlb := []
  stamp := 0
  growth := []
  times := [resetTime, resetTime, resetTime, resetTime]
  sliceMiss := []
  clearing := []
  outOfService := false
  wires := []
  failed := []
  sensors := []
  sensorBad := []
  colErrors := []
  arrayPtr := 0
  arrayFor := none
  arraySlot := 0
  stochPtr := 0
  stochFor := none
  stochSlot := 0

/-- A cluster at reset: every station empty (R177), TLBs empty. -/
def Cluster.reset : Cluster where
  subs := resetSubs
  lots := []
  wbs := []
  pins := []
  mts := 0
  clock := 0
  ticks := 0
  lent := []
  watch := []
  tlb := []
  walk := []
  landed := []
  looked := []

/-- The control window at reset (R469; log entry 6). -/
def Control.reset : Control where
  busy := false
  refused := false
  qdBase := 0
  fbBase := [0, 0]
  fbAck := [0, 0]
  eventBase := 0
  eventAck := 0
  hartClass := 0
  tractBase := 0
  telemetry := 0
  aborting := none
  killing := []
  outing := none
  placing := none

/-- The package right after reset (24 R492).  What the spec states no reset value for, the pointer of R81 among it, has the value of log
entry 6 (DESIGN CHOICE). -/
def State.reset : State where
  dclk := 0
  mem := []
  poison := []
  ecc := []
  scrubbed := []
  strands := []
  blocks := []
  cores := []
  clusters := []
  holders := []
  peerStores := []
  hyper := []
  hartDom := []
  answers := []
  late := []
  latched := []
  extStamp := 0
  procStamp := 0
  relStamp := 0
  flights := []
  nextFlight := 0
  nextOrder := 1
  nextTicket := 0
  sealed := List.replicate 16 0
  control := Control.reset
  notify := []
  lastQueue := []
  nextSeq := [0, 0]
  launches := []
  nextLaunch := 0
  gangs := []
  units := []
  tokens := []
  pinRelease := []
  eventProd := 0
  eventHeld := []
  services := []
  settings := []
  deposits := []
  preempts := []
  collectives := []
  scans := []
  scanDropped := 0
  teardowns := []
  checkpoint := none
  board := ⟨0, 0, 0, 0, 0, none, false, false, none, [], [], 0, 0⟩
  flips := []
  agenda := []
  cur := 0
  curSlot := false
  fresh := 0
  rot := []
  lastPart := 0

end Sys2Proof.Machine
end

