-- ==== Sys2Proof/Machine/Operands.lean ====
section
/-!
DEFINITION. The operands of strand words: the fields of MODE (04 R97), the registers of a strand (05 R109 to R121), and how
a code is read and written in every form (02 R16 to R21, 05 R126 to R128).
Lane values are natural numbers below 2^32 or 2^64, lane 0 first.
-/
namespace Sys2Proof.Machine

/-- The values of one operand in the 32 lanes. -/
abbrev Vals := List Nat

def Vals.at (v : Vals) (L : Nat) : Nat := v.getD L 0
def Vals.gen (f : Nat → Nat) : Vals := (List.range 32).map f
def Vals.ofLanes (v : Lanes Word) : Vals := v.map BitVec.toNat
def Vals.ofLanes64 (v : Lanes DWord) : Vals := v.map BitVec.toNat
def Vals.lanes64 (v : Vals) : Lanes DWord := v.map (BitVec.ofNat 64)

/-- The fields of MODE (R97). -/
def modeType (m : Word) : Nat := m.toNat % 16
def modeRnd (m : Word) : Nat := m.toNat / 16 % 8
def modeSat (m : Word) : Bool := m.getLsbD 7
def modeGuard (m : Word) : Nat := m.toNat / 256 % 16
def modeSense (m : Word) : Bool := m.getLsbD 12
def modeBcast (m : Word) : Nat := m.toNat / 8192 % 4
def modeBcastFirst (m : Word) : Bool := m.getLsbD 15
def modeBcastLane (m : Word) : Nat := m.toNat / 65536 % 32
def modeSig (m : Word) : Bool := m.getLsbD 21
def modeLeaScale (m : Word) : Nat := m.toNat / 16777216 % 8

/-- R100: a MODE that holds no reserved value. -/
def modeOk (m : Word) : Bool :=
  modeType m < 12 && modeRnd m < 6 && modeBcast m != 3 && m.toNat / 4194304 % 4 == 0 && m.toNat / 134217728 == 0

/-- Predicate `n`: p0 reads as all ones (R120). -/
def Strand.pred (st : Strand) (n : Nat) : Mask := if n = 0 then Mask.all else Tbl.get 0 st.p n

/-- R120: writes the bits of `m` of predicate `n`; a write to p0 is discarded. -/
def Strand.setPred (st : Strand) (n : Nat) (m bits : Mask) : Strand :=
  if n = 0 then st
  else { st with p := Tbl.set 0 st.p n ((Tbl.get 0 st.p n &&& ~~~m) ||| (bits &&& m)) }

/-- The register of a v or o code. -/
def Strand.reg (st : Strand) (c : Nat) : Lanes Word :=
  if c < 192 then Tbl.get Lanes.zero st.v c else Tbl.get Lanes.zero st.o (c - 192)

/-- Writes the lanes of `m` of a v or o code; a vector register in no granule of the strand keeps nothing (R116). -/
def Strand.setReg (st : Strand) (c : Nat) (m : Mask) (v : Vals) : Strand :=
  let new := Lanes.gen (fun L => if Mask.has m L then BitVec.ofNat 32 (v.at L) else Lanes.at 0 (st.reg c) L)
  if c < 192 then
    if st.granules.getLsbD (c / 8) then { st with v := Tbl.set Lanes.zero st.v c new } else st
  else { st with o := Tbl.set Lanes.zero st.o (c - 192) new }

/-- Writes a register, or a pair named by its even register (R4). -/
def Strand.setRegs (st : Strand) (wide : Bool) (c : Nat) (m : Mask) (v : Vals) : Strand :=
  let st := st.setReg c m (v.map (· % 2 ^ 32))
  if wide then st.setReg (c + 1) m (v.map (· / 2 ^ 32)) else st

/-- A register or pair. -/
def Strand.regs (st : Strand) (wide : Bool) (c : Nat) : Vals :=
  if wide then
    List.zipWith (fun lo hi => lo + hi * 2 ^ 32) (Vals.ofLanes (st.reg c)) (Vals.ofLanes (st.reg (c + 1)))
  else Vals.ofLanes (st.reg c)

/-- The latch of pipe 0 or 1. -/
def Strand.latch (st : Strand) (one : Bool) : Lanes DWord := if one then st.l1 else st.l0

/-- R118, R19: writes the lanes of `m` of a latch with a whole result. -/
def Strand.setLatch (st : Strand) (one : Bool) (m : Mask) (v : Vals) : Strand :=
  let new := Lanes.gen (fun L => if Mask.has m L then BitVec.ofNat 64 (v.at L) else Lanes.at 0 (st.latch one) L)
  if one then { st with l1 := new } else { st with l0 := new }

/-- The allotment of a strand in registers (R110). -/
def Strand.allotment (st : Strand) : Nat := 8 * bitLen st.granules.toNat

/-- R20, R18: a constant code as the value it has in a position: elements of TYPE for a type-generic word, else a 32-bit or
64-bit pattern. -/
def constValue (generic : Bool) (t : Nat) (wide : Bool) (n : Int) : Nat :=
  if generic then constElems t n else if wide then ofInt 64 n else ofInt 32 n

/-- A source code read in every lane (R16, R18 to R20), before any broadcast. -/
def Strand.source (st : Strand) (generic : Bool) (t : Nat) (wide : Bool) (c : Nat) : Vals :=
  if c < 208 then st.regs wide c
  else if c = 208 || c = 209 then
    (Vals.ofLanes64 (st.latch (c == 209))).map (fun x => if wide then x else x % 2 ^ 32)
  else if c = 210 then Vals.gen (fun _ => 0)
  else if c = 211 then Vals.gen (fun L => constValue generic t wide L)
  else Vals.gen (fun _ => constValue generic t wide ((c : Int) - 240))

/-- The lanes that the guard selects (R126). -/
def guardMask (st : Strand) (mode : Word) : Mask :=
  let p := st.pred (modeGuard mode)
  if modeSense mode then ~~~p else p

/-- R127: every lane reads the source lane's value. -/
def broadcast (mode : Word) (act : Mask) (pos : Nat) (v : Vals) : Vals :=
  if modeBcast mode = pos then
    let lane := if modeBcastFirst mode then act.lowest else some (modeBcastLane mode)
    match lane with
    | some S => Vals.gen (fun _ => v.at S)
    | none => v
  else v

/-- The active mask of a word (R38, R126): the whole mask of the fragment for the words that disregard the guard, and only
the lanes of a reissue where a lane-wise cause limits the word (R415). -/
def activeMask (st : Strand) (f : Frag) (op : Nat) : Mask :=
  let m := if wholeMaskOp op then f.mask else f.mask &&& guardMask st f.mode
  match f.only with
  | some o => m &&& o
  | none => m

/-- Length of a run of q register `n` (R67). -/
def packLen (f : Frag) (n : Nat) : Nat := packCount (f.q.getD n 0)

/-- R38 step 4 with R17: the operand codes of a word are legal for the strand under its MODE. -/
def codesOk (st : Strand) (f : Frag) (i : Instr) : Bool :=
  let t := modeType f.mode
  let wide := type64 t
  let idx := t == 6 || t == 7
  fieldsOk i &&
  (operandsOf i).all (fun p =>
    let c := p.2.toNat
    codeOk wide idx (packLen f) p.1 c &&
    (c ≥ 208 || heldIn st.granules c (Role.count wide idx (packLen f) p.1)))

/-- Every v and o register a word names, and its latches, for the scoreboard (R80). -/
def regsOf (f : Frag) (i : Instr) : List Nat :=
  let t := modeType f.mode
  let wide := type64 t
  let idx := t == 6 || t == 7
  (operandsOf i).flatMap (fun p =>
    let c := p.2.toNat
    if c < 208 then (List.range (Role.count wide idx (packLen f) p.1)).map (· + c) else [])

end Sys2Proof.Machine
end

