-- ==== Sys2Proof/Machine/Memory.lean ====
section
/-!
DEFINITION. The bytes of HBM4E and their poison marks (08 R214, 00 R4, 21 R447), and the lookup of the parts of the package
by number.
-/
namespace Sys2Proof.Machine

/-- R214: the physical address lies in this package's HBM4E. -/
def inHbm (pa : Nat) : Bool := decide (pa < Config.hbmBytes)
/-- R493, R214: an address of HBM4E that is in the physical map: every frame of a tower has bytes in each of its six stacks (R215), and
none is there when one of them has failed (log entry 70). -/
def State.inMap (s : State) (pa : Nat) : Bool := inHbm pa && s.board.badStacks.all (fun k => k / 6 != pa / 0x60_0000_0000)
/-- R214: the physical address lies in a tract-peer region. -/
def inPeer (pa : Nat) : Bool :=
  decide (2 ^ 51 ≤ pa) && decide (pa < 2 ^ 52) && decide (pa % 2 ^ 43 < Config.hbmBytes)
/-- R214: the peer index of an address of a tract-peer region. -/
def peerOf (pa : Nat) : Nat := pa / 2 ^ 43 % 256

/-- One byte of HBM4E. -/
def State.byte (s : State) (a : Nat) : Byte := Tbl.get Config.unlistedByte s.mem a

/-- Writes one byte of HBM4E. -/
def State.setByte (s : State) (a : Nat) (b : Byte) : State := { s with mem := Tbl.set Config.unlistedByte s.mem a b }

/-- `n` bytes, the lowest address in the low bits (R4). -/
def State.readN (s : State) (a : Nat) : Nat → Nat
  | 0 => 0
  | n + 1 => (s.byte a).toNat + 256 * s.readN (a + 1) n

/-- Writes the low `n` bytes of `v` (R4). -/
def State.writeN (s : State) (a : Nat) : Nat → Nat → State
  | 0, _ => s
  | n + 1, v => State.writeN (s.setByte a (BitVec.ofNat 8 v)) (a + 1) n (v / 256)

/-- Writes the listed bytes. -/
def State.writeList (s : State) : List (Nat × Byte) → State
  | [] => s
  | (a, b) :: r => State.writeList (s.setByte a b) r

/-- R447: the granule of an address is marked. -/
def State.poisoned (s : State) (a : Nat) : Bool := (Tbl.find s.poison (a / 32)).isSome
def State.mark (s : State) (granule : Nat) : State := { s with poison := Tbl.put s.poison granule () }
/-- A granule written whole has neither a mark nor wrong bits. -/
def State.unmark (s : State) (granule : Nat) : State := { s with poison := Tbl.del s.poison granule, ecc := Tbl.del s.ecc granule }

/-- R447: a store of the listed bytes clears the mark of a granule that it covers whole. -/
def State.storeList (s : State) (bs : List (Nat × Byte)) : State :=
  let s1 := s.writeList bs
  let whole (g : Nat) := (List.range 32).all (fun j => bs.any (fun p => p.1 == 32 * g + j))
  ((bs.map (fun p => p.1 / 32)).eraseDups.filter whole).foldl State.unmark s1

/-- Strands by key: core·96 + partition·16 + slot. -/
def strandKey (core part slot : Nat) : Nat := core * 96 + part * 16 + slot
def coreOf (key : Nat) : Nat := key / 96
def partOf (key : Nat) : Nat := key / 16 % 6
/-- R70: the cluster of a core. -/
def clusterOf (core : Nat) : Nat :=
  12 * (core / 96) + 3 * (core % 96 / 12 / 2) + core % 96 % 12 / 4
/-- The cluster-core index used by R184: its place among the eight cores of a cluster, in rising core number. -/
def clusterIndex (core : Nat) : Nat := (core % 96 / 12 % 2) * 4 + core % 12 % 4

def State.strand (s : State) (k : Nat) : Option Strand := Tbl.find s.strands k
def State.setStrand (s : State) (k : Nat) (st : Strand) : State := { s with strands := Tbl.put s.strands k st }
def State.modStrand (s : State) (k : Nat) (f : Strand → Strand) : State := { s with strands := Tbl.modify s.strands k f }
def State.block (s : State) (k : Nat) : Option Block := Tbl.find s.blocks k
def State.setBlock (s : State) (k : Nat) (b : Block) : State := { s with blocks := Tbl.put s.blocks k b }
def State.modBlock (s : State) (k : Nat) (f : Block → Block) : State := { s with blocks := Tbl.modify s.blocks k f }
def State.core (s : State) (c : Nat) : Core := Tbl.get Core.reset s.cores c
def State.setCore (s : State) (c : Nat) (x : Core) : State := { s with cores := Tbl.set Core.reset s.cores c x }
def State.cluster (s : State) (c : Nat) : Cluster := Tbl.get Cluster.reset s.clusters c
def State.setCluster (s : State) (c : Nat) (x : Cluster) : State := { s with clusters := Tbl.set Cluster.reset s.clusters c x }
def State.flight (s : State) (id : Nat) : Option Flight := s.flights.find? (fun f => f.id == id)
def State.setFlight (s : State) (f : Flight) : State :=
  { s with flights := s.flights.map (fun g => if g.id = f.id then f else g) }
def State.dropFlight (s : State) (id : Nat) : State := { s with flights := s.flights.filter (fun g => g.id != id) }

/-- Bits [hi:lo] of a value. -/
def bits (n hi lo : Nat) : Nat := n / 2 ^ lo % 2 ^ (hi - lo + 1)

/-- The DPR of a slot of a core (R395), as a number. -/
def State.dpr (s : State) (core slot : Nat) : Nat := ((s.core core).dpr.getD slot 0).toNat

/-! ### What holds the bytes of a lot -/

def Cluster.lot (c : Cluster) (lot : Nat) : Option Lot := Tbl.find c.lots lot
/-- The write entry that holds a lot (R193). -/
def Cluster.heldWb (c : Cluster) (lot : Nat) : Option WriteBack := c.wbs.find? (fun w => w.lot == lot && w.held)

/-- The chain holds the lot's bytes: at a station, in motion, landing, or in a write-back entry. -/
def Cluster.stands (c : Cluster) (lot : Nat) : Bool :=
  (c.heldWb lot).isSome ||
  (match (c.lot lot).map Lot.place with
    | some (.miss ..) | none => false
    | _ => true)
/-- R447: bytes that no chain holds are reached in memory, where scrub may have marked their granules. -/
def State.reveal (s : State) (as : List Nat) : State :=
  ((as.map (· / 32)).eraseDups).foldl (fun s g =>
    if (Tbl.find s.scrubbed g).isSome && !s.clusters.any (fun p => p.2.stands (g / 8)) then
      { s.mark g with scrubbed := Tbl.del s.scrubbed g }
    else s) s
/-- The granules of a lot have been written in memory. -/
def State.rewritten (s : State) (lot : Nat) : State :=
  { s with scrubbed := (List.range 8).foldl (fun t j => Tbl.del t (8 * lot + j)) s.scrubbed }

/-- R447: a granule reads as marked: it is, its code finds an error that it cannot correct, or scrub has marked it in memory and no chain
holds its lot. -/
def State.lostAt (s : State) (a : Nat) : Bool :=
  s.poisoned a || Tbl.find s.ecc (a / 32) == some true ||
  ((Tbl.find s.scrubbed (a / 32)).isSome && !s.clusters.any (fun p => p.2.stands (a / 256)))
/-- R448: none of `n` bytes lies in such a granule. -/
def State.clean (s : State) (a n : Nat) : Bool := (List.range ((a + n + 31) / 32 - a / 32)).all (fun j => !s.lostAt (a / 32 * 32 + 32 * j))
/-- R447: the bytes of a list are read: a granule that its code does not correct is marked. -/
def State.checkMemory (s : State) (as : List Nat) : State :=
  ((as.map (· / 32)).eraseDups).foldl (fun s g =>
    if Tbl.find s.ecc g = some true then { s.mark g with ecc := Tbl.del s.ecc g } else s) s
/-- R447: writes the low `n` bytes of `v`, and clears the marks of the granules that they cover whole. -/
def State.storeN (s : State) (a n v : Nat) : State :=
  let g := (a + 31) / 32
  (List.range ((a + n) / 32 - g)).foldl (fun s j => s.unmark (g + j)) (s.writeN a n v)

/-- A 64-bit free value, and the state that has used it (log entry 4). -/
def State.freshDWord (s : State) : DWord × State := (Config.freeDWord s.fresh, { s with fresh := s.fresh + 1 })

/-- R219: the 256 bytes of a tract descriptor. -/
def State.tractAt (s : State) (t : Nat) : Nat := s.control.tractBase.toNat + 256 * t
/-- A field of the descriptor as it stands in memory. -/
def State.tractNow (s : State) (t hi lo : Nat) : Nat := bits (s.readN (s.tractAt t) 256) hi lo
/-- R219: a gang of the tract is placed or saved. -/
def State.tractBusy (s : State) (t : Nat) : Bool :=
  s.gangs.any (fun g => g.tract == t && (!g.blocks.isEmpty || !g.saved.isEmpty))
/-- R219: where the value of a field is held back: CLUSTERS and the table bases while gangs are placed or saved, the place and size
of the dirty ring while it holds jobs. -/
def State.tractHeld (s : State) (t hi lo : Nat) : Option (BitVec 2048) :=
  if hi ≤ 23 || (512 ≤ lo && hi ≤ 767) then (if s.tractBusy t then Tbl.find s.latched (2 * t) else none)
  else if 828 ≤ lo && hi ≤ 895 then
    (if s.tractNow t 959 896 = s.tractNow t 1023 960 then none else Tbl.find s.latched (2 * t + 1))
  else none
/-- R219: a field of a tract descriptor, as it is in effect. -/
def State.tractField (s : State) (t hi lo : Nat) : Nat :=
  match s.tractHeld t hi lo with
  | some d => bits d.toNat hi lo
  | none => s.tractNow t hi lo
/-- R219: the descriptor as it stands is the one in effect under key `k`. -/
def State.latchTract (s : State) (k : Nat) : State :=
  { s with latched := Tbl.put s.latched k (BitVec.ofNat 2048 (s.readN (s.tractAt (k / 2)) 256)) }

/-- R457: the 128 bytes of a queue descriptor. -/
def State.queueAt (s : State) (q : Nat) : Nat := s.control.qdBase.toNat + 128 * q
def State.queueField (s : State) (q hi lo : Nat) : Nat := bits (s.readN (s.queueAt q) 128) hi lo

end Sys2Proof.Machine
end

