-- ==== Sys2Proof/Machine/Walk.lean ====
section
/-!
DEFINITION. Translation (08 R217 to R232): the two-stage walk, the checks of R226 in their order, the setting of ACCESSED and
DIRTY, the dirty ring, and the TLBs with the walk cache.
-/
namespace Sys2Proof.Machine

/-- The access kinds of R227. -/
inductive Access where
  | fetch | read | write | both
  deriving DecidableEq, Repr

def Access.needsR : Access → Bool
  | .read | .both => true
  | _ => false
def Access.needsW : Access → Bool
  | .write | .both => true
  | _ => false
/-- The access code of DETAIL (R419). -/
def Access.code : Access → Nat
  | .fetch => 0
  | .read => 1
  | .write => 2
  | .both => 3

/-- The space of an agent's global window, or of its private space. -/
def Agent.space (a : Agent) (priv : Bool) : Space where
  priv := priv
  tract := a.tract
  vmid := a.vmid
  asid := if priv then a.pasid else a.asid
  root := if priv then a.proot.toNat else a.groot.toNat
  ident := a.ident
  sealed := a.sealed
  sys := false

/-- A leaf entry that a walk used: its physical address, its value and its level. -/
structure Leaf where
  at_   : Nat
  value : Nat
  level : Nat
  deriving DecidableEq, Repr

/-- How a second-stage walk ends: a physical address, or the level that failed and whether it was malformed. -/
inductive Walk2 where
  | ok (pa : Nat) (leaf : Option Leaf) (seen : List (Nat × Nat))
  | bad (level : Nat) (malformed : Bool)
  /-- a table entry lies in a poisoned granule (21 R448) -/
  | lost
  deriving DecidableEq, Repr

/-- R220: the lowest index bit of a level, the width of its index, and the bytes a leaf maps. -/
def levelLow (l : Nat) : Nat := [44, 31, 26, 21, 16].getD l 16
def levelWidth (l : Nat) : Nat := if l ≤ 1 then 13 else 5
def levelIndex (l va : Nat) : Nat := va / 2 ^ levelLow l % 2 ^ levelWidth l

/-- R221, R223: a table entry at level `l` has a ZERO field that is not zero. -/
def tableZeroBad (l e : Nat) : Bool := bits e 63 52 != 0 || bits e 7 2 != 0 || (l == 0 && bits e 15 8 != 0)
/-- R222, R223: a leaf entry at level `l` is malformed, its address apart. -/
def leafBad (second : Bool) (l e : Nat) : Bool :=
  let cls := bits e 9 8
  let lease := bits e 58 52
  l == 0 || bits e 63 59 != 0 || bits e 15 14 != 0 || cls == 3 || bits e 11 10 == 3 ||
  (if cls = 1 then lease < 2 || lease > 64 else lease != 0) ||
  bits e 51 0 / 65536 * 65536 % 2 ^ levelLow l != 0 ||
  (second && (cls != 0 || bits e 11 10 != 0 || bits e 7 7 != 0 || bits e 13 13 != 0 || lease != 0))
/-- The page address of a leaf, with the bits of `va` below the page size. -/
def leafOut (l e va : Nat) : Nat := bits e 51 16 * 65536 + va % 2 ^ levelLow l
/-- R220: a valid entry at this level is a leaf. -/
def isLeaf (e : Nat) : Bool := bits e 1 1 == 1
def entryV (e : Nat) : Bool := bits e 0 0 == 1
def tableOf (e : Nat) : Nat := bits e 51 8 * 256
/-- R214: an address in some region. -/
def State.inRegion (s : State) (pa : Nat) : Bool := s.inMap pa || inPeer pa

/-- The 8-byte entry at a physical address, from the walk cache where it holds it (R230, R232). -/
def State.entryAt (s : State) (cl : Nat) (asid : BitVec 16) (vmid : BitVec 8) (pa : Nat) : Nat :=
  match (s.cluster cl).walk.find? (fun w => w.pa == pa && w.asid == asid && w.vmid == vmid) with
  | some w => w.value.toNat
  | none => s.readN pa 8

/-- R448: the entry is read from the walk cache, or from a granule that is good. -/
def State.entryClean (s : State) (cl : Nat) (asid : BitVec 16) (vmid : BitVec 8) (pa : Nat) : Bool :=
  (s.cluster cl).walk.any (fun w => w.pa == pa && w.asid == asid && w.vmid == vmid) || s.clean pa 8

/-- The second-stage walk (R220, R223, R224) over the levels still to go. -/
def walk2 (s : State) (cl : Nat) (vmid : BitVec 8) (gpa : Nat) : List Nat → Nat → List (Nat × Nat) → Walk2
  | [], _, _ => .bad 4 true
  | l :: r, table, seen =>
    let at_ := table + 8 * levelIndex l gpa
    let e := s.entryAt cl 0 vmid at_
    if !s.entryClean cl 0 vmid at_ then .lost
    else if !entryV e then .bad l false
    else if isLeaf e then
      if leafBad true l e || !s.inRegion (leafOut l e gpa) then .bad l true
      else .ok (leafOut l e gpa) (some ⟨at_, e, l⟩) seen
    else if l == 4 || tableZeroBad l e || !s.inMap (tableOf e) then .bad l true
    else walk2 s cl vmid gpa r (tableOf e) ((at_, e) :: seen)

/-- R217, R219: whether a VMID has a second stage, and its root. -/
def State.stage2 (s : State) (sp : Space) : Option Nat :=
  let e := s.readN (s.tractField sp.tract 575 512 + 16 * sp.vmid.toNat) 16
  if bits e 0 0 = 1 then some (bits e 127 64) else none

/-- A guest-physical address as a physical one. -/
def physOf (s : State) (cl : Nat) (sp : Space) (h : Option Nat) (gpa : Nat) : Walk2 :=
  match h with
  | none => .ok gpa none []
  | some root => walk2 s cl sp.vmid gpa [0, 1, 2, 3, 4] root []

/-- R419: DETAIL of STAGE2. -/
def stage2Detail (gpa l1 l2 : Nat) (k : Access) (malformed : Bool) : Detail :=
  BitVec.ofNat 512 (gpa % 2 ^ 64 + l1 * 2 ^ 64 + l2 * 2 ^ 72 + k.code * 2 ^ 80 + (if malformed then 2 ^ 511 else 0))
/-- R419: DETAIL of NOT_PRESENT and PERMISSION: MALFORMED and SCANNER_HOLD. -/
def walkDetail (malformed hold : Bool) : Detail :=
  BitVec.ofNat 512 ((if malformed then 2 ^ 511 else 0) + (if hold then 2 ^ 510 else 0))

/-- What a walk has found: the physical address, the first-stage leaf with its guest-physical address, the second-stage leaves
it used, the last of them the output's, and the table entries it read. -/
structure Found where
  pa    : Nat
  gpa   : Nat
  leaf  : Leaf
  leafGpa : Nat
  outer : List Leaf
  out2  : Option Leaf
  seen1 : List (Nat × Nat)
  seen2 : List (Nat × Nat)
  deriving DecidableEq, Repr

/-- The first-stage walk (R226 steps 1 and 2) over the levels still to go; `table` is a guest-physical address. -/
def walk1 (s : State) (cl : Nat) (sp : Space) (h : Option Nat) (k : Access) (va : Nat) :
    List Nat → Nat → List Leaf → List (Nat × Nat) → List (Nat × Nat) → Except (Cause × Detail) Found
  | [], _, _, _, _ => .error (.notPresent, walkDetail true false)
  | l :: r, table, outer, seen1, seen2 =>
    match physOf s cl sp h table with
    | .bad l2 m => .error (.stage2, stage2Detail table l l2 k m)
    | .lost => .error (.poisonConsumed, 0)
    | .ok tpa leaf2 sn =>
      if !s.inMap tpa then
        match h with
        | some _ => .error (.stage2, stage2Detail table l ((leaf2.map Leaf.level).getD 4) k true)
        | none => .error (.notPresent, walkDetail true false)
      else
        let outer := leaf2.toList ++ outer
        let seen2 := sn ++ seen2
        let at_ := tpa + 8 * levelIndex l va
        let e := s.entryAt cl sp.asid sp.vmid at_
        if !s.entryClean cl sp.asid sp.vmid at_ then .error (.poisonConsumed, 0)
        else if !entryV e then .error (.notPresent, walkDetail false false)
        else if isLeaf e then
          let out := leafOut l e va
          if leafBad false l e || (h.isNone && !s.inRegion out) then .error (.notPresent, walkDetail true false)
          else
            match physOf s cl sp h (out / 65536 * 65536) with
            | .bad l2 m => .error (.stage2, stage2Detail out 5 l2 k m)
            | .lost => .error (.poisonConsumed, 0)
            | .ok pa leaf2 sn =>
              .ok ⟨pa, out, ⟨at_, e, l⟩, table + 8 * levelIndex l va, outer, leaf2, seen1, sn ++ seen2⟩
        else if l == 4 || tableZeroBad l e || (h.isNone && !s.inMap (tableOf e)) then
          .error (.notPresent, walkDetail true false)
        else walk1 s cl sp h k va r (tableOf e) outer ((at_, e) :: seen1) seen2

/-- R228: the entry of the domain frame table for a physical address. -/
def State.frameEntry (s : State) (tract pa : Nat) : Nat := s.readN (s.tractField tract 639 576 + 2 * (pa / 2 ^ 21)) 2
/-- R228: an entry of the domain frame table admits an access; a processor outside the cores has no domain of its own. -/
def Space.admits (sp : Space) (e : Nat) (write : Bool) : Bool :=
  if bits e 14 14 = 1 then false
  else if sp.sys then true
  else if bits e 15 15 = 1 then !(write && sp.sealed)
  else bits e 11 0 == sp.ident.toNat
/-- R228: the domain frame table admits the access. -/
def State.frameOk (s : State) (sp : Space) (pa : Nat) (write : Bool) : Bool :=
  !inHbm pa || sp.admits (s.frameEntry sp.tract pa) write

/-- R219, R240: the peer entry of a region: UP and GENERATION. -/
def State.peerAt (s : State) (tract peer : Nat) : Nat := s.tractField tract 703 640 + 16 * peer
def State.peerUp (s : State) (tract pa : Nat) : Bool :=
  !inPeer pa || bits (s.readN (s.peerAt tract (peerOf pa)) 16) 0 0 == 1
def State.peerGen (s : State) (tract pa : Nat) : Byte :=
  if inPeer pa then BitVec.ofNat 8 (bits (s.readN (s.peerAt tract (peerOf pa)) 16) 15 8) else 0

/-- The combined translation of a found page (R224); `size` is the code of R246. -/
def Found.xlat (f : Found) (sharedSealed dirty : Bool) : Xlat :=
  let e := f.leaf.value
  let p (n : Nat) := bits e n n == 1 && (match f.out2 with | some l => bits l.value n n == 1 | none => true)
  let lv := match f.out2 with
    | some l => max l.level f.leaf.level
    | none => f.leaf.level
  ⟨f.pa, bits e 9 8, bits e 11 10, bits e 58 52, p 2, p 3 && !sharedSealed && bits e 13 13 == 0, p 4,
    bits e 7 7 == 1, dirty, 4 - lv⟩

/-- R226 steps 3 to 7 on a found page. -/
def State.pageCheck (s : State) (sp : Space) (k : Access) (f : Found) : Option (Cause × Detail) :=
  let e := f.leaf.value
  let has (v n : Nat) := bits v n n == 1
  let lacks (v : Nat) := (k.needsR && !has v 2) || (k.needsW && !has v 3) || (k == .fetch && !has v 4)
  if lacks e then some (.permission, walkDetail false false)
  else if (match f.out2 with | some l => lacks l.value | none => false) then
    some (.stage2, stage2Detail f.gpa 5 ((f.out2.map Leaf.level).getD 4) k false)
  else if k.needsW && has e 13 then some (.permission, walkDetail false true)
  else if !s.frameOk sp f.pa k.needsW then some (.domain, 0)
  else if !s.peerUp sp.tract f.pa then some (.remoteGone, BitVec.ofNat 512 (peerOf f.pa))
  else if has e 12 || (match f.out2 with | some l => has l.value 12 | none => false) then some (.poisonConsumed, 0)
  else none

/-- Sets bits of a table entry in memory. -/
def State.orEntry (s : State) (at_ m : Nat) : State := s.writeN at_ 8 (s.readN at_ 8 ||| m)

/-- R236: appends a job to the dirty ring, for the first-stage page; `none` where the ring is full. -/
def State.appendDirty (s : State) (cl : Nat) (sp : Space) (va : Nat) (f : Found) : Option State :=
  let t := sp.tract
  let s := if s.tractNow t 959 896 = s.tractNow t 1023 960 then s.latchTract (2 * t + 1) else s
  let prod := s.tractField t 959 896
  let n := 2 ^ s.tractField t 831 828
  if prod - s.tractField t 1023 960 ≥ n then none
  else
    let at_ := s.tractField t 895 832 + 32 * (prod % n)
    let frame := match physOf s cl sp (s.stage2 sp) (leafOut f.leaf.level f.leaf.value 0) with
      | .ok pa _ _ => pa
      | .bad _ _ | .lost => f.pa / 2 ^ levelLow f.leaf.level * 2 ^ levelLow f.leaf.level
    let job := va / 2 ^ levelLow f.leaf.level * 2 ^ levelLow f.leaf.level + frame * 2 ^ 64 + f.leafGpa * 2 ^ 128 +
      (sp.asid.toNat + (4 - f.leaf.level) * 65536) * 2 ^ 192
    some ((s.storeN at_ 32 job).writeN (s.tractAt t + 112) 8 (prod + 1))

/-- R229: ACCESSED, and DIRTY on a write, in both stages; `none` where the write has to wait for the dirty ring.  The second-stage leaves
of table addresses get ACCESSED alone (DESIGN CHOICE, log entry 74). -/
def State.markLeaves (s : State) (cl : Nat) (sp : Space) (k : Access) (va : Nat) (f : Found) : Option State :=
  let m := if k.needsW then 0x60 else 0x20
  let fresh := k.needsW && bits f.leaf.value 6 6 == 0 && bits f.leaf.value 7 7 == 1
  match (if fresh then s.appendDirty cl sp va f else some s) with
  | none => none
  | some s =>
    let s := f.outer.foldl (fun s l => s.orEntry l.at_ 0x20) s
    let s := match f.out2 with
      | some l => s.orEntry l.at_ m
      | none => s
    some (s.orEntry f.leaf.at_ m)

/-- R230: adds an entry, dropping the least recently used of a full TLB of `cap` entries: the last, since every use moves an entry to
the front. -/
def tlbAdd (cap : Nat) (l : List TlbEntry) (e : TlbEntry) : List TlbEntry :=
  let l := l.filter (fun x => !(x.priv == e.priv && x.page == e.page && x.asid == e.asid && x.vmid == e.vmid && x.ident == e.ident))
  e :: (if l.length < cap then l else l.dropLast)

/-- The same for the walk cache of 512 entries. -/
def walkAdd (l : List WalkEntry) (e : WalkEntry) : List WalkEntry :=
  let l := l.filter (fun x => !(x.pa == e.pa && x.asid == e.asid && x.vmid == e.vmid))
  e :: (if l.length < 512 then l else l.dropLast)

/-- R246: the bytes of a page by its SIZE code, and how many 64 KiB they are. -/
def sizeSpan (z : Nat) : Nat := 2 ^ [16, 21, 26, 31].getD z 16
def sizePieces (z : Nat) : Nat := sizeSpan z / 65536

/-- R230: the entry of a TLB that serves the 64 KiB `page` under a full tag: that of the page which holds it. -/
def tlbFind (s : State) (l : List TlbEntry) (sp : Space) (page : Nat) : Option TlbEntry :=
  l.find? (fun x => x.priv == sp.priv && x.page == page / sizePieces x.x.size * sizePieces x.x.size && x.asid == sp.asid &&
    x.vmid == sp.vmid && x.ident == sp.ident && (!inPeer x.x.pa || x.gen == s.peerGen sp.tract x.x.pa))
/-- The translation that an entry gives a 64 KiB of its page. -/
def TlbEntry.at_ (e : TlbEntry) (page : Nat) : Xlat := { e.x with pa := e.x.pa + (page - e.page) * 65536 }

/-- R229: what an entry serves without a new walk. -/
def Xlat.serves (x : Xlat) (k : Access) : Bool :=
  (!k.needsR || x.r) && (!k.needsW || (x.w && x.dirty)) && (k != .fetch || x.x)

/-- Loads a translation and the table entries of its walk into the TLBs of a core and its cluster. -/
def State.fillTlb (s : State) (core : Nat) (sp : Space) (page : Nat) (f : Found) (x : Xlat) : State :=
  let cl := clusterOf core
  let now := s.dclk.toNat
  let off := page % sizePieces x.size
  let size2 := match f.out2 with
    | some l => 4 - l.level
    | none => x.size
  let frames : Tbl Nat := if inHbm f.pa then [(f.pa / 2 ^ 21, s.frameEntry sp.tract f.pa)] else []
  let e : TlbEntry := ⟨sp.priv, page - off, sp.asid, sp.vmid, sp.ident, { x with pa := x.pa - off * 65536 },
    f.gpa / 65536 * 65536 - off * 65536, s.peerGen sp.tract f.pa, now, 4 - f.leaf.level, size2, frames⟩
  let c := s.core core
  let s := s.setCore core { c with tlb := tlbAdd 256 c.tlb e }
  let k := s.cluster cl
  let w := f.seen1.foldl (fun w p => walkAdd w ⟨p.1, BitVec.ofNat 64 p.2, sp.asid, sp.vmid, now⟩) k.walk
  let w := f.seen2.foldl (fun w p => walkAdd w ⟨p.1, BitVec.ofNat 64 p.2, 0, sp.vmid, now⟩) w
  s.setCluster cl { k with tlb := tlbAdd 8192 k.tlb e, walk := w }

/-- A walk with the checks of R226, without any effect. -/
def State.walkOnly (s : State) (cl : Nat) (sp : Space) (k : Access) (va : Nat) : Except (Cause × Detail) Found :=
  match walk1 s cl sp (s.stage2 sp) k va [0, 1, 2, 3, 4] sp.root [] [] [] with
  | .error e => .error e
  | .ok f =>
    match s.pageCheck sp k f with
    | some e => .error e
    | none => .ok f

/-- The table entries that a second-stage walk reads, the first last. -/
def reads2 (s : State) (cl : Nat) (vmid : BitVec 8) (gpa : Nat) : List Nat → Nat → List Nat
  | [], _ => []
  | l :: r, table =>
    let at_ := table + 8 * levelIndex l gpa
    let e := s.entryAt cl 0 vmid at_
    (if !entryV e || isLeaf e || l == 4 || tableZeroBad l e || !s.inMap (tableOf e) then [] else reads2 s cl vmid gpa r (tableOf e)) ++ [at_]
/-- The same for a walk of both stages, each entry with whether it is of the second. -/
def reads1 (s : State) (cl : Nat) (sp : Space) (h : Option Nat) (va : Nat) : List Nat → Nat → List (Bool × Nat)
  | [], _ => []
  | l :: r, table =>
    let under (gpa : Nat) : List (Bool × Nat) := match h with
      | some root => (reads2 s cl sp.vmid gpa [0, 1, 2, 3, 4] root).map (fun a => (true, a))
      | none => []
    match physOf s cl sp h table with
    | .bad _ _ | .lost => under table
    | .ok tpa _ _ =>
      let at_ := tpa + 8 * levelIndex l va
      let e := s.entryAt cl sp.asid sp.vmid at_
      (if !s.inMap tpa || !entryV e || tableZeroBad l e then []
        else if isLeaf e then under (leafOut l e va / 65536 * 65536)
        else if l == 4 then []
        else reads1 s cl sp h va r (tableOf e)) ++ (false, at_) :: under table
/-- R230, R447: the entries of the walk cache that a walk reads, be it one that faults or that of a `pgq`, have been used; what it reads
in memory has been checked. -/
def State.useWalk (s : State) (cl : Nat) (sp : Space) (va : Nat) : State :=
  let c := s.cluster cl
  let cached (w : List WalkEntry) (p : Bool × Nat) : Option WalkEntry :=
    w.find? (fun x => x.pa == p.2 && x.vmid == sp.vmid && x.asid == (if p.1 then 0 else sp.asid))
  let rs := reads1 s cl sp (s.stage2 sp) va [0, 1, 2, 3, 4] sp.root
  let w := rs.foldr (fun p w =>
    match cached w p with
    | some x => { x with used := s.dclk.toNat } :: w.erase x
    | none => w) c.walk
  (s.setCluster cl { c with walk := w }).checkMemory ((rs.filter (fun p => (cached c.walk p).isNone)).map (fun p => p.2))

/-- R228 with R229: a write through an entry of a shared frame by a sealed domain walks again. -/
def State.sharedSealed (s : State) (sp : Space) (pa : Nat) : Bool :=
  sp.sealed && inHbm pa && bits (s.frameEntry sp.tract pa) 15 15 == 1

/-- R230, R219: an entry of a TLB has been used, for a frame of its page. -/
def tlbUse (now : Nat) (l : List TlbEntry) (e : TlbEntry) (frame : Option (Nat × Nat)) : List TlbEntry :=
  { e with used := now, frames := match frame with | some q => Tbl.put e.frames q.1 q.2 | none => e.frames } :: l.erase e
/-- R219, R228: the frame of a translation with its entry in the domain frame table, as the TLB entry has it or as it is read now. -/
def State.frameOf (s : State) (sp : Space) (e : TlbEntry) (x : Xlat) : Option (Nat × Nat) :=
  if inHbm x.pa then some (x.pa / 2 ^ 21, (Tbl.find e.frames (x.pa / 2 ^ 21)).getD (s.frameEntry sp.tract x.pa)) else none
/-- R230, R231: what the entry with the page under its tag gives for an access, from the core's TLB, else from its cluster's, of
which the core takes a copy. -/
def State.tlbHit (s : State) (core : Nat) (sp : Space) (k : Access) (page : Nat) : Option (State × Xlat) :=
  let now := s.dclk.toNat
  let c := s.core core
  let cl := clusterOf core
  let g := s.cluster cl
  let own := tlbFind s c.tlb sp page
  match own.orElse (fun _ => tlbFind s g.tlb sp page) with
  | none => none
  | some e =>
    let x := e.at_ page
    let fr := s.frameOf sp e x
    if x.serves k && fr.all (fun q => sp.admits q.2 k.needsW) then
      some (if own.isSome then s.setCore core { c with tlb := tlbUse now c.tlb e fr }
        else (s.setCore core { c with tlb := tlbAdd 256 c.tlb { e with used := now } }).setCluster cl { g with tlb := tlbUse now g.tlb e fr }, x)
    else none

/-- R229: DIRTY of the leaves of both stages. -/
def Found.dirty (f : Found) : Bool :=
  bits f.leaf.value 6 6 == 1 && (match f.out2 with
    | some l => bits l.value 6 6 == 1
    | none => true)

/-- The translation of the 64 KiB page of `va` for a core (R226 to R231): through the TLBs, else by a walk that fills them.
`none`: the write waits for room in the dirty ring (R236). -/
def State.translate (s : State) (core : Nat) (sp : Space) (k : Access) (va : Nat) : Option (State × XRes) :=
  let page := va / 65536
  match s.tlbHit core sp k page with
  | some (s, x) => some (s, .ok x)
  | none =>
    let t := s.useWalk (clusterOf core) sp va
    match s.walkOnly (clusterOf core) sp k va with
    | .error e => some (t, .bad e.1 e.2)
    | .ok f =>
      match t.markLeaves (clusterOf core) sp k va f with
      | none => none
      | some s =>
        let x := f.xlat (s.sharedSealed sp f.pa) (k.needsW || f.dirty)
        some (s.fillTlb core sp page f x, .ok x)

/-- The translation of an address by a processor outside the cores, under a queue's root (R457): no TLB holds it. -/
def State.translateOutside (s : State) (sp : Space) (k : Access) (va : Nat) : Option (State × XRes) :=
  match s.walkOnly 0 sp k va with
  | .error e => some (s, .bad e.1 e.2)
  | .ok f =>
    match s.markLeaves 0 sp k va f with
    | none => none
    | some s => some (s, .ok (f.xlat false (k.needsW || f.dirty)))

/-- R335: the level at which a first-stage walk stands when it stops; `none` in a second-stage walk. -/
def stopLevel (s : State) (cl : Nat) (sp : Space) (h : Option Nat) (va : Nat) : List Nat → Nat → Option Nat
  | [], _ => none
  | l :: r, table =>
    match physOf s cl sp h table with
    | .bad _ _ | .lost => none
    | .ok tpa _ _ =>
      let e := s.entryAt cl sp.asid sp.vmid (tpa + 8 * levelIndex l va)
      if !entryV e || isLeaf e || l == 4 || tableZeroBad l e then some l
      else stopLevel s cl sp h va r (tableOf e)

/-- R335: the fault span of a translation that failed. -/
def State.faultSpan (s : State) (cl : Nat) (sp : Space) (c : Cause) (va : Nat) : Nat × Nat :=
  let z := match c, stopLevel s cl sp (s.stage2 sp) va [0, 1, 2, 3, 4] sp.root with
    | .stage2, _ => 65536
    | _, some l => 2 ^ levelLow l
    | _, none => 65536
  (va / z * z, va / z * z + z)

/-- R231, R224: the virtual addresses of the page whose translation failed: what the entry maps at which the walk stopped, the page of
the smaller stage where both were found, and of that the 2 MiB frame whose entry in the domain frame table refuses it; 64 KiB where a
table address did not translate (log entry 75). -/
def State.pageSpan (s : State) (cl : Nat) (sp : Space) (k : Access) (c : Cause) (d : Detail) (va : Nat) : Nat × Nat :=
  let first := ((stopLevel s cl sp (s.stage2 sp) va [0, 1, 2, 3, 4] sp.root).map levelLow).getD 16
  let z := match c with
    | .stage2 => if bits d.toNat 71 64 = 5 then min first (levelLow (bits d.toNat 79 72)) else 16
    | .notPresent => first
    | _ =>
      match walk1 s cl sp (s.stage2 sp) k va [0, 1, 2, 3, 4] sp.root [] [] [] with
      | .ok f =>
        let both := match f.out2 with
          | some l => min first (levelLow l.level)
          | none => first
        if c == .domain then min both 21 else both
      | .error _ => 16
  (va / 2 ^ z * 2 ^ z, va / 2 ^ z * 2 ^ z + 2 ^ z)

/-- R457: the space of the reads that a queue descriptor gives. -/
def spaceOfDesc (d : Nat) : Space where
  priv := false
  tract := bits d 99 96
  vmid := BitVec.ofNat 8 (bits d 127 120)
  asid := BitVec.ofNat 16 (bits d 119 104)
  root := bits d 191 128
  ident := BitVec.ofNat 12 (bits d 95 84)
  sealed := false
  sys := true
/-- The same as the descriptor stands. -/
def State.queueSpace (s : State) (q : Nat) : Space := spaceOfDesc (s.readN (s.queueAt q) 128)
/-- R457: a field of a launch's descriptor, and its space, as its acceptance read them. -/
def Launch.df (l : Launch) (hi lo : Nat) : Nat := bits l.desc.toNat hi lo
def Launch.space (l : Launch) : Space := spaceOfDesc l.desc.toNat

/-- The pieces of `n` bytes at `va` that lie in one 64 KiB page each: address, offset from `va`, length. -/
def pieces (va n : Nat) : List (Nat × Nat × Nat) :=
  ((List.range (n / 65536 + 2)).map (fun j =>
    let lo := if j = 0 then va else (va / 65536 + j) * 65536
    let hi := min (va + n) ((va / 65536 + j + 1) * 65536)
    (lo, lo - va, hi - lo))).filter (fun p => p.2.2 != 0 && decide (p.1 < va + n))

/-- Writes `n` bytes of `v` at a virtual address under an outside space; a piece that does not translate, or lies at a peer, is
not written, and one that finds a full dirty ring waits (R236). -/
def State.writeVa (s : State) (sp : Space) (va n v : Nat) : State :=
  (pieces va n).foldl (fun s p =>
    match s.translateOutside sp .write p.1 with
    | some (s, .ok x) =>
      let pa := x.pa + p.1 % 65536
      if inHbm pa then s.storeN pa p.2.2 (v / 256 ^ p.2.1) else s
    | some (s, .bad _ _) => s
    | none => { s with late := s.late ++ [⟨sp, p.1, (List.range p.2.2).map (fun j => BitVec.ofNat 8 (v / 256 ^ (p.2.1 + j))), false⟩] }) s

/-- Reads `n` bytes at a virtual address under an outside space; `none` where some piece does not translate to HBM4E, or lies
in a poisoned granule (21 R448, log entry 33). -/
def State.readVa (s : State) (sp : Space) (va n : Nat) : Option Nat :=
  (pieces va n).foldl (fun acc p =>
    match acc, s.translateOutside sp .read p.1 with
    | some a, some (s, .ok x) =>
      let pa := x.pa + p.1 % 65536
      if inHbm pa && s.clean pa p.2.2 then some (a + s.readN pa p.2.2 * 256 ^ p.2.1) else none
    | _, _ => none) (some 0)

end Sys2Proof.Machine
end

