-- ==== Sys2Proof/Machine/Ops.lean ====
section
/-!
DEFINITION. The operations that the meanings share: what a strand word is issued with, how it ends, the folding of SIG
(21 R443 to R445), windows (06 R160 to R162), target checks (02 R29), the raising and taking of a trap (19 R413 to R421), the
return from one (R436), replays (08 R235), containment (21 R449, R450) and the event ring (22 R472).
-/
namespace Sys2Proof.Machine

abbrev Out := Host.Outcome State Fault Refusal

/-! ### Fragments -/

def Strand.frag (st : Strand) (slot : Bool) : Option Frag := if slot then st.fragB else st.fragA
def Strand.setFrag (st : Strand) (slot : Bool) (f : Option Frag) : Strand :=
  if slot then { st with fragB := f } else { st with fragA := f }
def Strand.spilledFrag (st : Strand) : Bool := st.stack.any (fun p => match p.2 with | .frag _ _ => true | _ => false)
/-- The lanes that are live in a slot, parked in a record or spilled (R92). -/
def Strand.liveLanes (st : Strand) : Mask :=
  let m (f : Option Frag) : Mask := match f with | some f => f.mask | none => 0
  st.stack.foldl (fun acc p => acc ||| (match p.2 with | .frag f _ => f.mask | .join _ _ a _ _ _ => a)) (m st.fragA ||| m st.fragB)
/-- R443: the strand is whole. -/
def Strand.whole (st : Strand) : Bool :=
  match st.fragA, st.fragB with
  | some f, none | none, some f => !st.spilledFrag && f.mask == Mask.all
  | _, _ => false
def Strand.onlyFrag (st : Strand) : Bool := (st.fragA.isNone || st.fragB.isNone) && !st.spilledFrag

/-- The word at a fragment's body index. -/
def Frag.word (f : Frag) : Word := f.clause.getD (f.index + 1) 0
def Frag.bodyLen (f : Frag) : Nat := f.clause.length - 1

/-- R25: a fragment at the place of its next clause header. -/
def Frag.atHeader (f : Frag) (pc : DWord) : Frag :=
  { f with pc := pc, header := pc, index := 0, clause := [], started := false, resumed := false, only := none, claims := 0 }
/-- R30: the fragment moves to the next body word, or past the last one. -/
def Frag.next (f : Frag) : Frag :=
  if f.index + 1 < f.bodyLen then
    { f with index := f.index + 1, pc := f.pc + 4, only := none, hold := .none, resumed := false }
  else { f.atHeader (f.pc + 4) with hold := .none }

/-! ### The signature register -/

/-- R445: one step of the fold. -/
def crcStep (sig : Word) (b : Bool) : Word :=
  let x := sig >>> 1
  if sig.getLsbD 0 != b then x ^^^ 0x82F63B78#32 else x
/-- R445: folds a record, its least significant bit first. -/
def foldRecord (sig : Word) (r : DWord) : Word := (List.range 64).foldl (fun s i => crcStep s (r.getLsbD i)) sig
def sigRecord (hi lo : Word) : DWord := hi ++ lo
def sigFold16 (sig : Word) : Word := (sig >>> 16) ^^^ (sig &&& 0xFFFF)

/-! ### The context of a strand word -/

/-- What a strand word is issued with. -/
structure Ctx where
  s    : State
  sid  : Nat
  slot : Bool
  st   : Strand
  f    : Frag
  i    : Instr
  /-- the active mask (R38, R126) -/
  act  : Mask

/-- The opcode of an instruction. -/
def Instr.opcode (i : Instr) : Nat := opcodeOf ((encode i).getD 0)

/-- The context of `i` for the fragment whose turn it is. -/
def State.ctx (s : State) (i : Instr) : Option Ctx :=
  match s.strand s.cur with
  | none => none
  | some st =>
    match st.frag s.curSlot with
    | none => none
    | some f => some ⟨s, s.cur, s.curSlot, st, f, i, activeMask st f (Instr.opcode i)⟩

def Ctx.type (c : Ctx) : Nat := modeType c.f.mode
def Ctx.wide (c : Ctx) : Bool := type64 c.type
def Ctx.rnd (c : Ctx) : Nat := modeRnd c.f.mode
def Ctx.core (c : Ctx) : Nat := coreOf c.sid
def Ctx.block (c : Ctx) : Option Block := c.s.block c.st.block
/-- The word as it stands in memory. -/
def Ctx.word (c : Ctx) : Word := (encode c.i).getD 0

/-- A source in position A (`pos` 1) or B (`pos` 2) with the lane-broadcast modifier (R127).  With no active lane BCAST_RULE 1 names
no source lane, and what the lanes read is free (log entry 4): `sel` writes it. -/
def Ctx.source (c : Ctx) (pos : Nat) (wide : Bool) (code : BitVec 8) : Vals :=
  if modeBcast c.f.mode = pos && modeBcastFirst c.f.mode && c.act == 0 then
    Vals.gen (fun L => (Config.freeLane c.s.dclk L).toNat % 2 ^ (if wide then 64 else 32))
  else broadcast c.f.mode c.act pos (c.st.source (typeGeneric c.i) c.type wide code.toNat)
/-- A source without the modifier. -/
def Ctx.plain (c : Ctx) (wide : Bool) (code : BitVec 8) : Vals := c.st.source (typeGeneric c.i) c.type wide code.toNat
/-- A source in the lowest lane of the fragment's mask, without the modifier (R408, R433). -/
def Ctx.lowest (c : Ctx) (wide : Bool) (code : BitVec 8) : Nat := (c.plain wide code).at ((Mask.lowest c.f.mask).getD 0)

/-- R217, R399: what the strand's accesses are made under. -/
def Strand.agent (s : State) (sid : Nat) (st : Strand) : Agent where
  core := coreOf sid
  tract := st.tract
  vmid := st.vmid
  asid := st.asid
  pasid := st.pasid
  groot := st.groot
  proot := st.proot
  ident := st.ident
  sealed := s.sealed.any (fun w => w.getLsbD 31 && w.toNat % 4096 == st.ident.toNat)
  gang := match s.block st.block with
    | some b => b.tag
    | none => 0
  launch := ((s.block st.block).map Block.launch).getD 0
  block := st.block

/-! ### Ending a word -/

/-- R443: folds the record of a completed word of fragment `f` while the strand is whole and enabled. -/
def Strand.foldWord (st : Strand) (whole : Bool) (f : Frag) (w : Word) : Strand :=
  if whole && modeSig f.mode then { st with sig := foldRecord st.sig (sigRecord f.mask w) } else st

/-- The word has issued: its record is folded and the fragment goes to the next word; `st` holds the word's effect. -/
def Ctx.advance (c : Ctx) (st : Strand) : Strand :=
  let st := st.foldWord c.st.whole c.f c.word
  match st.frag c.slot with
  | some f => st.setFrag c.slot (some f.next)
  | none => st
/-- The same for the words of R444 that fold no record. -/
def Ctx.advanceQuiet (c : Ctx) (st : Strand) : Strand :=
  match st.frag c.slot with
  | some f => st.setFrag c.slot (some f.next)
  | none => st

/-- Ends a word whose effect lies in the strand alone. -/
def Ctx.done (c : Ctx) (st : Strand) : State := c.s.setStrand c.sid (c.advance st)
/-- Ends a word whose effect is the state `s`, and which leaves the strand's own part to be advanced. -/
def Ctx.doneIn (c : Ctx) (s : State) : State :=
  match s.strand c.sid with
  | some st => s.setStrand c.sid (c.advance st)
  | none => s

/-- R118, R79: the latch that a word writes by its body index. -/
def Ctx.pipe (c : Ctx) : Bool := c.f.index % 2 == 1

/-- Writes a result register or pair in the active lanes, and the latch of the pipe (R118, R19, R126). -/
def Ctx.result (c : Ctx) (wide : Bool) (d : BitVec 8) (v : Vals) : State :=
  c.done ((c.st.setRegs wide d.toNat c.act v).setLatch c.pipe c.act v)
/-- Writes a result register or pair in the active lanes and no latch. -/
def Ctx.resultNoLatch (c : Ctx) (wide : Bool) (d : BitVec 8) (v : Vals) : State :=
  c.done (c.st.setRegs wide d.toNat c.act v)

/-! ### The event ring -/

/-- R472: writes an entry, or holds it while the ring is full. -/
def State.postEntry (s : State) (e : BitVec 512) : State :=
  if s.eventHeld.isEmpty && decide (s.eventProd.toNat < s.control.eventAck.toNat + 65536) then
    { s.storeN (s.control.eventBase.toNat + 64 * (s.eventProd.toNat % 65536)) 64 e.toNat with
      eventProd := s.eventProd + 1 }
  else { s with eventHeld := s.eventHeld ++ [e] }

/-- R472: the hub holds 4,096 events, and no more: a step of a unit that would add one waits, and has not been made. -/
def State.unlessFull (s t : State) : State :=
  if 4096 < t.eventHeld.length && s.eventHeld.length < t.eventHeld.length then s else t
/-- R472: an event for the resident kernel. -/
def State.post (s : State) (kind cause strandId ptr rest : Nat) : State :=
  s.postEntry (BitVec.ofNat 512
    (kind + cause * 2 ^ 8 + strandId % 2 ^ 32 * 2 ^ 32 + s.dclk.toNat * 2 ^ 64 + ptr % 2 ^ 64 * 2 ^ 128 + rest * 2 ^ 192))

/-! ### Causes -/

/-- R413: code. -/
def Cause.code : Cause → Nat
  | .illegalWord => 1 | .illegalOperand => 2 | .illegalClause => 3 | .misaligned => 4 | .badWindow => 5
  | .foreignWindow => 6 | .notPresent => 7 | .stage2 => 8 | .permission => 9 | .domain => 10 | .remoteGone => 11
  | .poisonConsumed => 12 | .pinQuota => 13 | .gate => 14 | .correlatedMix => 15 | .streamLength => 16
  | .queueQuota => 17 | .promiseMiss => 18 | .mwaitTimeout => 19 | .barrierTimeout => 20 | .controlIntegrity => 21
  | .seqIllegal => 22 | .syscall => 23 | .break => 24 | .softTrap => 25
/-- R413: priority. -/
def Cause.priority (c : Cause) : Nat :=
  let n := c.code
  if n ≤ 3 then 1 else if n = 4 then 2 else if n ≤ 6 then 3 else if n = 7 then 4 else if n = 8 then 5
  else if n = 9 then 6 else if n = 10 then 7 else if n = 11 then 8 else 9

/-- R418: a record's 128 bytes. -/
def Record.bits (r : Record) : Nat :=
  let b (x : Bool) := if x then 1 else 0
  r.cause.code + r.cause.priority * 2 ^ 44 + b r.wordWide * 2 ^ 48 + b r.seq * 2 ^ 49 + b r.halted * 2 ^ 50 +
  b r.frag * 2 ^ 51 + r.index % 16 * 2 ^ 52 + r.restart % 256 * 2 ^ 56 + r.oplog % 256 * 2 ^ 64 +
  (if r.seq then r.seqAddr.toNat else r.mask.toNat + r.secondary.toNat * 2 ^ 32) * 2 ^ 128 +
  r.header.toNat * 2 ^ 192 + r.pc.toNat * 2 ^ 256 + r.wordPc.toNat * 2 ^ 320 + r.addr.toNat * 2 ^ 384 +
  r.time.toNat * 2 ^ 448 + r.detail.toNat * 2 ^ 512

/-- What a word raises: one cause with its lanes (R414). -/
structure Raised where
  cause     : Cause
  wordWide  : Bool
  mask      : Mask
  secondary : Mask
  addr      : DWord
  detail    : Detail
  restart   : Nat
  deriving DecidableEq, Repr

/-- A word-wide cause. -/
def Raised.wide (c : Cause) (m : Mask) (d : Detail) : Raised := ⟨c, true, m, 0, 0, d, 255⟩

/-- R414: the lanes that fail, each with its cause, as one record: the primary cause by priority, then by code. -/
def mixed (l : List (Nat × Cause × Detail × DWord)) : Option Raised :=
  match l with
  | [] => none
  | (_, c0, _, _) :: r =>
    let key (c : Cause) := c.priority * 256 + c.code
    let best := r.foldl (fun b x => if key x.2.1 < key b then x.2.1 else b) c0
    let main := l.filter (fun x => x.2.1 == best)
    let rest := l.filter (fun x => x.2.1 != best)
    let mask (q : List (Nat × Cause × Detail × DWord)) : Mask := Mask.ofPred (fun L => q.any (fun x => x.1 == L))
    let low := main.find? (fun x => some x.1 == (mask main).lowest)
    match low with
    | some (_, _, d, a) => some ⟨best, false, mask main, mask rest, a, d, 255⟩
    | none => none

/-! ### The error log -/

/-- R456: a counter saturates. -/
def satUp (x : DWord) : DWord := if x = BitVec.allOnes 64 then x else x + 1
/-- R456: counter `idx` of a core, and of one of its slots, counts one. -/
def State.countError (s : State) (core : Nat) (slot : Option Nat) (idx : Nat) : State :=
  let c := s.core core
  let c := { c with errCore := Tbl.set 0 c.errCore idx (satUp (Tbl.get 0 c.errCore idx)) }
  let c := match slot with
    | some j => { c with errSlot := Tbl.set 0 c.errSlot (11 * j + idx) (satUp (Tbl.get 0 c.errSlot (11 * j + idx))) }
    | none => c
  s.setCore core c
/-- R456: a poison mark has been made or found: UE and LAST_UE. -/
def State.countPoison (s : State) (core : Nat) (slot : Option Nat) (unit place : Nat) : State :=
  let s := s.countError core slot 5
  let v : DWord := BitVec.ofNat 64 (unit * 2 ^ 60 + place % 2 ^ 52)
  let c := s.core core
  let c := { c with errCore := Tbl.set 0 c.errCore 6 v }
  let c := match slot with
    | some j => { c with errSlot := Tbl.set 0 c.errSlot (11 * j + 6) v }
    | none => c
  s.setCore core c
/-- R455: `n` uncorrectable column errors of a core. -/
def State.columnErrors (s : State) (core n : Nat) : State :=
  if n = 0 then s
  else
    let c := s.core core
    s.setCore core { c with colErrors := (List.replicate n s.dclk ++ c.colErrors).take 4 }
/-- R456: UNIT of a mark on a lot's granule: 6 while a chain holds the lot, 8 in HBM4E. -/
def State.lotUnit (s : State) (a : Nat) : Nat := if s.clusters.any (fun p => p.2.stands (a / 256)) then 6 else 8
/-- R195, R447: the bytes of a list are read for a core: a granule that the code corrects is counted, and one that it does not is
marked poisoned. -/
def State.checkGranules (s : State) (core : Nat) (slot : Option Nat) (as : List Nat) : State :=
  ((as.map (· / 32)).eraseDups).foldl (fun s g =>
    match Tbl.find s.ecc g with
    | none => s
    | some true => { s.mark g with ecc := Tbl.del s.ecc g }
    | some false => s.countError core slot 3) s
/-- R448, R456: an agent of a core reads the bytes of a list, which lie in this package's memory: whether they are good; a mark that it
finds is counted. -/
def State.consume (s : State) (core : Nat) (slot : Option Nat) (as : List Nat) : State × Bool :=
  let s := (s.reveal as).checkGranules core slot as
  match as.find? s.poisoned with
  | some a => (s.countPoison core slot (s.lotUnit a) (a / 32 * 32), false)
  | none => (s, true)

/-! ### Instruction fetch and targets -/

/-- A 32-bit word at a physical address; a peer's memory gives a free value (log entry 4). -/
def State.readWord (s : State) (pa : Nat) : Word × State :=
  if inHbm pa then (BitVec.ofNat 32 (s.readN pa 4), s)
  else (Config.freeWord s.fresh, { s with fresh := s.fresh + 1 })

/-- R9: one instruction word of a strand's stream, or the cause of its fetch. -/
def State.fetchWord (s : State) (a : Agent) (pc : DWord) : State × Except (Cause × Detail) Word :=
  match s.translate a.core (a.space false) .fetch pc.toNat with
  | none => (s, .error (.notPresent, 0))
  | some (s, .bad c d) => (s, .error (c, d))
  | some (s, .ok x) =>
    let pa := x.pa + pc.toNat % 65536
    match (if inHbm pa then s.consume a.core ((s.block a.block).map Block.domSlot) [pa] else (s, true)) with
    | (s, false) => (s, .error (.poisonConsumed, 0))
    | (s, true) => let (w, s) := s.readWord pa; (s, .ok w)

/-- R29: the checks of one target; `none` when it passes. -/
def State.checkTarget (s : State) (a : Agent) (t : DWord) : State × Option (Cause × Detail) :=
  if t.toNat % 4 ≠ 0 then (s, some (.misaligned, 0))
  else if t.toNat ≥ 2 ^ 57 then (s, some (.badWindow, 0))
  else
    match s.fetchWord a t with
    | (s, .error e) => (s, some e)
    | (s, .ok w) => if isHeader w then (s, none) else (s, some (.illegalClause, 0))

/-- R29 for each lane of a mask, by distinct targets in lane order. -/
def State.checkTargets (s : State) (a : Agent) (m : Mask) (t : Nat → DWord) :
    State × List (Nat × Cause × Detail × DWord) :=
  (Mask.lanes m).foldl (fun acc L =>
    match acc.1.checkTarget a (t L) with
    | (s, some (c, d)) => (s, acc.2 ++ [(L, c, d, t L)])
    | (s, none) => (s, acc.2)) (s, [])

/-! ### The divergence stack in memory -/

/-- R93: the private address of the stack: byte 0 of entry 0. -/
def stackVa : Nat := 0x1F_FFFF_FFFF_8000

/-- What an access of the stack's memory answers (R94). -/
inductive StackAnswer where
  | ok
  /-- the write waits for room in the dirty ring (08 R236) -/
  | waits
  | bad (cause : Cause) (detail : Detail)
  deriving DecidableEq, Repr

/-- R94: the access of a strand to entry `e` of its stack. -/
def State.stackAccess (s : State) (sid : Nat) (st : Strand) (k : Access) (e : Nat) : State × StackAnswer :=
  match s.translate (coreOf sid) ((st.agent s sid).space true) k (stackVa + 128 * e) with
  | none => (s, .waits)
  | some (s, .bad c d) => (s, .bad c d)
  | some (s, .ok _) => (s, .ok)

/-! ### Words in flight and the operand log -/

/-- The lanes of a mask list of faults. -/
def Flight.badLanes (f : Flight) : Mask := f.bad.foldl (fun m x => m ||| x.2.1) 0
/-- The code of the cause of a flight that has faulted: the primary one of R414. -/
def Flight.causeCode (f : Flight) : Nat :=
  (f.bad.foldl (fun (b : Nat × Nat) x => let k := (x.1.priority, x.1.code); if b.2 = 0 || k.1 < b.1 || (k.1 = b.1 && k.2 < b.2) then k else b) (0, 0)).2
/-- R168: the register at which a run of registers stopped; 255 for another word. -/
def Flight.restart (f : Flight) : Nat :=
  match f.op with
  | .loadRun _ | .storeRun _ => f.stop
  | _ => 255
/-- R168, R207: from a lane's address to that of the register at which a run stopped. -/
def Flight.stopOffset (f : Flight) : Nat :=
  match f.op with
  | .loadRun _ | .storeRun _ => 4 * f.stop
  | _ => 0
/-- Every lane that did not fault has been performed (R205). -/
def Flight.finished (f : Flight) : Bool :=
  f.localL == 0 && f.gangL == 0 && f.xlatL == 0 && f.reqs.all (fun r => r.phase == .done)
/-- The registers that a flight will write. -/
def Flight.dests (f : Flight) : List Nat :=
  if f.regs = 0 then [] else (List.range (f.regs * (if f.wide then 2 else 1))).map (· + f.dst.toNat)

def State.flightsOf (s : State) (sid : Nat) : List Flight := s.flights.filter (fun f => f.strand == sid)

/-- R27, R28: the flag of a completed word clears, for both fragments. -/
def State.clearFlag (s : State) (sid : Nat) (flag : Option Nat) : State :=
  match flag with
  | none => s
  | some n => s.modStrand sid (fun st => { st with flags := st.flags &&& ~~~(1#12 <<< n) })

/-- A word in flight has completed: it goes, its flag clears and its log entry is freed, unless the entry still has lanes to
replay for another issue of the word (R234, R235). -/
def State.completeFlight (s : State) (f : Flight) : State :=
  let s := s.dropFlight f.id
  match s.strand f.strand with
  | none => s
  | some st =>
    let s := s.setStrand f.strand { st with opLog := st.opLog.filter (fun e => e.flight != f.id) }
    s.clearFlag f.strand f.flag

/-- The domain slot of a strand's block. -/
def State.slotOfStrand (s : State) (sid : Nat) : Option Nat := ((s.strand sid).bind (fun st => s.block st.block)).map Block.domSlot

/-! ### Containment -/

/-- R155, R395: the banks of a slot: the first and their number. -/
def bankCount (d : Nat) : Nat := match bits d 53 52 with
  | 0 => 64
  | 1 => 16
  | _ => 32
def dprBanks (d : Nat) : Nat × Nat := (if bits d 53 52 = 0 then 0 else bits d 61 56, bankCount d)
/-- R152, R155: where a scratchpad allotment lies, from its offset in the slot's banks. -/
def spadArea (d base n : Nat) : Area := ⟨false, (dprBanks d).1, (dprBanks d).2, base / (dprBanks d).2, (base + n) / (dprBanks d).2⟩
/-- R152: where a column allotment lies, from its physical offset. -/
def colArea (base n : Nat) : Area := ⟨true, 0, 1, base, base + n⟩
def Block.areas (b : Block) (d : Nat) : List Area := [spadArea d b.spadBase b.sa, colArea b.colBase b.ca]
/-- A block's allotments wait to be cleared (R154), and the clock of its cluster counts for the launch's completion (R465). -/
def State.returnAllotment (s : State) (bk : Nat) (b : Block) : State :=
  let c := s.core (bk / 8)
  s.setCore (bk / 8) { c with clearing := c.clearing ++ b.areas (s.dpr (bk / 8) b.domSlot) }

/-- The strands of a block. -/
def State.strandsOf (s : State) (bk : Nat) : List Nat := s.strands.keysWhere (fun _ st => st.block == bk)

/-- A strand is gone from its slot: its growth requests, waits and services with it.  Words already issued that write memory
stay in flight (R449); the others are dropped. -/
def FlightOp.writesMemory : FlightOp → Bool
  | .store .. | .storeRun .. | .lotwb | .lotdrop | .tlbinv .. | .atom .. | .cas .. | .shapeStore .. | .ctxSave
  | .mabort => true
  | _ => false

/-- A strand number that no strand has: no core has one so high. -/
def noStrand : Nat := 18432
/-- R449: the number of the words of a strand that is gone, which no strand has, and no strand gone before. -/
def State.goneId (s : State) (k : Nat) : Nat := noStrand * (s.nextFlight + 1) + k
/-- R449: a word of a strand that is gone goes on in the lanes that have not faulted. -/
def Flight.orphan (f : Flight) (id : Nat) : Flight :=
  { f with
    strand := id, flag := none, localL := 0, gangL := 0, bad := []
    mask := match f.op with
      | .storeRun _ => f.mask
      | _ => f.mask &&& ~~~f.badLanes }

/-- Removes a strand from its slot. -/
def State.removeStrand (s : State) (k : Nat) : State :=
  let c := s.core (coreOf k)
  let s := s.setCore (coreOf k) { c with growth := c.growth.map (fun p => (p.1, p.2.filter (fun r => r.strand != k))) }
  let id := s.goneId k
  { s with
    strands := Tbl.del s.strands k
    services := s.services.filter (fun v => v.strand != k || v.saved)
    peerStores := s.peerStores.map (fun p => if p.strand = k then { p with strand := id } else p)
    flights := s.flights.filterMap (fun f =>
      if f.strand != k then some f
      else if f.op.writesMemory && !(f.orphan id).finished then some (f.orphan id)
      else none) }
/-- R449: a store or an atomic of a gang has not been performed yet, or a peer has not confirmed it. -/
def State.storesOf (s : State) (tag : BitVec 13) : Bool :=
  s.flights.any (fun f => f.agent.gang == tag && f.op.writesMemory && !f.finished) || s.peerStores.any (fun p => p.gang == tag)

/-- R465: the clock of a cluster in which a block of the launch has ended. -/
def Launch.noteEnd (l : Launch) (c : BitVec 20) : Launch :=
  { l with endStamp := some (match l.endStamp with
      | some t => if (c - t).toNat < 2 ^ 19 then c else t
      | none => c) }

/-- R325, R330: an owner that no block has. -/
def noOwner : Nat := 1536 + 65536
/-- What the other units hold under the key of a block that is gone: its barriers' flips go; a multicast of its that has been read
goes on for its members, and one that has not is dropped (log entry 58); and no request of it waits for a peer. -/
def State.detach (s : State) (bk : Nat) : State :=
  { s with
    flips := s.flips.filter (fun x => x.1 != bk)
    deposits := (s.deposits.filter (fun d => d.owner != bk || d.left == 0)).map (fun (d : Deposit) =>
      if d.owner = bk then { d with owner := noOwner } else d)
    peerStores := s.peerStores.map (fun (p : PeerStore) => if p.copy.any (fun c => c.1 == bk) then { p with copy := none } else p) }
/-- A block is gone from its slot, with what the other units hold for it. -/
def State.removeBlock (s : State) (bk : Nat) : State :=
  match s.block bk with
  | none => s
  | some b =>
    let s := (s.strandsOf bk).foldl State.removeStrand s
    let s := s.returnAllotment bk b
    let s := { s with launches := s.launches.map (fun (l : Launch) =>
      if l.id = b.launch then l.noteEnd (s.cluster (clusterOf (bk / 8))).clock else l) }
    { s.detach bk with
      blocks := Tbl.del s.blocks bk
      collectives := s.collectives.filter (fun c => c.block != bk) }

def State.modLaunch (s : State) (id : Nat) (f : Launch → Launch) : State :=
  { s with launches := s.launches.map (fun l => if l.id = id then f l else l) }
def State.launch (s : State) (id : Nat) : Option Launch := s.launches.find? (fun l => l.id == id)
def State.gang (s : State) (tag : BitVec 13) : Option Gang := s.gangs.find? (fun g => g.tag == tag)
/-- R457: the descriptor that a launch was accepted under, and the space of its gangs' images. -/
def State.launchDesc (s : State) (id queue : Nat) : Nat := ((s.launch id).map (fun l => l.desc.toNat)).getD (s.readN (s.queueAt queue) 128)
def State.gangSpace (s : State) (g : Gang) : Space := spaceOfDesc (s.launchDesc g.launch g.queue)

/-- R298: the groups of a launch that name a block of gang `n` break. -/
def Launch.breakGroups (l : Launch) (n : Nat) : Launch :=
  let broken := l.groups.keysWhere (fun _ ms => ms.any (fun m => m / 8 == n))
  { l with groupBroken := (l.groupBroken ++ broken).eraseDups }

/-- What stands for the key of a saved block: no core has one so high. -/
def memberKey (tag : BitVec 13) (index : Nat) : Nat := 1536 + 8 * tag.toNat + index % 8

/-- R73: a placement unit gives up what it has reserved, and its token. -/
def State.dropUnit (s : State) (unit : Nat) : State :=
  { s with units := Tbl.del s.units unit, tokens := s.tokens.filter (fun p => p.2 != unit) }
/-- R450: what the units of a launch have reserved is dropped: another of its gangs comes first, or none is placed any more. -/
def State.dropUnitsOf (s : State) (launch : Nat) : State :=
  ((s.units.filter (fun u => u.2.launch == launch)).map Prod.fst).foldl State.dropUnit s

/-- R449, R450: kills a gang.  `cause`, `detail`: what the completion record would carry (R466). -/
def State.killGang (s : State) (tag : BitVec 13) (cause detail : Nat) : State :=
  match s.gang tag with
  | none => s
  | some g =>
    match g.killed with
    | some _ => s
    | none =>
      let places := (g.blocks.filterMap (fun k => (s.block k).map (fun b => (k / 8, b.domSlot)))).eraseDups
      let s := places.foldl (fun s p => s.countError p.1 (some p.2) 8) s
      let s := g.blocks.foldl State.removeBlock s
      let s := g.saved.foldl (fun (s : State) b => s.detach (memberKey tag b.index)) s
      let s := { s with
        services := s.services.filter (fun v => v.tag != tag)
        deposits := s.deposits.filter (fun d => !(d.launch == g.launch && d.member / 8 == g.number))
        collectives := s.collectives.filter (fun c => c.block / 8 != memberKey tag 0 / 8)
        pinRelease := if s.pinRelease.contains tag then s.pinRelease else s.pinRelease ++ [tag] }
      let s := s.modLaunch g.launch (fun l => l.breakGroups g.number)
      let again := g.relaunchable &&
        (match s.launch g.launch with
          | some l => decide (Tbl.get 0 l.relaunchCount g.number < 3) && (match l.outcome with
              | some o => o.1 != 5
              | none => true)
          | none => false)
      if again then
        { s with gangs := s.gangs.map (fun x => if x.tag = tag then { x with blocks := [], saved := [], killed := some (cause, detail), moving := false } else x) }
      else
        let s := { s with gangs := s.gangs.filter (fun x => x.tag != tag) }.dropUnitsOf g.launch
        s.modLaunch g.launch (fun l =>
          { l with
            ended := l.ended + 1
            outcome := match l.outcome with
              | some o => some o
              | none => some (4, detail, cause, g.number) })

/-! ### Traps -/

/-- The context image of a strand lies at CTX_BASE, under its queue's root (R430, R457). -/
def State.writeCtx (s : State) (st : Strand) (off n v : Nat) : State :=
  s.writeVa st.space (st.ctxBase.toNat + off) n v

/-- The slot of the fragment that holds some lane of a mask. -/
def Strand.slotOf (st : Strand) (m : Mask) : Bool :=
  match st.fragA, st.fragB with
  | some a, some _ => (a.mask &&& m) == 0
  | none, some _ => true
  | _, none => false

/-- R233: registers and flags of words that have faulted and stay pending. -/
def State.faulted (s : State) (sid : Nat) : List Flight := (s.flightsOf sid).filter (fun f => !f.bad.isEmpty)

/-- The long-latency words of a clause take SET_A and SET_B by their order in the body (R27): the flag of the word at `i`. -/
def Frag.flagAt (f : Frag) (i : Nat) : Option Nat :=
  let longs := ((List.range i).filter (fun j => longOp ((f.clause.getD (j + 1) 0).toNat / 2 ^ 24))).length
  let h := f.clause.getD 0 0
  let v := if longs = 0 then fld h.toNat 10 7 else fld h.toNat 6 3
  if v < 12 then some v else none

/-- R233: the next word of a fragment ends continued issue. -/
def State.stopsIssue (s : State) (sid : Nat) (f : Frag) : Bool :=
  let bad := s.faulted sid
  if !f.started then
    match f.clause with
    | [] => false
    | h :: _ => bad.any (fun w => match w.flag with | some n => (BitVec.ofNat 12 (fld h.toNat 22 11)).getLsbD n | none => false)
  else
    match decode f.word with
    | .bad _ => true
    | .ok i =>
      let op := opcodeOf f.word
      holdingOp op || (s.flightsOf sid).any (fun w => w.op == .ctxLoad) || op == 0x0A || op == 0xC9 || op == 0xCB || (regsOf f i).any (fun r => bad.any (fun w => w.dests.contains r))

/-- R417: every lane of every word in flight that may still fault has been checked. -/
def State.checked (s : State) (sid : Nat) : Bool := (s.flightsOf sid).all (fun f => f.xlatL == 0)

/-- R425: the pre-emption concerns a block. -/
def Preempt.covers (p : Preempt) (bk : Nat) (b : Block) : Bool :=
  p.cluster == clusterOf (bk / 8) && p.slot == b.domSlot && (match p.only with
    | none => true
    | some l => l.contains b.tag)
/-- R425: the pre-emption for which a block is being stopped. -/
def State.preemptOf (s : State) (bk : Nat) : Option Preempt :=
  match s.block bk with
  | none => none
  | some b => s.preempts.find? (fun p => p.covers bk b)
def State.preempting (s : State) (bk : Nat) : Bool := (s.preemptOf bk).isSome

/-- R233, R417: the trap of a strand's open fault may be taken. -/
def State.trapReady (s : State) (sid : Nat) (st : Strand) (o : OpenFault) : Bool :=
  s.checked sid &&
  (!o.issuing || st.halted || s.preempting st.block || decide (s.dclk.toNat ≥ o.detected.toNat + 512) ||
    (match st.frag o.record.frag with
      | some f => s.stopsIssue sid f
      | none => true))

/-- R234, R417: the words that have faulted give their log entries the lanes to replay and a number for the replay. -/
def State.deferFaulted (s : State) (sid : Nat) : State :=
  (s.faulted sid).foldl (fun s f =>
    let lanes := match f.op with
      | .loadRun _ | .storeRun _ => f.mask
      | _ => f.badLanes
    let from_ := match f.op with
      | .loadRun _ | .storeRun _ => f.stop
      | _ => 0
    let n := s.nextFlight
    let s := s.modStrand sid (fun st =>
      { st with opLog := st.opLog.map (fun e => if e.flight = f.id then { e with flight := n, replay := lanes, restart := from_, cause := f.causeCode } else e) })
    let s := { s with nextFlight := n + 1 }
    if f.finished then s.dropFlight f.id
    else
      let rest := match f.op with
        | .loadRun _ | .storeRun _ => f.mask
        | _ => f.mask &&& ~~~lanes
      s.setFlight { f with bad := [], flag := none, mask := rest }) s

/-- R421: the fields of a fragment that enter the handler save area, and the strand in its handler. -/
def Strand.enterVector (st : Strand) (slot : Bool) (f : Frag) : Strand :=
  { (st.setFrag slot (some { f.atHeader st.tvec with mode := 0, hold := .none })) with
    saveMode := f.mode
    saveJoin := f.join
    saveQ := f.q
    saveRecord := st.record
    inHandler := true
    handlerSlot := slot
    stopped := false }

/-- R420: the cause may go to the trap vector. -/
def Strand.toVector (st : Strand) (c : Cause) : Bool :=
  let n := c.code
  !st.inHandler && st.tmask.getLsbD n && ((13 ≤ n && n ≤ 20) || (23 ≤ n && n ≤ 25)) && (n != 24 || !st.debug)

/-- R420: the strand stops and the resident kernel gets a fault event. -/
def State.toKernel (s : State) (sid : Nat) (st : Strand) (r : Record) : State :=
  (s.setStrand sid { st with stopped := true }).post 1 r.cause.code st.strandId.toNat st.ctxBase.toNat 0

/-- R420, R225: the strand stops and its tract's hypervisor gets the record. -/
def State.toHypervisor (s : State) (sid : Nat) (st : Strand) (r : Record) : State :=
  { s.setStrand sid { st with stopped := true } with
    hyper := s.hyper ++ [⟨(st.agent s sid).tract, st.strandId, st.ctxBase, 0, r.addr, r.detail⟩] }

/-- R420, R421: delivers a final record. -/
def State.deliver (s : State) (sid : Nat) (st : Strand) (r : Record) : State :=
  match r.cause with
  | .stage2 => s.toHypervisor sid st r
  | .poisonConsumed | .controlIntegrity =>
    match s.block st.block with
    | some b => s.killGang b.tag r.cause.code 0
    | none => s.setStrand sid { st with stopped := true }
  | c =>
    if st.toVector c then
      match st.frag r.frag with
      | none => s.toKernel sid st r
      | some f =>
        let slot := r.frag
        match s.checkTarget (st.agent s sid) st.tvec with
        | (s, none) => s.setStrand sid (st.enterVector slot f)
        | (s, some _) => s.toKernel sid st r
    else s.toKernel sid st r

/-- R415, R417, R418: the record of an open fault is final: the stopping word is filled in, the record is written to the context
image and delivered, or kept while a halt is in force (R422). -/
def State.takeTrap (s : State) (sid : Nat) : State :=
  match s.strand sid with
  | none => s
  | some st0 =>
    match st0.openFault with
    | none => s
    | some o =>
      let bad := (s.faulted sid).find? (fun f => o.record.wordWide == false && f.pc == o.record.wordPc && f.pos == o.pos)
      let s := s.deferFaulted sid
      match s.strand sid with
      | none => s
      | some st =>
        let slot := if (st.frag o.record.frag).isSome then o.record.frag else !o.record.frag
        let lanes : List (Nat × Cause × Detail × DWord) := match bad with
          | none => []
          | some w => w.bad.flatMap (fun x => (Mask.lanes x.2.1).map (fun L => (L, x.1, x.2.2, Lanes.at 0 w.addr L + BitVec.ofNat 64 w.stopOffset)))
        let r := match mixed lanes with
          | none => o.record
          | some m => { o.record with
              cause := m.cause, mask := m.mask, secondary := m.secondary, addr := m.addr, detail := m.detail
              restart := match bad with
                | some w => w.restart
                | none => 255 }
        let r := { r with
          frag := slot
          oplog := (st.opLog.filter (fun e => e.replay != 0)).length
          halted := st.halted }
        let r := match st.frag slot with
          | some f => { r with pc := f.pc, header := f.header, index := f.index }
          | none => r
        let st := { st with record := some r, recordValid := true, openFault := none, stopped := true }
        let s := (s.setStrand sid st).writeCtx st 0x7000 128 r.bits
        if st.halted then s else s.deliver sid st r

/-- R416, R417: a new fault becomes the primary one of an open record: in one clk by priority number, slot A on a tie; else where its
word was issued earlier. -/
def OpenFault.yields (o n : OpenFault) : Bool :=
  if o.detected = n.detected then
    decide (n.record.cause.priority < o.record.cause.priority) ||
    (n.record.cause.priority == o.record.cause.priority && o.record.frag && !n.record.frag)
  else decide (n.pos < o.pos)
/-- The record with the fault that comes to it.  The continued issue of the one that is open may end, and TIME stays that of the fault
detected first (R418). -/
def OpenFault.merge (o n : OpenFault) : OpenFault :=
  let both := o.issuing && n.issuing
  if o.yields n then { n with issuing := both, detected := o.detected, record := { n.record with time := o.record.time } }
  else { o with issuing := both }

/-- Opens a fault at a DCLK for a word with its place in program order, or merges it with the one that is open, and takes the trap if
its record is final.  `issuing`: the strand goes on by R233. -/
def State.raiseFrom (s : State) (sid : Nat) (slot : Bool) (pc : DWord) (r : Raised) (seqAddr : Option DWord) (issuing : Bool)
    (pos : Nat) (time : DWord) : State :=
  match s.strand sid with
  | none => s
  | some st =>
    let n : OpenFault :=
      ⟨⟨r.cause, r.wordWide, seqAddr.isSome, slot, r.mask, r.secondary, seqAddr.getD 0, pc, pc, 0, 0, r.restart, 0, false,
        r.addr, time, r.detail⟩, issuing, time, pos⟩
    let o : OpenFault := match st.openFault with
      | some o => o.merge n
      | none => n
    let first := o.record.cause == .controlIntegrity && !st.openFault.any (fun p => p.record.cause == .controlIntegrity)
    let st := { st with openFault := some o }
    let s := s.setStrand sid st
    let s := if first then s.countError (coreOf sid) (s.slotOfStrand sid) 7 else s
    if s.trapReady sid st o && !issuing then s.takeTrap sid else s
/-- A cause that is met now, of the word in hand. -/
def State.raise (s : State) (sid : Nat) (slot : Bool) (pc : DWord) (r : Raised) (seqAddr : Option DWord) (issuing : Bool) : State :=
  s.raiseFrom sid slot pc r seqAddr issuing s.nextFlight s.dclk
/-- R415: a cause met now, of a word that has ended: no fault of another word takes its place (log entry 65). -/
def State.raiseEnded (s : State) (sid : Nat) (slot : Bool) (pc : DWord) (r : Raised) : State :=
  s.raiseFrom sid slot pc r none false 0 s.dclk

/-- R415: a cause of the word in hand, whose stopping PC is the word itself. -/
def Ctx.raise (c : Ctx) (s : State) (r : Raised) : State := s.raise c.sid c.slot c.f.pc r none false
/-- A word-wide cause of the word in hand (R38, R414). -/
def Ctx.raiseWide (c : Ctx) (cause : Cause) (d : Detail) : State := c.raise c.s (Raised.wide cause c.act d)
/-- R415: a cause whose stopping PC is the word after: the word ends, and the cause is raised. -/
def Ctx.raiseAfter (c : Ctx) (s : State) (r : Raised) : State := (c.doneIn s).raiseEnded c.sid c.slot c.f.pc r

/-- R38: checks the operands of a word and then runs it; a word that fails raises ILLEGAL_OPERAND and has no effect. -/
def strandWord (i : Instr) (body : Ctx → State) (s : State) : Out :=
  .next (match s.ctx i with
    | none => s
    | some c =>
      if codesOk c.st c.f i && typeOk i c.type then body c else c.raiseWide .illegalOperand 0)

/-! ### Returning from a trap -/

/-- R415, R31: the fragment of the record stands at the stopping word, limited to the faulted lanes where a lane-wise cause
reissues its word.  A `vgrow` that the fragment waits in goes on waiting, with its age (R115). -/
def Strand.resumeAt (st : Strand) (slot : Bool) (pc header : DWord) (index : Nat) (only : Option Mask) : Strand :=
  match st.frag slot with
  | none => st
  | some f =>
    let g := if f.hold == .grow && f.pc == pc then f
      else if header = pc then { f.atHeader pc with hold := .none }
      else { f with pc := pc, header := header, index := index, clause := [], started := false, resumed := true,
                    only := only, hold := .none, claims := 0 }
    { st.setFrag slot (some g) with recordValid := false, stopped := false }

/-- The lanes that a reissued word is limited to (R415). -/
def Strand.onlyOf (st : Strand) (r : Record) : Option Mask :=
  if r.wordWide || r.seq || r.pc != r.wordPc || st.opLog.any (fun e => e.pc == r.wordPc && e.replay != 0) then none
  else some (r.mask ||| r.secondary)

end Sys2Proof.Machine
end

