-- ==== Sys2Proof/Machine/Flights.lean ====
section
/-!
DEFINITION. How a long-latency word goes into flight (02 R27, R32, 08 R234) and how its results reach its destination.
-/
namespace Sys2Proof.Machine

/-- No word: nothing to be done, no destination. -/
def Flight.blank (id sid : Nat) (a : Agent) (op : FlightOp) (m : Mask) : Flight where
  id := id
  strand := sid
  pc := 0
  header := 0
  index := 0
  word := 0
  agent := a
  flag := none
  op := op
  mask := m
  addr := []
  data := []
  dst := 0
  wide := false
  regs := 0
  first := 0
  stop := 1
  scope := 0
  acquire := false
  release := false
  localL := 0
  gangL := 0
  xlatL := 0
  pages := []
  spans := []
  reqs := []
  got := []
  image := 0
  bad := []
  ticket := none
  asked := []
  asking := []
  stamp := 0
  promoting := false
  pos := id

/-- A word in flight as it is issued: nothing to be done yet, no destination. -/
def Ctx.flight (c : Ctx) (op : FlightOp) : Flight :=
  { Flight.blank c.s.nextFlight c.sid (c.st.agent c.s c.sid) op c.act with
    pc := c.f.pc
    header := c.f.header
    index := c.f.index
    word := c.word
    flag := c.f.flagAt c.f.index }

/-- R234: the operand-log entry of a word in flight. -/
def Flight.entry (f : Flight) (mode : Word) (q : List Word) : LogEntry :=
  ⟨f.id, f.pc, f.header, f.index, f.word, mode, q, f.flag, f.mask, 0, f.first, f.addr, f.data, f.image, 0, f.pos, f.agent⟩

/-- The word goes into flight: its flag is set, and its log entry is taken if it is a logged word (R27, R234). -/
def Ctx.fly (c : Ctx) (s : State) (logged : Bool) (fl : Flight) : State :=
  let s := { s with flights := s.flights ++ [fl], nextFlight := s.nextFlight + 1 }
  s.modStrand c.sid (fun st =>
    { st with
      flags := match fl.flag with
        | some n => st.flags ||| (1#12 <<< n)
        | none => st.flags
      opLog := if logged then st.opLog ++ [fl.entry c.f.mode c.f.q] else st.opLog })

/-- The word goes into flight and the fragment goes on. -/
def Ctx.launch (c : Ctx) (s : State) (logged : Bool) (fl : Flight) : State := c.doneIn (c.fly s logged fl)

/-- R27: a long-latency word completes in the step that issues it, after the effect `s`: its flag clears, whoever had set it. -/
def Ctx.over (c : Ctx) (s : State) : State := (c.doneIn s).clearFlag c.sid (c.f.flagAt c.f.index)

/-- The results read so far of register `j` of a flight, as values. -/
def Flight.values (f : Flight) (j : Nat) : Vals := (f.got.getD j []).map BitVec.toNat

/-- Writes register `j` (or pair) of a flight's destination in the lanes of `m`. -/
def State.writeBack (s : State) (f : Flight) (j : Nat) (m : Mask) : State :=
  s.modStrand f.strand (fun st => st.setRegs f.wide (f.dst.toNat + j * (if f.wide then 2 else 1)) m (f.values j))

/-- A lane's value in a list of lane values that may still be empty. -/
def setLane (v : Lanes DWord) (L x : Nat) : Lanes DWord :=
  Lanes.gen (fun k => if k = L then BitVec.ofNat 64 x else Lanes.at 0 v k)
/-- Lane `L` of register `j` of a flight holds `x`. -/
def Flight.setGot (f : Flight) (j L x : Nat) : Flight :=
  let g := f.got ++ List.replicate (j + 1 - f.got.length) Lanes.zero64
  { f with got := g.set j (setLane (g.getD j []) L x) }

end Sys2Proof.Machine
end

