-- ==== Sys2Proof/Machine/Barriers.lean ====
section
/-!
DEFINITION. Numbered barriers and group barriers (11 R285 to R292, R297, R298, 20 R440, R441): arrivals, the completion of a
phase, the merging of the sequencer's reports, waits and their expiry; and when a strand's earlier accesses allow a release
(10 R262, R264).
-/
namespace Sys2Proof.Machine

/-- R285: a barrier at the block's start. -/
def Barrier.start (strands : Nat) : Barrier where
  phase := 0
  strandsExpect := strands
  seqExpect := 0
  nextExpect := none
  arrivals := 0
  seqArrived := 0
  arrivedStrands := 0
  pending := 0
  firstWait := none
  expired := false
  carried := []
  lanes := []
  token := []
  carry := []
  seqCarry := none
  waits := []

def Block.barrier (b : Block) (k : Nat) : Barrier := (Tbl.find b.barriers k).getD (Barrier.start b.strands)
def Block.setBarrier (b : Block) (k : Nat) (x : Barrier) : Block := { b with barriers := Tbl.put b.barriers k x }

/-- A byte of the local offset space (R151, R154). -/
def Block.byte (b : Block) (off : Nat) : Byte := Tbl.get 0 b.store off
def Block.setByte (b : Block) (off : Nat) (x : Byte) : Block := { b with store := Tbl.set 0 b.store off x }
def Block.readN (b : Block) (off n : Nat) : Nat :=
  (List.range n).foldl (fun acc j => acc + (b.byte (off + j)).toNat * 256 ^ j) 0
def Block.writeN (b : Block) (off n v : Nat) : Block :=
  (List.range n).foldl (fun b j => b.setByte (off + j) (BitVec.ofNat 8 (v / 256 ^ j))) b

/-- R153: where the status word of barrier `k` stands. -/
def Block.statusAt (b : Block) (k : Nat) : Nat := b.sa - 128 + 8 * k

/-- Phase `p` has been passed when the count stands at `phase` (32-bit, modular). -/
def phasePassed (phase p : Word) : Bool := decide ((phase - p).toNat ≠ 0) && decide ((phase - p).toNat < 2 ^ 31)

/-- R287, R289: merges the report of one sequencer arrival into a status being built. -/
def mergeReport (status report : DWord) : DWord :=
  let last := report.toNat / 2 ^ 32
  let old := status.toNat % 2 ^ 32
  let new := report.toNat % 2 ^ 32
  if new / 2 ^ 30 = 0 then BitVec.ofNat 64 (last * 2 ^ 32 + old)
  else if old / 2 ^ 30 = 0 then BitVec.ofNat 64 (last * 2 ^ 32 + new)
  else
    let count := min 255 (bits old 23 16 + bits new 23 16)
    let low := ((old ||| new) / 2 ^ 30) * 2 ^ 30 + bits old 29 24 * 2 ^ 24 + count * 2 ^ 16 + bits old 15 0
    BitVec.ofNat 64 (last * 2 ^ 32 + low)

/-- R288: the phase is complete. -/
def Barrier.full (x : Barrier) : Bool := x.strandsExpect ≤ x.arrivals && x.seqExpect ≤ x.seqArrived

/-- R288: the flip of a complete phase.  `waiting`: some strand already waits for the new phase. -/
def Barrier.flip (x : Barrier) (now : DWord) (waiting : Bool) : Barrier :=
  let e := x.nextExpect.getD (x.strandsExpect, x.seqExpect)
  let extra := x.arrivals - x.strandsExpect
  let seqOver := if x.seqExpect = 0 then 0 else x.seqArrived - x.seqExpect
  let counted := if e.2 = 0 then seqOver else min seqOver e.2
  let pend := (x.carried.take counted).foldl mergeReport 0
  let phase := x.phase + 1
  { x with
    phase := phase
    strandsExpect := e.1
    seqExpect := e.2
    nextExpect := none
    arrivals := extra
    seqArrived := seqOver
    arrivedStrands := x.carry.foldl (fun m p => if p.1 < e.1 then m ||| (1#32 <<< p.2) else m) 0
    pending := pend
    firstWait := if waiting then some now else none
    expired := false
    carried := x.carried.drop counted
    token := x.carry.foldl (fun t p => Tbl.put t p.2 (if p.1 < e.1 then phase else phase + 1)) x.token
    carry := (x.carry.filter (fun p => e.1 ≤ p.1)).map (fun p => (p.1 - e.1, p.2))
    seqCarry := match x.seqCarry with
      | some (i, n) => if e.2 = 0 || i < e.2 then none else some (i - e.2, n)
      | none => none }

/-- Whether a fragment of a block's strands waits for phase `p` of barrier `k`. -/
def State.waitsOn (s : State) (bk k : Nat) (p : Word) : Bool :=
  (s.strandsOf bk).any (fun sid =>
    match s.strand sid with
    | none => false
    | some st => [st.fragA, st.fragB].any (fun f => match f with
        | some f => f.hold == .bar k p
        | none => false))

/-- R288: a complete phase flips, the status word first; a carried arrival of the sequencer gives its phase to the stream that made
it (R359). -/
def State.flipPhase (s : State) (bk k : Nat) : State :=
  match s.block bk with
  | none => s
  | some b =>
    let x := b.barrier k
    let y := x.flip s.dclk (s.waitsOn bk k (x.phase + 1))
    let b := (b.writeN (b.statusAt k) 8 x.pending.toNat).setBarrier k y
    let q := b.seq
    let b := match q.running, x.seqCarry with
      | some r, some (_, n) =>
        let tok := if y.seqCarry.isSome then y.phase + 1 else y.phase
        if r.n = n then { b with seq := { q with running := some { r with stok := Tbl.put r.stok k tok } } } else b
      | _, _ => b
    s.setBlock bk b

/-- R288: the phase is looked at after an arrival; where it is complete, it flips `ticks` ticks from now. -/
def State.settle (s : State) (bk k : Nat) (ticks : DWord) : State :=
  match s.block bk with
  | none => s
  | some b =>
    if (b.barrier k).full && !s.flips.any (fun x => x.1 == bk && x.2.1 == k) then
      { s with flips := s.flips ++ [(bk, k, s.dclk + ticks)] }
    else s

/-- R288: one barrier flips.  Carried arrivals that complete its new phase are found one tick later. -/
def State.flipNow (s : State) (x : Nat × Nat × DWord) : State :=
  (({ s with flips := s.flips.erase x }).flipPhase x.1 x.2.1).settle x.1 x.2.1 3
/-- R288: the flips that are due. -/
def State.flipDue (s : State) : State := (s.flips.filter (fun x => x.2.2 ≤ s.dclk)).foldl State.flipNow s
/-- The flips of a block one after another, at most `n`; none is left under its key. -/
def State.flipAll : Nat → State → Nat → State
  | 0, s, bk => { s with flips := s.flips.filter (fun x => x.1 != bk) }
  | n + 1, s, bk =>
    match s.flips.find? (fun x => x.1 == bk) with
    | none => s
    | some x => State.flipAll n (s.flipNow x) bk
/-- The flips of a block, which come before it is saved: each takes at least one arrival of a strand from its barrier (R295), so there
are no more of them than arrivals. -/
def State.flipBlock (s : State) (bk : Nat) : State :=
  match s.block bk with
  | none => s
  | some b => s.flipAll (b.barriers.foldl (fun n x => n + x.2.arrivals) 1) bk

/-- R286: one strand arrival is counted, or carried by R288. -/
def Barrier.count (x : Barrier) (strand : Nat) : Barrier :=
  let i := x.arrivals
  let x := { x with arrivals := i + 1, lanes := Tbl.set 0 x.lanes strand 0, arrivedStrands := x.arrivedStrands ||| (1#32 <<< strand) }
  if i < x.strandsExpect then { x with token := Tbl.put x.token strand x.phase }
  else { x with token := Tbl.put x.token strand (x.phase + 1), carry := Tbl.put x.carry (i - x.strandsExpect) strand }

/-- R286: the strand arrival is due when LANES is not empty and covers every live lane. -/
def covers (lanes live : Mask) : Bool := lanes != 0 && (live &&& ~~~lanes) == 0

/-- R286: the check made at an arrival and whenever the live lanes shrink. -/
def State.checkArrival (s : State) (st : Strand) (k : Nat) : State :=
  match s.block st.block with
  | none => s
  | some b =>
    let x := b.barrier k
    if covers (Tbl.get 0 x.lanes st.number) st.liveLanes then
      (s.setBlock st.block (b.setBarrier k (x.count st.number))).settle st.block k 2
    else s

/-- R286: an arrival word of a fragment with mask `m`. -/
def State.arriveOn (s : State) (st : Strand) (m : Mask) (k : Nat) : State :=
  match s.block st.block with
  | none => s
  | some b =>
    let x := b.barrier k
    let x := { x with lanes := Tbl.set 0 x.lanes st.number (Tbl.get 0 x.lanes st.number ||| m) }
    (s.setBlock st.block (b.setBarrier k x)).checkArrival st k

/-- R287, R288: a sequencer arrival with its report. -/
def State.seqArrive (s : State) (bk k : Nat) (report : DWord) : State :=
  match s.block bk with
  | none => s
  | some b =>
    let x := b.barrier k
    let i := x.seqArrived
    let carried := x.seqExpect != 0 && x.seqExpect ≤ i
    let y := { x with
      seqArrived := i + 1
      pending := if carried then x.pending else mergeReport x.pending report
      carried := if carried then x.carried ++ [report] else x.carried
      seqCarry := if carried then some (i - x.seqExpect, (b.seq.running.map Stream.n).getD 0) else none }
    let b := b.setBarrier k y
    let q := b.seq
    let b := match q.running with
      | some r =>
        { b with seq := { q with running := some { r with stok := Tbl.put r.stok k (if carried then x.phase + 1 else x.phase) } } }
      | none => b
    (s.setBlock bk b).settle bk k 2

/-! ### Groups -/

/-- R77: the name of a block within its launch. -/
def State.memberOf (s : State) (b : Block) : Nat :=
  8 * ((s.gang b.tag).map Gang.number).getD 0 + b.index

/-- R242: the later of two clocks. -/
def clockMax (a b : BitVec 20) : BitVec 20 := if (b - a).toNat < 2 ^ 19 then b else a
/-- R266: a cluster's clock jumps forward. -/
def State.raiseClock (s : State) (cl : Nat) (c : BitVec 20) : State :=
  let x := s.cluster cl
  s.setCluster cl { x with clock := clockMax x.clock c }

/-- R255, R274, R434: an acquire at `.x` by a core. -/
def State.acquireOutside (s : State) (core : Nat) : State := s.raiseClock (clusterOf core) s.extStamp
/-- R279, R277: an acquire on counter `c` up to `n` at its scope: `.x` for TLX, whose requests the hub's units perform (R475), and for
TLC where a copy numbered `n` or below has a peer region for a side.  At `.d` TLC gives the clocks of the multicasts that completed
requests up to `n`. -/
def State.acquireCounter (s : State) (core bk c : Nat) (n : DWord) : State :=
  let s := if c = 0 then (((s.block bk).map (fun b => b.copy.clocks)).getD []).foldl (fun s x =>
      if x.1 ≤ n then s.raiseClock (clusterOf core) x.2 else s) s
    else s
  let s' := s.acquireOutside core
  if c = 3 then s'.raiseClock (clusterOf core) s.procStamp
  else if c = 0 && ((s.block bk).bind (fun b => b.copy.far)).any (fun m => decide (m ≤ n)) then s'
  else s

def groupKey (g strand : Nat) : Nat := g * 32 + strand

/-- R297: the group's phase completes when every member block has arrived. -/
def Launch.arriveGroup (l : Launch) (g member : Nat) : Launch :=
  let arr := Tbl.get [] l.groupArrived g
  let arr := if arr.contains member then arr else arr ++ [member]
  if (Tbl.get [] l.groups g).all (fun m => arr.contains m) then
    { l with groupPhase := Tbl.set 0 l.groupPhase g (Tbl.get 0 l.groupPhase g + 1), groupArrived := Tbl.set [] l.groupArrived g [] }
  else { l with groupArrived := Tbl.set [] l.groupArrived g arr }

/-- Whether a fragment of a strand of the launch waits for phase `p` of group `g`. -/
def State.groupWaited (s : State) (launch g p : Nat) : Bool :=
  s.strands.any (fun q => (s.block q.2.block).any (fun b => b.launch == launch) &&
    [q.2.fragA, q.2.fragB].any (fun f => match f.map Frag.hold with
      | some (.gbar g' p' _) => g' == g && p' == p
      | _ => false))

/-- R297: the block arrives when every strand of it with a live lane has made its strand arrival.  Where that completes the phase,
FIRST_WAIT starts again, at once for a strand that waits for the next one (R291). -/
def State.checkGroup (s : State) (bk g : Nat) : State :=
  match s.block bk with
  | none => s
  | some b =>
    let done := Tbl.get 0 b.groupDone g
    let all := (s.strandsOf bk).all (fun sid =>
      match s.strand sid with
      | some st => st.liveLanes == 0 || Mask.has done st.number
      | none => true)
    if done != 0 && all then
      let s := s.setBlock bk { b with groupDone := Tbl.set 0 b.groupDone g 0 }
      let m := s.memberOf b
      s.modLaunch b.launch (fun l =>
        let l' := l.arriveGroup g m
        let p := Tbl.get 0 l'.groupPhase g
        if p = Tbl.get 0 l.groupPhase g then l'
        else { l' with groupFirst := if s.groupWaited b.launch g p then Tbl.put l'.groupFirst g (s.dclk, false) else Tbl.del l'.groupFirst g })
    else s

/-- The phase of group `g` in which a strand of the block arrives now. -/
def State.groupPhaseFor (s : State) (b : Block) (g : Nat) : Nat :=
  match s.launch b.launch with
  | none => 0
  | some l =>
    let p := Tbl.get 0 l.groupPhase g
    if (Tbl.get [] l.groupArrived g).contains (s.memberOf b) then p + 1 else p

/-- R292: the strands of the block that have arrived on a group in phase `p`. -/
def Block.groupArrivals (b : Block) (g p : Nat) : Mask :=
  match Tbl.find b.groupIn (2 * g + p % 2) with
  | some (q, m) => if q = p then m else 0
  | none => 0

/-- R297, R286: the check of a strand arrival on a group. -/
def State.checkGroupArrival (s : State) (st : Strand) (g : Nat) : State :=
  match s.block st.block with
  | none => s
  | some b =>
    let key := groupKey g st.number
    if covers (Tbl.get 0 b.groupLanes key) st.liveLanes then
      let p := s.groupPhaseFor b g
      let b1 := { b with
        groupLanes := Tbl.set 0 b.groupLanes key 0
        groupDone := Tbl.set 0 b.groupDone g (Tbl.get 0 b.groupDone g ||| (1#32 <<< st.number))
        groupToken := Tbl.put b.groupToken key p
        groupIn := Tbl.put b.groupIn (2 * g + p % 2) (p, b.groupArrivals g p ||| (1#32 <<< st.number)) }
      let clock := (s.cluster (clusterOf (st.block / 8))).clock
      let s := s.modLaunch b.launch (fun l =>
        { l with groupStamp := Tbl.put l.groupStamp g (clockMax (Tbl.get clock l.groupStamp g) clock) })
      (s.setBlock st.block b1).checkGroup st.block g
    else s

def State.arriveGroup (s : State) (st : Strand) (m : Mask) (g : Nat) : State :=
  match s.block st.block with
  | none => s
  | some b =>
    let key := groupKey g st.number
    let b := { b with groupLanes := Tbl.set 0 b.groupLanes key (Tbl.get 0 b.groupLanes key ||| m) }
    (s.setBlock st.block b).checkGroupArrival st g

/-- R286, R297: the strand's live lanes have shrunk: every barrier and group is checked again. -/
def State.recheck (s : State) (sid : Nat) : State :=
  match s.strand sid with
  | none => s
  | some st =>
    let s := (List.range 16).foldl (fun s k => s.checkArrival st k) s
    match s.block st.block with
    | none => s
    | some b =>
      let gs := ((b.groupLanes.map (fun (p : Nat × Mask) => p.1 / 32)) ++ b.groupDone.map Prod.fst).eraseDups
      gs.foldl (fun s g => (s.checkGroupArrival st g).checkGroup st.block g) s

/-! ### Timeouts -/

/-- R292: the strands of a block that have a live lane. -/
def State.liveStrands (s : State) (bk : Nat) : Nat :=
  (s.strandsOf bk).foldl (fun m sid =>
    match s.strand sid with
    | some st => if st.liveLanes != 0 then m ||| 2 ^ st.number else m
    | none => m) 0

/-- R292, R419: the detail of a BARRIER_TIMEOUT. -/
def timeoutDetail (first : DWord) (live arrived : Nat) (phase arrivals seqArr seqExp strExp kind index : Nat) : Detail :=
  BitVec.ofNat 512 (index % 256 + kind * 2 ^ 8 + strExp % 32 * 2 ^ 10 + seqExp % 16 * 2 ^ 16 + seqArr % 16 * 2 ^ 20 +
    min 255 arrivals * 2 ^ 24 + phase % 2 ^ 32 * 2 ^ 32 + arrived * 2 ^ 64 + live * 2 ^ 96 + first.toNat * 2 ^ 128)

def State.barrierDetail (s : State) (bk k : Nat) (x : Barrier) (p : Word) (first : DWord) : Detail :=
  timeoutDetail first (s.liveStrands bk) x.arrivedStrands.toNat p.toNat x.arrivals x.seqArrived x.seqExpect x.strandsExpect 0 k

def State.groupDetail (s : State) (bk g p : Nat) (first : DWord) : Detail :=
  match s.block bk with
  | none => 0
  | some b =>
    let n := match s.launch b.launch with
      | some l => (Tbl.get [] l.groupArrived g).length
      | none => 0
    timeoutDetail first (s.liveStrands bk) (b.groupArrivals g p).toNat p n 0 0 0 1 g

/-- R291: FIRST_WAIT of a group's present phase. -/
def State.groupFirst (s : State) (launch g : Nat) : Option (DWord × Bool) := (s.launch launch).bind (fun l => Tbl.find l.groupFirst g)
/-- R291: a wait on phase `p` of a group begins. -/
def Launch.beginWait (l : Launch) (g p : Nat) (now : DWord) : Launch :=
  if Tbl.get 0 l.groupPhase g = p && (Tbl.find l.groupFirst g).isNone then { l with groupFirst := Tbl.put l.groupFirst g (now, false) } else l

/-- R291: the ticks of a block's barrier limit. -/
def Block.limitTicks (b : Block) : Nat := 1024 * (if b.limit = 0 then 65536 else b.limit)

/-- R291: a wait on the current phase of a barrier begins. -/
def Barrier.beginWait (x : Barrier) (p : Word) (now : DWord) : Barrier :=
  if x.firstWait.isNone && x.phase == p then { x with firstWait := some now } else x

/-- R293: the number of a fragment among those of its block. -/
def waitKey (strand : Nat) (slot : Bool) : Nat := 2 * strand + (if slot then 1 else 0)

/-- The strand raises BARRIER_TIMEOUT at the waiting word, word-wide with the fragment's mask, at a DCLK (R291, R440). -/
def State.raiseTimeout (s : State) (sid : Nat) (slot : Bool) (d : Detail) (time : DWord) : State :=
  match s.strand sid with
  | none => s
  | some st =>
    match st.frag slot with
    | none => s
    | some f => s.raiseFrom sid slot f.pc (Raised.wide .barrierTimeout f.mask d) none false s.nextFlight time

/-! ### The watchdogs -/

/-- The strands of a block that hold with some property of their hold and go on, each once and in ascending number, slot A first
(R440, R416). -/
def State.waiters (s : State) (bk : Nat) (p : Hold → Bool) : List (Nat × Bool) :=
  ((List.range 32).flatMap (fun n => (s.strandsOf bk).filter (fun sid =>
    match s.strand sid with
    | some st => st.number == n && !st.stopped
    | none => false))).filterMap (fun sid =>
      match s.strand sid with
      | some st => ([false, true].find? (fun b => (st.frag b).any (fun f => p f.hold))).map (fun b => (sid, b))
      | none => none)

/-- R440: the tick at which a phase whose first wait began at `t` expires. -/
def Block.expiryTick (b : Block) (t : DWord) : DWord := t + BitVec.ofNat 64 b.limitTicks
/-- R440: the watchdog of barrier `k` expires, where the phase is not complete. -/
def State.expireBarrier (s : State) (bk k : Nat) : State :=
  match s.block bk with
  | none => s
  | some b =>
    let x := b.barrier k
    match x.firstWait with
    | none => s
    | some t =>
      if x.expired || x.full || s.dclk.toNat < t.toNat + b.limitTicks then s
      else
        let d := s.barrierDetail bk k x x.phase t
        let hs := s.waiters bk (fun h => h == .bar k x.phase)
        let s := s.setBlock bk (b.setBarrier k { x with expired := true })
        hs.foldl (fun s h => s.raiseTimeout h.1 h.2 d (b.expiryTick t)) s
/-- R291, R298, R440: the watchdog of group `g`, as a block of its launch sees it, expires. -/
def State.expireGroup (s : State) (bk g : Nat) : State :=
  match s.block bk with
  | none => s
  | some b =>
    let p := match s.launch b.launch with
      | some l => Tbl.get 0 l.groupPhase g
      | none => 0
    match s.groupFirst b.launch g with
    | none => s
    | some (t, expired) =>
      if expired || s.dclk.toNat < t.toNat + b.limitTicks then s
      else
        let mates := s.blocks.keysWhere (fun _ x => x.launch == b.launch)
        let hs := mates.flatMap (fun k => (s.waiters k (fun h => match h with
          | .gbar g' q _ => g' == g && q == p
          | _ => false)).map (fun h => (h, s.groupDetail k g p t)))
        let s := s.modLaunch b.launch (fun l => { l with groupFirst := Tbl.put l.groupFirst g (t, true) })
        hs.foldl (fun s h => s.raiseTimeout h.1.1 h.1.2 h.2 (b.expiryTick t)) s
/-- R440, R291: the watchdogs whose tick has come expire before anything of a later tick: an arrival that completes its phase no later
than the tick wins, and one after it does not. -/
def State.expireDue (s : State) : State :=
  s.blocks.foldl (fun s p =>
    let s := (p.2.barriers.filter (fun x => x.2.firstWait.isSome)).foldl (fun s x => s.expireBarrier p.1 x.1) s
    match s.launch p.2.launch with
    | some l => l.groupFirst.foldl (fun s x => s.expireGroup p.1 x.1) s
    | none => s) s

/-! ### When a release may be performed -/

/-- The words that access memory (R253). -/
def FlightOp.access : FlightOp → Bool
  | .load .. | .store .. | .loadRun _ | .storeRun _ | .atom .. | .cas _ | .shapeLoad _ | .shapeStore _ | .ctxSave | .ctxLoad
  | .mabort | .mres _ => true
  | _ => false
/-- The words that store and load nothing (R253). -/
def FlightOp.stores : FlightOp → Bool
  | .store .. | .storeRun _ | .shapeStore _ | .mabort | .ctxSave => true
  | _ => false
/-- R267: a release at a scope stamps what it writes. -/
def stamps (scope : Nat) : Bool := scope == 2 || decide (scope ≥ 4)
/-- R464: the packet processors observe a release at `.d` or `.x` by an agent of a core. -/
def State.observed (s : State) (core scope : Nat) : State :=
  if 4 ≤ scope then { s with relStamp := clockMax s.relStamp (s.cluster (clusterOf core)).clock } else s

/-- The translation of a request's page. -/
def Flight.pageOf (f : Flight) (r : Req) : Option Xlat :=
  match Tbl.find f.pages r.page with
  | some (.ok x) => some x
  | _ => none
/-- R242: a copy serves loads while the clock of its cluster has not passed its lease end. -/
def LeaseCopy.fresh (y : LeaseCopy) (clock : BitVec 20) : Bool := decide ((y.stop - clock).toNat < 2 ^ 19)
/-- R263, R190: the cluster holds copy `id` of a lot under a valid lease, or waits for the fill of it: its later loads of the lot see
what has been merged into it. -/
def Cluster.keepsCopy (c : Cluster) (lot id : Nat) : Bool :=
  match Tbl.find c.lots lot with
  | some l =>
    match l.place, l.copy with
    | .miss .., some y => y.id == id
    | _, some y => y.id == id && y.fresh c.clock
    | _, none => false
  | none => false

/-- R262 to R264: a lot's part of a word is visible at a scope.  A load has returned.  A store has been performed at its point of
performance, and at `.g`, `.d` and `.x` the writer's clock has reached the WTS of a leased lot, which it does when the home's answer
arrives; at `.b` and `.c` it is enough that the store stands merged in the copy of the writer's own cluster. -/
def State.partVisible (s : State) (f : Flight) (scope : Nat) (r : Req) : Bool :=
  r.phase == .done ||
  (f.op.stores &&
    ((r.phase == .reply && !(stamps scope && (f.pageOf r).any (fun x => x.cls == 1))) ||
      (!stamps scope && r.copy != 0 && (s.cluster (clusterOf f.agent.core)).keepsCopy r.lot r.copy)))
/-- R262, R264: a word's part in what a release at a scope waits for. -/
def State.visible (s : State) (f : Flight) (scope : Nat) : Bool :=
  !f.op.access ||
  (f.localL == 0 && f.gangL == 0 && f.xlatL == 0 && f.bad.isEmpty && f.reqs.all (s.partVisible f scope))
/-- R250: scope `a` is narrower than `b`; `.g` and `.c` are not nested. -/
def narrower (a b : Nat) : Bool := decide (a < b) && !(a == 2 && b == 3)
/-- R264: the scope whose visibility gives that of both. -/
def bothScopes (a b : Nat) : Nat := if (a = 2 && b = 3) || (a = 3 && b = 2) then 2 else max a b
/-- R269: a narrower release of a core that is being promoted is performed as though at the promotion's scope. -/
def State.scopeFor (s : State) (core scope : Nat) : Nat :=
  s.flights.foldl (fun sc g =>
    if g.asked.contains core && narrower scope g.scope then bothScopes sc g.scope else sc) scope
/-- R262, R264, R276: every access of the strand placed before `upto` in program order allows a release at `scope`. -/
def State.releasable (s : State) (sid upto scope : Nat) : Bool :=
  (s.flightsOf sid).all (fun f => upto ≤ f.pos || s.visible f scope) &&
  (match s.strand sid with
    | some st => st.opLog.all (fun e => e.replay == 0 || upto ≤ e.pos)
    | none => true) &&
  (scope < 5 || s.peerStores.all (fun p => p.strand != sid || p.copy.isSome || decide (upto ≤ p.pos)))

end Sys2Proof.Machine
end

