-- ==== Sys2Proof/Machine/Shapes.lean ====
section
/-!
DEFINITION. The kinds of a generic address (06 R160), the shapes of a copy and their segments (13 R319 to R321), and the scope at
which a copy's submission releases (10 R277, R278).
-/
namespace Sys2Proof.Machine

/-- R160: the kind of a generic address. -/
def addrKind (a : Nat) : Nat :=
  if a < 2 ^ 57 then 0
  else if a / 2 ^ 48 = 0xFE00 then 1
  else if a / 2 ^ 48 = 0xFF00 then 2
  else if a / 2 ^ 48 = 0xFF01 then 3
  else 4

abbrev Shape := BitVec 512

def shExt (h : Shape) (d : Nat) : Nat := bits h.toNat (64 * d + 255) (64 * d + 232)
def shStride (h : Shape) (d : Nat) : Int := toSigned 40 (bits h.toNat (64 * d + 231) (64 * d + 192))
def shTarget (h : Shape) : Nat := bits h.toNat 3 2
def shSize (h : Shape) : Nat := 2 ^ bits h.toNat 1 0
def shCount (h : Shape) : Nat := shExt h 0 * shExt h 1 * shExt h 2 * shExt h 3
def shTile (h : Shape) : Nat := bits h.toNat 99 96
/-- R319: the byte that the strides start from. -/
def shBase (h : Shape) : Nat :=
  match shTarget h with
  | 1 => bits h.toNat 78 64
  | 2 => bits h.toNat 95 64
  | _ => bits h.toNat 127 64

/-- R319, R5: a shape register as it holds what is written to it: its ZERO fields stay zero. -/
def shKept (n : Nat) : Shape := BitVec.ofNat 512 (bits n 447 192 * 2 ^ 192 + bits n 127 64 * 2 ^ 64 + bits n 3 0)
/-- R319: the shape is valid. -/
def shValid (h : Shape) : Bool := shTarget h != 3 && (List.range 4).all (fun d => shExt h d != 0)
/-- R332: BASE and strides are multiples of the element size. -/
def shAligned (h : Shape) : Bool :=
  shBase h % shSize h == 0 && (List.range 4).all (fun d => shStride h d % (shSize h : Int) == 0)

/-- R320: index along dimension `d` of canonical element `n`. -/
def shIndex (h : Shape) (n d : Nat) : Nat := n / ((List.range d).foldl (fun p j => p * shExt h j) 1) % shExt h d
/-- R320: the byte at which element `n` lies. -/
def shAt (h : Shape) (n : Nat) : Int :=
  (shBase h : Int) + (List.range 4).foldl (fun (acc : Int) d => acc + (shIndex h n d : Int) * shStride h d) 0
/-- The address of an element of an address side. -/
def shAddr (h : Shape) (n : Nat) : Nat := (shAt h n % (2 ^ 64 : Int)).toNat

/-- R321: how many elements from `n` on share the indices above dimension 0 and, in the global window, the frame of the first. -/
def shRun (h : Shape) (n : Nat) : Nat :=
  let row := shExt h 0 - shIndex h n 0
  let a := shAddr h n
  if shTarget h = 0 && addrKind a = 0 then
    let st := shStride h 0
    let o := a % 65536
    if st = 0 then row
    else if 0 < st then min row ((65535 - o) / st.toNat + 1)
    else min row (o / (-st).toNat + 1)
  else row

/-- R321: the segments from element `n` to the end: first element and length. -/
def segmentsFrom (src dst : Shape) : Nat → Nat → List (Nat × Nat)
  | 0, _ => []
  | fuel + 1, n =>
    let total := shCount src
    if total ≤ n then []
    else
      let len := max 1 (min (min (total - n) (4096 / shSize src)) (min (shRun src n) (shRun dst n)))
      (n, len) :: segmentsFrom src dst fuel (n + len)
def segments (src dst : Shape) : List (Nat × Nat) := segmentsFrom src dst (shCount src) 0

/-- R277: elements `ns` of an address side lie in a tract-peer region, as far as they translate. -/
def State.peerSide (s : State) (a : Agent) (h : Shape) (k : Access) (ns : List Nat) : Bool :=
  shTarget h == 0 && ns.any (fun n => addrKind (shAddr h n) == 0 &&
    (match s.walkOnly (clusterOf a.core) (a.space false) k (shAddr h n) with
      | .ok f => inPeer f.pa
      | .error _ => false))
/-- R277, R278: the scope of a copy between two shapes: `.x` where a side is a peer region, and `.d` elsewhere. -/
def State.copyScope (s : State) (a : Agent) (src dst : Shape) : Nat :=
  if shValid src && shValid dst && shCount src == shCount dst then
    let ns := (segments src dst).map (fun p => p.1)
    if s.peerSide a src .read ns || s.peerSide a dst .write ns then 5 else 4
  else 4

end Sys2Proof.Machine
end

