-- ==== Sys2Proof/Machine/Special.lean ====
section
/-!
DEFINITION. The special registers (05 R123 to R125) and the growth of the vector allotment (05 R110 to R116): the queue of a
partition, grants, relief by spilling a strand to its register image, and its refill.
-/
namespace Sys2Proof.Machine

/-- A holding word ends: its record is folded and the fragment goes on (02 R32, 21 R443). -/
def State.endHold (s : State) (sid : Nat) (slot : Bool) : State :=
  match s.strand sid with
  | none => s
  | some st =>
    match st.frag slot with
    | none => s
    | some f =>
      let st := st.foldWord st.whole f f.word
      s.setStrand sid (st.setFrag slot (some f.next))

/-- The fragment of the word in hand waits. -/
def Ctx.hold (c : Ctx) (s : State) (h : Hold) : State :=
  s.modStrand c.sid (fun st => st.setFrag c.slot (some { c.f with hold := h }))

/-- VALLOT (R123). -/
def Strand.vallot (st : Strand) : Nat := st.allotment * 2 ^ 24 + st.granules.toNat

/-- R123: the value of a special register. -/
def Ctx.special (c : Ctx) (n : Nat) : Nat :=
  match n with
  | 0 => c.f.mask.toNat
  | 1 => (c.f.mask &&& guardMask c.st c.f.mode).toNat
  | 2 => c.st.strandId.toNat
  | 3 => c.st.gangInfo.toNat
  | 4 => c.st.launchShape.toNat
  | 5 => c.st.launchArg.toNat
  | 6 => c.st.ident.toNat
  | 7 => c.st.vallot
  | 8 => c.s.dclk.toNat
  | 9 => (c.s.core c.core).hintMiss.toNat
  | 10 => c.st.ctxBase.toNat
  | 11 => c.st.user0.toNat
  | _ => c.st.user1.toNat

/-- R125. -/
def execRdsr (d sg : BitVec 8) (s : State) : Out :=
  strandWord (.rdsr d sg) (fun c =>
    let x := c.special sg.toNat
    c.result (sprWide sg.toNat) d (Vals.gen (fun _ => x))) s

/-- R125: writes a special register. -/
def Ctx.setSpecial (c : Ctx) (n : Nat) (x : Nat) : State :=
  let v : DWord := BitVec.ofNat 64 x
  match n with
  | 9 =>
    let k := c.s.core c.core
    c.doneIn (c.s.setCore c.core { k with hintMiss := v })
  | 10 => c.done { c.st with ctxBase := v &&& ~~~0xFFF#64 }
  | 11 => c.done { c.st with user0 := v }
  | _ => c.done { c.st with user1 := v }

/-- R125, R396: the protected registers need the kernel right. -/
def execWrsr (sg a : BitVec 8) (s : State) : Out :=
  strandWord (.wrsr sg a) (fun c =>
    if (sg == 9 || sg == 10) && !c.st.rightKernel then c.raiseWide .permission 0
    else
      match c.act.lowest with
      | none => c.done c.st
      | some L => c.setSpecial sg.toNat ((c.source 1 (sprWide sg.toNat) a).at L)) s

/-! ### Growth -/

/-- The number of granules of a map. -/
def granCount (g : BitVec 24) : Nat := ((List.range 24).filter (fun j => g.getLsbD j)).length

/-- R110: GRAN_COUNT of the strand's slot. -/
def State.share (s : State) (core : Nat) (st : Strand) : Nat :=
  match s.block st.block with
  | some b => bits (s.dpr core b.domSlot) 48 40
  | none => bits (s.dpr core 0) 48 40

/-- The strands of a partition. -/
def State.partStrands (s : State) (core part : Nat) : List (Nat × Strand) :=
  s.strands.filter (fun p => coreOf p.1 == core && partOf p.1 == part)

/-- R73: the granules of a partition that placement units have reserved. -/
def State.reservedGranules (s : State) (core part : Nat) : Nat :=
  s.units.foldl (fun n u => (u.2.reserved.getD []).foldl (fun n x =>
    n + (x.strands.filter (fun k => coreOf k == core && partOf k == part)).length * x.granules) n) 0
/-- The granules of a partition that its strands hold. -/
def State.heldGranules (s : State) (core part : Nat) : Nat :=
  (s.partStrands core part).foldl (fun n p => if p.2.spilled then n else n + granCount p.2.granules) 0
/-- R116: the granules that strands of a partition have given up while writes to them are in flight. -/
def State.landingGranules (s : State) (core part : Nat) : Nat :=
  (s.partStrands core part).foldl (fun n p =>
    let ds := (s.flightsOf p.1).flatMap Flight.dests
    n + ((List.range 24).filter (fun g => !p.2.granules.getLsbD g && ds.any (fun d => d / 8 == g))).length) 0
/-- R110: the free granules of a partition's share. -/
def State.freeGranules (s : State) (core part : Nat) : Nat :=
  match s.partStrands core part with
  | [] => 0
  | (_, st) :: _ => s.share core st - s.heldGranules core part - s.landingGranules core part - s.reservedGranules core part

/-- R112: the requested set. -/
def granSet (a b : BitVec 8) : BitVec 24 :=
  (List.range 24).foldl (fun (m : BitVec 24) j =>
    if a.toNat / 8 ≤ j && j ≤ b.toNat / 8 then m ||| (1#24 <<< j) else m) 0

/-- R113. -/
def execVgrow (a b : BitVec 8) (s : State) : Out :=
  strandWord (.vgrow a b) (fun c =>
    let need := granSet a b &&& ~~~c.st.granules
    if granCount c.st.granules + granCount need > c.s.share c.core c.st then c.raiseWide .domain 0
    else if need = 0 then c.done c.st
    else
      let k := c.s.core c.core
      let p := partOf c.sid
      let q := (Tbl.get [] k.growth p).filter (fun r => r.refill || r.strand != c.sid || r.slot != c.slot) ++
        [⟨c.sid, c.slot, need, c.s.dclk, false⟩]
      c.hold (c.s.setCore c.core { k with growth := Tbl.put k.growth p q }) .grow) s

/-- R116: the registers of removed granules lose their contents. -/
def Strand.dropGranules (st : Strand) (g : BitVec 24) : Strand :=
  { st with
    granules := st.granules &&& ~~~g
    v := st.v.filter (fun p => !g.getLsbD (p.1 / 8)) }
/-- R116. -/
def execVshrink (a b : BitVec 8) (s : State) : Out :=
  strandWord (.vshrink a b) (fun c => c.done (c.st.dropGranules (granSet a b))) s

/-- R113, R115: the requests that may be granted now: those of strands that are not spilled, and refills, but not a withdrawn one
(its mark is `slot`) before its strand is resumed. -/
def State.growQueue (s : State) (core part : Nat) : List GrowReq :=
  (Tbl.get [] (s.core core).growth part).filter (fun r =>
    match s.strand r.strand with
    | some st => if r.refill then !r.slot || (!st.stopped && st.openFault.isNone) else !st.spilled
    | none => false)

/-- The oldest of a list of requests. -/
def oldestReq : List GrowReq → Option GrowReq
  | [] => none
  | x :: r =>
    match oldestReq r with
    | none => some x
    | some y => if y.age < x.age then some y else some x

/-- Removes one request. -/
def State.dropReq (s : State) (core part : Nat) (r : GrowReq) : State :=
  let k := s.core core
  s.setCore core { k with growth := Tbl.set [] k.growth part ((Tbl.get [] k.growth part).erase r) }

/-- R116: writes to removed registers of the same names have not landed yet, and are to be discarded. -/
def State.writesDue (s : State) (r : GrowReq) : Bool :=
  (s.flightsOf r.strand).any (fun f => f.dests.any (fun d => r.need.getLsbD (d / 8)))

/-- R113: the fragment of a request waits in `vgrow`; one that a trap has moved elsewhere does not, and issues it again. -/
def State.growWaits (s : State) (r : GrowReq) : Bool :=
  (s.strand r.strand).any (fun st => (st.frag r.slot).any (fun f => f.hold == .grow))
/-- R113: the granules of a grant are zeroed and join the map. -/
def Strand.grant (st : Strand) (need : BitVec 24) : Strand :=
  let st := st.dropGranules need
  { st with granules := st.granules ||| need }
/-- R113, R415: a granted `vgrow` completes; that of a strand that is being stopped is the word at which the strand resumes, and
completes when it issues again. -/
def State.endGrow (s : State) (sid : Nat) (slot : Bool) : State :=
  match s.strand sid with
  | none => s
  | some st =>
    if st.stopped || st.openFault.isSome then
      s.setStrand sid (match st.frag slot with
        | some f => st.setFrag slot (some { f with hold := .none })
        | none => st)
    else s.endHold sid slot
/-- R113: the oldest request is granted when its granules are free. -/
def execGrowthGrant (core part : Nat) (s : State) : Out :=
  .next (match oldestReq (s.growQueue core part) with
    | none => s
    | some r =>
      if !r.refill && !s.growWaits r then s.dropReq core part r
      else if r.refill || s.writesDue r || s.freeGranules core part < granCount r.need then s
      else ((s.dropReq core part r).modStrand r.strand (fun st => st.grant r.need)).endGrow r.strand r.slot)

/-- R114: every live fragment of the strand waits in `vgrow`. -/
def Strand.blocked (st : Strand) : Bool :=
  [st.fragA, st.fragB].all (fun f => match f with
    | some f => f.hold == .grow
    | none => true)

/-- R114: the condition of relief. -/
def State.reliefDue (s : State) (core part : Nat) (r : GrowReq) : Bool :=
  decide (s.freeGranules core part < granCount r.need) &&
  ((s.partStrands core part).all (fun p => p.2.spilled || p.2.blocked) || decide (s.dclk.toNat ≥ r.age.toNat + 65536))

/-- A cause of an access to the context image, at the offset's page, with the address (R122). -/
def State.ctxFault (s : State) (st : Strand) (off n : Nat) (k : Access) : Option (Cause × Detail × Nat) :=
  (pieces (st.ctxBase.toNat + off) n).findSome? (fun p =>
    match s.translateOutside st.space k p.1 with
    | some (_, .bad e d) => some (e, d, p.1)
    | _ => none)
/-- The same for the granules of a map (R122). -/
def State.granuleFault (s : State) (st : Strand) (map : BitVec 24) (k : Access) : Option (Cause × Detail × Nat) :=
  (List.range 24).findSome? (fun g => if map.getLsbD g then s.ctxFault st (1024 * g) 1024 k else none)

/-- R114: the victim: the youngest strand with a granule that is not the strand of the oldest request.  A strand that has stopped,
as one whose spill was abandoned has (R115), is passed over while its image faults. -/
def State.victim (s : State) (core part : Nat) (r : GrowReq) : Option (Nat × Strand) :=
  let l := (s.partStrands core part).filter (fun p =>
    p.1 != r.strand && p.2.granules != 0 && !p.2.spilled &&
    ((p.2.openFault.isNone && !p.2.stopped) || (s.granuleFault p.2 p.2.granules .write).isNone))
  l.foldl (fun acc p =>
    match acc with
    | none => some p
    | some q => if q.2.startTime ≤ p.2.startTime then some p else some q) none

/-- The value of 32 lanes of words as they stand in memory, lane 0 first. -/
def lanesNat (v : Lanes Word) : Nat := v.foldr (fun w n => w.toNat + 2 ^ 32 * n) 0
/-- The lanes of a memory value. -/
def natLanes (x : Nat) : Lanes Word := Lanes.gen (fun L => BitVec.ofNat 32 (x / 2 ^ (32 * L)))

/-- R122: `n` bytes of the context image; a piece that does not lie in this package's memory reads as free values. -/
def State.readCtx (s : State) (st : Strand) (off n : Nat) : Nat × State :=
  match s.readVa st.space (st.ctxBase.toNat + off) n with
  | some x => (x, s)
  | none =>
    ((List.range ((n + 7) / 8)).foldl (fun x j => x + (Config.freeDWord (s.fresh + j)).toNat * 2 ^ (64 * j)) 0,
      { s with fresh := s.fresh + (n + 7) / 8 })

/-- R122: stores the held granules of a strand to its image. -/
def State.storeGranules (s : State) (st : Strand) : State :=
  (List.range 24).foldl (fun s g =>
    if st.granules.getLsbD g then
      (List.range 8).foldl (fun s j => s.writeCtx st (1024 * g + 128 * j) 128 (lanesNat (st.reg (8 * g + j)))) s
    else s) s
/-- R122: loads the granules of a map from the image. -/
def State.loadGranules (s : State) (st : Strand) (map : BitVec 24) : Strand × State :=
  (List.range 192).foldl (fun acc r =>
    if map.getLsbD (r / 8) then
      match acc.2.readCtx st (128 * r) 128 with
      | (x, s) => ({ acc.1 with v := Tbl.set Lanes.zero acc.1.v r (natLanes x) }, s)
    else acc) (st, s)

/-- A cause raised on a strand at its next instruction boundary, with the PC of the next word of its first fragment. -/
def State.raiseNext (s : State) (sid : Nat) (st : Strand) (cause : Cause) (addr : DWord) (d : Detail) : State :=
  let slot := st.fragA.isNone
  match st.frag slot with
  | none => s
  | some f => s.raise sid slot f.pc ⟨cause, true, f.mask, 0, addr, d, 255⟩ none false

/-- R114, R115: relief spills one victim. -/
def execGrowthRelief (core part : Nat) (s : State) : Out :=
  .next (match oldestReq (s.growQueue core part) with
    | none => s
    | some r =>
      if !s.reliefDue core part r then s
      else
        match s.victim core part r with
        | none => s
        | some (k, st) =>
          if (s.flightsOf k).any (fun f => f.dests.any (· < 192)) then s
          else
            match s.granuleFault st st.granules .write with
            | some (e, d, a) => s.raiseNext k st e (BitVec.ofNat 64 a) d
            | none =>
              let s := s.storeGranules st
              let s := s.modStrand k (fun st => { st with spilled := true, v := [] })
              let c := s.core core
              let q := Tbl.get [] c.growth part ++ [⟨k, false, st.granules, s.dclk, true⟩]
              s.setCore core { c with growth := Tbl.put c.growth part q })

end Sys2Proof.Machine
end

