-- ==== Sys2Proof/Machine/Sync.lean ====
section
/-!
DEFINITION. The words that wait and synchronise (11 R294 to R303, R312, R313), the expiry of their waits (20 R440, R441), and
what ends the hold of each holding word (02 R32).
-/
namespace Sys2Proof.Machine

/-! ### Numbered barriers -/

/-- R295: the phase that a `barw` of the strand waits for. -/
def Barrier.waitPhase (x : Barrier) (strand : Nat) : Word :=
  match Tbl.find x.token strand with
  | some t => if phasePassed x.phase t then x.phase else t
  | none => x.phase

/-- R291, R441: the word in hand waits for phase `p` of barrier `k`, or ends where the phase has passed. -/
def Ctx.waitBarrier (c : Ctx) (s : State) (k : Nat) (p : Word) : State :=
  match s.block c.st.block with
  | none => s
  | some b =>
    let x := b.barrier k
    let key := waitKey c.st.number c.slot
    if phasePassed x.phase p then
      c.doneIn (s.setBlock c.st.block (b.setBarrier k { x with waits := Tbl.del x.waits key }))
    else
      let y := { x.beginWait p s.dclk with waits := Tbl.put x.waits key p }
      let s := s.setBlock c.st.block (b.setBarrier k y)
      if x.expired && x.phase == p && !x.full then
        s.raiseTimeout c.sid c.slot (s.barrierDetail c.st.block k x p (x.firstWait.getD s.dclk)) s.dclk
      else c.hold s (.bar k p)

/-- R293: the wait that a word resumes, if it was stopped in one. -/
def Ctx.resumedWait (c : Ctx) (k : Nat) : Option Word :=
  if c.f.resumed then
    match c.block with
    | some b => Tbl.find (b.barrier k).waits (waitKey c.st.number c.slot)
    | none => none
  else none

/-- R295, R286, R290. -/
def execBar (k : BitVec 4) (s : State) : Out :=
  strandWord (.bar k) (fun c =>
    match c.resumedWait k.toNat, c.block with
    | some p, _ => c.waitBarrier c.s k.toNat p
    | none, some b =>
      let x := b.barrier k.toNat
      let s := c.s.arriveOn c.st c.f.mask k.toNat
      let p := match s.block c.st.block with
        | some b' =>
          if covers (Tbl.get 0 x.lanes c.st.number ||| c.f.mask) c.st.liveLanes then
            (Tbl.find (b'.barrier k.toNat).token c.st.number).getD x.phase
          else x.waitPhase c.st.number
        | none => 0
      c.waitBarrier s k.toNat p
    | none, none => c.s) s
/-- R295, R286. -/
def execBarar (k : BitVec 4) (s : State) : Out :=
  strandWord (.barar k) (fun c => c.doneIn (c.s.arriveOn c.st c.f.mask k.toNat)) s
/-- R295. -/
def execBararArm (k : BitVec 4) (a : BitVec 8) (s : State) : Out :=
  strandWord (.bararArm k a) (fun c =>
    let x := c.lowest false a
    match c.block with
    | none => c.s
    | some b =>
      if x / 4096 ≠ 0 || bits x 7 6 ≠ 0 || bits x 5 0 > 32 then c.raiseWide .illegalOperand 0
      else
        let y := b.barrier k.toNat
        let e := (if bits x 5 0 = 0 then b.strands else bits x 5 0, bits x 11 8)
        let y := if y.arrivals = 0 && y.seqArrived = 0 then { y with strandsExpect := e.1, seqExpect := e.2 }
          else { y with nextExpect := some e }
        c.doneIn (c.s.setBlock c.st.block (b.setBarrier k.toNat y))) s
/-- R295. -/
def execBarw (k : BitVec 4) (s : State) : Out :=
  strandWord (.barw k) (fun c =>
    match c.resumedWait k.toNat, c.block with
    | some p, _ => c.waitBarrier c.s k.toNat p
    | none, some b => c.waitBarrier c.s k.toNat ((b.barrier k.toNat).waitPhase c.st.number)
    | none, none => c.s) s
/-- R296: the word as it stands in the local offset space. -/
def execBarst (d : BitVec 8) (k : BitVec 4) (s : State) : Out :=
  strandWord (.barst d k) (fun c =>
    match c.block with
    | none => c.s
    | some b =>
      let x := b.readN (b.statusAt k.toNat) 8
      c.resultNoLatch true d (Vals.gen (fun _ => x))) s

/-! ### Group barriers -/

/-- R299, R297: the word in hand waits for phase `p` of group `g`, or leaves it. -/
def Ctx.waitGroup (c : Ctx) (s : State) (g p : Nat) : State :=
  match s.block c.st.block with
  | none => s
  | some b =>
    match s.launch b.launch with
    | none => s
    | some l =>
      let key := waitKey c.st.number c.slot
      if Tbl.get 0 l.groupPhase g > p then
        let s := s.setBlock c.st.block { b with groupWait := Tbl.del b.groupWait key }
        let s := s.raiseClock (clusterOf c.core) (Tbl.get (s.cluster (clusterOf c.core)).clock l.groupStamp g)
        c.doneIn s
      else
        let s := s.setBlock c.st.block { b with groupWait := Tbl.put b.groupWait key (g, p) }
        let s := s.modLaunch b.launch (fun l => l.beginWait g p s.dclk)
        let first := s.groupFirst b.launch g
        if l.groupBroken.contains g || (first.any Prod.snd && Tbl.get 0 l.groupPhase g == p) then
          s.raiseTimeout c.sid c.slot (s.groupDetail c.st.block g p ((first.map Prod.fst).getD s.dclk)) s.dclk
        else c.hold s (.gbar g p s.dclk)

/-- R297 to R299. -/
def execGbar (g : BitVec 8) (s : State) : Out :=
  strandWord (.gbar g) (fun c =>
    match c.block with
    | none => c.s
    | some b =>
      let members := match c.s.launch b.launch with
        | some l => Tbl.get [] l.groups g.toNat
        | none => []
      let resumed := if c.f.resumed then
          (Tbl.find b.groupWait (waitKey c.st.number c.slot)).bind (fun w => if w.1 = g.toNat then some w.2 else none)
        else none
      match resumed with
      | some p => c.waitGroup c.s g.toNat p
      | none =>
        if !members.contains (c.s.memberOf b) then c.raiseWide .illegalOperand 0
        else if (match c.s.launch b.launch with | some l => l.groupBroken.contains g.toNat | none => false) then
          c.s.raiseTimeout c.sid c.slot (c.s.groupDetail c.st.block g.toNat (c.s.groupPhaseFor b g.toNat) c.s.dclk) c.s.dclk
        else
          let counted := covers (Tbl.get 0 b.groupLanes (groupKey g.toNat c.st.number) ||| c.f.mask) c.st.liveLanes
          let p0 := c.s.groupPhaseFor b g.toNat
          let s := c.s.arriveGroup c.st c.f.mask g.toNat
          let p := match s.block c.st.block with
            | some b' => if counted then Tbl.get p0 b'.groupToken (groupKey g.toNat c.st.number) else p0
            | none => p0
          c.waitGroup s g.toNat p) s

/-! ### Completion flags and counters -/

/-- R300. -/
def execFwait (m : BitVec 12) (s : State) : Out :=
  strandWord (.fwait m) (fun c => if c.st.flags &&& m = 0 then c.done c.st else c.hold c.s (.flags m)) s

/-- R277: a block's counter, and the requests submitted to its context. -/
def Block.counter (b : Block) (c : Nat) : DWord × DWord :=
  match c with
  | 0 => (b.copy.tlc, b.copy.submitted)
  | 1 => (b.seq.tlm, b.seq.submitted)
  | 2 => (b.stoch.tls, b.stoch.submitted)
  | _ => (b.tlx, b.tlxSubmitted)

/-- R325, R347, R475: the recorded cause that a wait on `n` of counter `c` raises, and the block without it. -/
def Block.engineCause (b : Block) (c : Nat) (n : DWord) (m : Mask) : Option (Raised × Block) :=
  match c with
  | 0 =>
    match b.copy.reqs.find? (fun r => r.finished && r.error.isSome && !r.raised && decide (r.n ≤ n)) with
    | some r =>
      match r.error with
      | some (cause, dst, addr) =>
        let d : Detail := BitVec.ofNat 512 (r.n.toNat + (if dst then 2 ^ 64 else 0) + addr.toNat * 2 ^ 128)
        let reqs := b.copy.reqs.map (fun x => if x.n = r.n then { x with raised := true } else x)
        some (Raised.wide cause m d, { b with copy := { b.copy with reqs := reqs } })
      | none => none
    | none => none
  | 1 =>
    match b.seq.causes.find? (fun x => decide (x ≤ n)) with
    | some x => some (Raised.wide .poisonConsumed m 0, { b with seq := { b.seq with causes := b.seq.causes.filter (· != x) } })
    | none => none
  | 3 =>
    match b.tlxGone.find? (fun x => decide (x.1 ≤ n)) with
    | some x => some (Raised.wide .remoteGone m (BitVec.ofNat 512 x.2), { b with tlxGone := b.tlxGone.filter (· != x) })
    | none => none
  | _ => none

/-- R415: a word of `pc` has ended, and an engine's recorded cause is raised after it. -/
def State.raiseEngine (s : State) (sid : Nat) (slot : Bool) (pc : DWord) (c : Nat) (n : DWord) (m : Mask) : State :=
  match s.strand sid with
  | none => s
  | some st =>
    match s.block st.block with
    | none => s
    | some b =>
      match b.engineCause c n m with
      | none => s
      | some (r, b) => (s.setBlock st.block b).raiseEnded sid slot pc r

/-- R301. -/
def execTwait (cn : BitVec 2) (a : BitVec 8) (s : State) : Out :=
  strandWord (.twait cn a) (fun c =>
    match c.act.lowest, c.block with
    | some L, some b =>
      let n : DWord := BitVec.ofNat 64 ((c.plain true a).at L)
      if (b.counter cn.toNat).2 < n then c.raiseWide .illegalOperand 0
      else if n ≤ (b.counter cn.toNat).1 then ((c.done c.st).acquireCounter c.core c.st.block cn.toNat n).raiseEngine c.sid c.slot c.f.pc cn.toNat n c.act
      else c.hold c.s (.counter cn.toNat n c.s.dclk c.s.nextFlight)
    | _, _ => c.done c.st) s
/-- R302. -/
def execTget (d : BitVec 8) (cn : BitVec 2) (s : State) : Out :=
  strandWord (.tget d cn) (fun c =>
    match c.block with
    | none => c.s
    | some b =>
      let x := (b.counter cn.toNat).1.toNat
      c.resultNoLatch true d (Vals.gen (fun _ => x))) s

/-! ### Fences and monitors -/

/-- R303, R241: the fence is done; stores lost since the last one are reported once. -/
def State.endFence (s : State) (sid : Nat) (slot : Bool) (pc : DWord) (m : Mask) : State :=
  let s := s.endHold sid slot
  match s.strand sid with
  | none => s
  | some st =>
    if st.lost = 0 then s
    else
      let d : Detail := BitVec.ofNat 512 (st.lostPeer.toNat + st.lost.toNat * 2 ^ 32)
      (s.setStrand sid { st with lost := 0, lostPeer := 0 }).raiseEnded sid slot pc (Raised.wide .remoteGone m d)

/-- R303, R262, R269, R276. -/
def execFence (sc : BitVec 3) (s : State) : Out :=
  strandWord (.fence sc) (fun c =>
    if sc = 0 then c.s.endFence c.sid c.slot c.f.pc c.act
    else if c.s.releasable c.sid c.s.nextFlight (c.s.scopeFor c.core sc.toNat) then
      (c.s.observed c.core (c.s.scopeFor c.core sc.toNat)).endFence c.sid c.slot c.f.pc c.act
    else c.hold c.s (.fence sc.toNat c.s.nextFlight)) s

/-- R313. -/
def execMwait (a : BitVec 8) (s : State) : Out :=
  strandWord (.mwait a) (fun c =>
    if !c.st.rightMwait then c.raiseWide .domain 0
    else
      match c.act.lowest with
      | none => c.done { c.st with monitor := none }
      | some L =>
        let t := (c.plain false a).at L
        if t = 0 then c.raiseWide .illegalOperand 0
        else
          match c.st.monitor with
          | none => c.done c.st
          | some m =>
            if m.fired || m.lost then c.done { c.st with monitor := none }
            else c.hold c.s (.mwait (c.s.dclk + BitVec.ofNat 64 t) (BitVec.ofNat 32 t))) s

/-- R248, R241: every `tlbinv` of the strand issued before `upto` has completed, and no access that was translated before is still
under way, at a peer either. -/
def State.tlbSettled (s : State) (sid upto : Nat) : Bool :=
  s.flights.all (fun f =>
    upto ≤ f.id ||
    ((match f.op with | .tlbinv .. => f.strand != sid | _ => true) && (f.pages.isEmpty || f.finished))) &&
  s.peerStores.all (fun p => upto ≤ p.pos)

/-! ### The end of a hold -/

/-- A holding word is looked at again (R32, R293, R300, R301, R303, R313, R248). -/
def State.releaseHold (s : State) : State :=
  let sid := s.cur
  let slot := s.curSlot
  match s.strand sid with
  | none => s
  | some st =>
    match st.frag slot with
    | none => s
    | some f =>
      match f.hold with
      | .bar k p =>
        match s.block st.block with
        | none => s
        | some b =>
          let x := b.barrier k
          if phasePassed x.phase p then
            (s.setBlock st.block (b.setBarrier k { x with waits := Tbl.del x.waits (waitKey st.number slot) })).endHold sid slot
          else s
      | .gbar g p since =>
        match s.block st.block with
        | none => s
        | some b =>
          match s.launch b.launch with
          | none => s
          | some l =>
            let cl := clusterOf (coreOf sid)
            if Tbl.get 0 l.groupPhase g > p then
              let s := s.setBlock st.block { b with groupWait := Tbl.del b.groupWait (waitKey st.number slot) }
              (s.raiseClock cl (Tbl.get (s.cluster cl).clock l.groupStamp g)).endHold sid slot
            else if l.groupBroken.contains g then
              s.raiseTimeout sid slot (s.groupDetail st.block g p (((s.groupFirst b.launch g).map Prod.fst).getD since)) s.dclk
            else s
      | .flags m => if st.flags &&& m = 0 then s.endHold sid slot else s
      | .counter c n _ _ =>
        match s.block st.block with
        | none => s
        | some b =>
          if n ≤ (b.counter c).1 then
            ((s.endHold sid slot).acquireCounter (coreOf sid) st.block c n).raiseEngine sid slot f.pc c n (activeMask st f (opcodeOf f.word))
          else s
      | .fence scope upto =>
        if s.releasable sid upto (s.scopeFor (coreOf sid) scope) then
          (s.observed (coreOf sid) (s.scopeFor (coreOf sid) scope)).endFence sid slot f.pc (activeMask st f (opcodeOf f.word)) else s
      | .tlbsync upto => if s.tlbSettled sid upto then s.endHold sid slot else s
      | .mwait _ _ =>
        match st.monitor with
        | none => s.endHold sid slot
        | some m => if m.fired || m.lost then (s.setStrand sid { st with monitor := none }).endHold sid slot else s
      | .none | .grow | .promise _ _ _ | .service _ => s

/-- Whether a look at a holding fragment would end its hold. -/
def State.holdEnds (s : State) (sid : Nat) (slot : Bool) (st : Strand) (f : Frag) : Bool :=
  let s1 := ({ s with cur := sid, curSlot := slot }).releaseHold
  match s1.strand sid with
  | some st1 => (st1.frag slot).map Frag.hold != some f.hold || st1.openFault != st.openFault || st1.stopped != st.stopped
  | none => false

/-! ### Waits that expire -/

/-- R440, R291, for barriers 0 to 15, and for the groups numbered from 16 (R298). -/
def execBarrierWatchdogExpiry (block barrier : Nat) (s : State) : Out :=
  .next (if barrier < 16 then s.expireBarrier block barrier else s.expireGroup block (barrier - 16))

/-- R291, R292. -/
def execTwaitTimeout (strand : Nat) (slot : Bool) (s : State) : Out :=
  .next (match (s.strand strand).bind (fun st => (st.frag slot).map (fun f => (st, f))) with
    | none => s
    | some (st, f) =>
      match f.hold, s.block st.block with
      | .counter c n since _, some b =>
        if s.dclk.toNat < since.toNat + b.limitTicks || n ≤ (b.counter c).1 then s
        else s.raiseTimeout strand slot (timeoutDetail since (s.liveStrands st.block) 0 (n.toNat % 2 ^ 32) 0 0 0 0 2 c) (b.expiryTick since)
      | _, _ => s)

/-- R313. -/
def execMwaitExpiry (strand : Nat) (slot : Bool) (s : State) : Out :=
  .next (match (s.strand strand).bind (fun st => (st.frag slot).map (fun f => (st, f))) with
    | none => s
    | some (st, f) =>
      match f.hold, st.monitor with
      | .mwait stop t, some m =>
        if s.dclk < stop || m.fired || m.lost then s
        else
          (s.setStrand strand { st with monitor := none }).raise strand slot f.pc
            (Raised.wide .mwaitTimeout (activeMask st f (opcodeOf f.word)) (BitVec.ofNat 512 t.toNat)) none false
      | _, _ => s)

end Sys2Proof.Machine
end

