-- ==== Sys2Proof/WellFormed.lean ====
section
/-!
DEFINITION. The legality of an instruction that does not depend on the strand that issues it: the operand codes under the
narrowest TYPE (02 R16 to R22), raw codes and immediates, the set fields of a header (R24), and the fields of sequencer
words (14 R357, R358).
-/
namespace Sys2Proof

/-- R24: SET_A and SET_B of a header. -/
def headerOk (a b : BitVec 4) : Bool :=
  let bad x := 12 ≤ x && x ≤ 14
  !bad a.toNat && !bad b.toNat && (a != b || a == 15)

/-- R357: BAR is 0 when ARR is 0. -/
def arrivalOk (e : BitVec 1) (b : BitVec 4) : Bool := e == 1 || b == 0

/-- R15, R357, R358, R359: fields that a sequencer word does not use, by its kind. -/
def seqFieldsOk (i : Instr) : Bool :=
  match i with
  | .mmul e b _ _ | .mzero e b _ | .mout e b _ _ _ _ | .mtrn e b _ _ | .maddt e b _ _ | .mmax e b _ _ => arrivalOk e b
  | .mloop s r n => if s = 1 then n == 0 else r == 0
  | .mscl k i r => if k = 0 then r == 0 else i == 0
  | _ => true

/-- An instruction is well formed. -/
def Instr.wf (i : Instr) : Bool :=
  match i with
  | .clauseStart _ _ a b => headerOk a b
  | .lds _ _ s z | .ld _ _ s z | .ldb _ _ s z =>
    (s == 0 || 2 ≤ z.toNat) &&
    (Machine.operandsOf i).all (fun p => Machine.codeOk false false (fun _ => 1) p.1 p.2.toNat)
  | i =>
    Machine.fieldsOk i && seqFieldsOk i &&
    (Machine.operandsOf i).all (fun p => Machine.codeOk false false (fun _ => 1) p.1 p.2.toNat)

end Sys2Proof
end

