-- ==== Sys2Proof/Machine/Issue.lean ====
section
/-!
DEFINITION. Which word or event a step runs (04 R79 to R81, 08 R233, 02 R26): the eligibility of a fragment, the agenda of
outside choices, and the arbiter that chooses when the agenda is empty (log entry 3).
-/
namespace Sys2Proof.Machine

/-- What a step does. -/
inductive Move where
  | run (i : Instr)
  /-- a body word, or the word where a header is due, that does not decode -/
  | bad (e : DecodeError)
  /-- a holding word is looked at again -/
  | release
  | idle
  deriving DecidableEq, Repr

/-- R234: the words that take an operand-log entry, by opcode. -/
def loggedOp (op : Nat) : Bool :=
  (0x6A ≤ op && op ≤ 0x6B) || op == 0x6E || (0x70 ≤ op && op ≤ 0x7C) || (0x89 ≤ op && op ≤ 0x90) || op == 0xA5 ||
  op == 0xA7 || op == 0xAA || op == 0xAB || op == 0xCC || op == 0xCD

/-- R434, R334: the registers that a holding word in progress is still to write: the reply of a `syscall`, the estimate of a
`sleepu`. -/
def Frag.replyRegs (f : Frag) : List Nat :=
  match f.hold, decode f.word with
  | .service _, .ok (.syscall x _) => [x.toNat, x.toNat + 1]
  | .promise .., .ok (.sleepu a _) => [a.toNat + 2, a.toNat + 3]
  | _, _ => []

/-- R80: registers that some word in flight, some held log entry, or the reply of a service request is still to write. -/
def State.pending (s : State) (sid : Nat) (st : Strand) : List Nat :=
  (s.flightsOf sid).flatMap Flight.dests ++ [st.fragA, st.fragB].flatMap (fun f => (f.map Frag.replyRegs).getD []) ++
  (st.opLog.filter (fun e => e.replay != 0)).flatMap (fun e =>
    match decode e.word with
    | .ok i =>
      (operandsOf i).flatMap (fun p =>
        match p.1 with
        | .dst | .dst64 | .dstT | .vo | .voT | .run _ | .quad | .cas =>
          if p.2.toNat < 208 then (List.range (Role.count (type64 (modeType e.mode)) false (fun _ => 1) p.1)).map (· + p.2.toNat) else []
        | _ => [])
    | .bad _ => [])

/-- R80 and R107: the strand may issue from the slot; not while a cause waits for its next instruction boundary (16 R378). -/
def Strand.mayIssue (s : State) (st : Strand) (slot : Bool) : Bool :=
  !st.halted && !st.stopped && !st.spilled && !st.ended && st.due.isEmpty && st.yielding.isNone && !s.board.stopped &&
  !s.preempting st.block && (!st.inHandler || st.handlerSlot == slot) &&
  (st.inHandler || st.opLog.all (fun e => e.replay == 0))

/-- R233: what a strand with an open fault may still issue. -/
def State.faultAllows (s : State) (sid : Nat) (st : Strand) (slot : Bool) (f : Frag) : Bool :=
  match st.openFault with
  | none => true
  | some o =>
    o.issuing && o.record.frag == slot && !s.stopsIssue sid f &&
    !(f.started && 0x68 ≤ opcodeOf f.word && opcodeOf f.word ≤ 0xCF) &&
    decide (s.dclk.toNat < o.detected.toNat + 512)

/-- The words that access memory from the lane side (R253). -/
def memoryOp (op : Nat) : Bool :=
  (0x68 ≤ op && op ≤ 0x6B) || (0x70 ≤ op && op ≤ 0x75) || (0x89 ≤ op && op ≤ 0x8F) || op == 0xA5 || op == 0xA7 ||
  (0xAA ≤ op && op ≤ 0xAB) || op == 0xCC || op == 0xCD

/-- R263, R276: the stores of a strand before `upto` in program order that a release at a scope awaits: words not visible at it, and
at `.x` words that a peer has still to acknowledge. -/
def State.awaited (s : State) (sid upto scope : Nat) : Nat :=
  let away := if scope < 5 then [] else
    ((s.peerStores.filter (fun p => p.strand == sid && p.copy.isNone && decide (p.pos < upto))).map PeerStore.pos).eraseDups
  let here := (s.flightsOf sid).filter (fun f => f.op.writesMemory && decide (f.pos < upto) && !s.visible f scope)
  here.length + (away.filter (fun p => here.all (fun f => f.pos != p))).length
/-- R263: eight stores of the strand await visibility for one release. -/
def State.storesWait (s : State) (sid : Nat) (st : Strand) : Bool :=
  let at_ (scope : Nat) : Nat := s.scopeFor (coreOf sid) scope
  [st.fragA, st.fragB].any (fun f => match f.map Frag.hold with
    | some (.fence scope upto) => scope != 0 && decide (8 ≤ s.awaited sid upto (at_ scope))
    | _ => false) ||
  (s.flightsOf sid).any (fun f => f.release && f.scope != 0 && decide (8 ≤ s.awaited sid f.pos (at_ f.scope)))

/-- R80: the units that a word needs accept it: the operand log (R234), the function unit (R147), the stores that wait for a
release (R263), the global sequencer (R270), the
stochastic engine (R373).  A save waits for the words before it (R437), and nothing follows a load (R438).  `trap` and `brk`, whose
cause is raised after them, wait until no word before them can fault any more (R417, log entry 65). -/
def State.unitsAccept (s : State) (sid : Nat) (st : Strand) (op : Nat) : Bool :=
  (!loggedOp op || st.opLog.length < 8) &&
  (!(0x3A ≤ op && op ≤ 0x40) ||
    (s.flights.filter (fun f => f.op == .func && f.strand / 16 == sid / 16)).length < 4) &&
  (!memoryOp op || !s.storesWait sid st) &&
  (!(0xB2 ≤ op && op ≤ 0xBC && op != 0xBB) ||
    (match s.block st.block with
      | some b => decide ((b.stoch.reqs.filter (fun q => q.mask != 0)).length < 8)
      | none => true)) &&
  (op != 0xCC || (s.flightsOf sid).isEmpty) && ((op != 0xC9 && op != 0xCB) || s.checked sid) && (s.flightsOf sid).all (fun f => f.op != .ctxLoad) &&
  (op != 0x8C || (s.flightsOf sid).all (fun f => opcodeOf f.word != 0x8C || f.ticket.isSome))

/-- R286, R297: the scope at which the arrivals that an `exit` of the fragment completes release: `.d` for one on a group, `.b` for one
on a barrier. -/
def State.exitScope (s : State) (st : Strand) (f : Frag) : Option Nat :=
  match s.block st.block with
  | none => none
  | some b =>
    let live := st.liveLanes &&& ~~~f.mask
    if b.groupLanes.any (fun p => p.1 % 32 == st.number && covers p.2 live) then some 4
    else if (List.range 16).any (fun k => covers (Tbl.get 0 (b.barrier k).lanes st.number) live) then some 1
    else none
/-- The scope at which a word that is performed in its own step releases what the strand did before (R278, R286, R290, R297, R434):
it issues only when the release may be performed. -/
def State.releaseScope (s : State) (sid : Nat) (st : Strand) (f : Frag) (i : Instr) : Option Nat :=
  match i with
  | .bar _ | .barar _ => some 1
  | .gbar _ => some 4
  | .exit => s.exitScope st f
  | .cpy _ t sr =>
    some (match s.block st.block with
      | some b => s.copyScope (st.agent s sid) (Tbl.get 0 b.shapes sr.toNat) (Tbl.get 0 b.shapes t.toNat)
      | none => 4)
  | .cpym _ t sr _ =>
    some (match s.block st.block with
      | some b => s.copyScope (st.agent s sid) (Tbl.get 0 b.shapes sr.toNat) (Tbl.get 0 b.shapes t.toNat)
      | none => 4)
  | .mgo .. | .mres .. => some 1
  | .zenc .. | .zdec .. | .zand .. | .zxnor .. | .zmin .. | .zmux .. | .zcnt .. | .zdot .. | .zregen .. | .ztop .. => some 1
  | .syscall .. => some 5
  | _ => none

/-- R411: the target of a `dpset` is still being set. -/
def State.beingSet (s : State) (i : Instr) : Bool :=
  let busy (kind : Nat) (t : BitVec 8) : Bool := s.settings.any (fun x => x.kind == kind && x.target == t.toNat)
  match i with
  | .dpsetDpr t _ _ => busy 0 t
  | .dpsetSub t _ _ => busy 1 t
  | .dpsetSeal t _ _ => busy 2 t
  | _ => false

/-- A word that the order of R262, R264, R278 or R411 holds back. -/
def State.orderReady (s : State) (sid : Nat) (st : Strand) (f : Frag) (i : Instr) : Bool :=
  (match s.releaseScope sid st f i with
    | some sc => s.releasable sid s.nextFlight (s.scopeFor (coreOf sid) sc)
    | none => true) && !s.beingSet i

/-- R24: the clause decoder accepts a header with its body. -/
def clauseOk (ws : List Word) : Bool :=
  match ws with
  | [] => false
  | h :: body =>
    let n := h.toNat
    n % 8 == 0 && headerOk (BitVec.ofNat 4 (fld n 10 7)) (BitVec.ofNat 4 (fld n 6 3)) &&
    body.all (fun w => !isHeader w) &&
    decide ((body.filter (fun w => longOp (opcodeOf w))).length ≤ 2) &&
    body.dropLast.all (fun w => opcodeOf w != 0x08)

/-- R26: the flags that a header names in WAIT, SET_A and SET_B. -/
def clauseFlags (h : Word) : BitVec 12 :=
  let n := h.toNat
  let one (v : Nat) : BitVec 12 := if v < 12 then 1#12 <<< v else 0
  BitVec.ofNat 12 (fld n 22 11) ||| one (fld n 10 7) ||| one (fld n 6 3)

/-- The flags that a header names in SET_A and SET_B. -/
def setFlags (h : Word) : BitVec 12 :=
  let n := h.toNat
  let one (v : Nat) : BitVec 12 := if v < 12 then 1#12 <<< v else 0
  one (fld n 10 7) ||| one (fld n 6 3)

/-- R82: the flags that a started clause has claimed and whose word has still to issue. -/
def Frag.claimed (f : Frag) : BitVec 12 :=
  if f.started then
    (List.range f.bodyLen).foldl (fun (m : BitVec 12) j =>
      if f.index ≤ j && longOp (opcodeOf (f.clause.getD (j + 1) 0)) then
        match f.flagAt j with
        | some n => m ||| (f.claims &&& (1#12 <<< n))
        | none => m
      else m) 0
  else 0

/-- R91: the fragment stands at the address of its innermost record. -/
def Strand.atJoin (st : Strand) (f : Frag) : Bool :=
  f.header == f.pc &&
  (match f.join.bind (fun e => Tbl.find st.stack e) with
    | some (.join addr _ _ _ _ _) => addr == f.pc
    | _ => false)

/-- R26: a fetched clause waits for its flags, and for those that the other fragment's clause has taken from it (R82). -/
def Strand.clauseWaits (st : Strand) (f : Frag) (other : Option Frag) : Bool :=
  let taken := match other with
    | some g => g.claimed
    | none => 0
  !f.resumed && !st.atJoin f && clauseOk f.clause && ((st.flags ||| taken) &&& clauseFlags (f.clause.getD 0 0)) != 0

/-- A fragment would start its clause now (R26). -/
def Strand.wouldStart (st : Strand) (f : Frag) (other : Option Frag) : Bool :=
  !f.started && !f.clause.isEmpty && f.hold == .none && !st.atJoin f && clauseOk f.clause && !f.resumed && !st.clauseWaits f other

/-- R82: the flags in SET_A or SET_B that both fragments name in clauses that would start in the same clk. -/
def Strand.rivalFlags (st : Strand) (f g : Frag) : BitVec 12 :=
  if st.wouldStart f (some g) && st.wouldStart g (some f) then setFlags (f.clause.getD 0 0) &&& setFlags (g.clause.getD 0 0) else 0

/-- R82: the other fragment, of lower AGE, starts first. -/
def Strand.yieldsStart (st : Strand) (f : Frag) (other : Option Frag) : Bool :=
  match other with
  | some g => g.age < f.age && st.rivalFlags f g != 0
  | none => false

/-- R80: nothing but its turn holds the body word that a fragment stands at: its registers are clear in the scoreboard, its units
accept it, and no order holds it back. -/
def State.wordReady (s : State) (sid : Nat) (st : Strand) (f : Frag) : Bool :=
  match decode f.word with
  | .bad _ => true
  | .ok i => !((regsOf f i).any (fun r => (s.pending sid st).contains r)) && s.unitsAccept sid st (opcodeOf f.word) && s.orderReady sid st f i

/-- R80: the fragment in a slot is eligible. -/
def State.eligible (s : State) (sid : Nat) (slot : Bool) : Bool :=
  match s.strand sid with
  | none => false
  | some st =>
    match st.frag slot with
    | none => false
    | some f =>
      f.hold == .none && st.mayIssue s slot && s.faultAllows sid st slot f && s.wordReady sid st f &&
      (f.started || (!f.clause.isEmpty && !st.atJoin f && !st.clauseWaits f (st.frag !slot) && !st.yieldsStart f (st.frag !slot)))

/-- What the fragment in a slot does next. -/
def State.moveOf (s : State) (sid : Nat) (slot : Bool) : Move :=
  match s.strand sid with
  | none => .idle
  | some st =>
    match st.frag slot with
    | none => .idle
    | some f =>
      if f.hold != .none then
        if !st.halted && !st.stopped && !st.spilled && st.openFault.isNone && s.holdEnds sid slot st f then .release else .idle
      else if !st.mayIssue s slot || !s.faultAllows sid st slot f then .idle
      else if f.started then
        if !s.wordReady sid st f then .idle
        else
          match decode f.word with
          | .bad e => .bad e
          | .ok i => .run i
      else
        match f.clause with
        | [] => .run .clauseFetch
        | h :: _ =>
          if st.clauseWaits f (st.frag !slot) || st.yieldsStart f (st.frag !slot) then .idle
          else match decode h with
          | .ok i => .run i
          | .bad e => .bad e

/-- A word or header that does not decode (R24, R35, R14, R21, R38): a cause of a header has the header's PC
and the fragment's whole mask (log entry 63). -/
def State.raiseBad (s : State) (e : DecodeError) : State :=
  match s.strand s.cur with
  | none => s
  | some st =>
    match st.frag s.curSlot with
    | none => s
    | some f =>
      let op := opcodeOf f.word
      let lone := op == 0x00 || (0x0C ≤ op && op ≤ 0x0E)
      let m := if f.started then (if lone then f.mask &&& guardMask st f.mode else activeMask st f op) else f.mask
      let c : Cause := match e with
        | .illegalClause => .illegalClause
        | .illegalOperand => .illegalOperand
        | _ => .illegalWord
      s.raise s.cur s.curSlot (if f.started then f.pc else f.header) (Raised.wide c m 0) none false

/-- The strand and slot whose word is executed, and time's advance by one tick (log entry 3), in which barriers may flip (R288). -/
def State.tick (s : State) (cur : Nat) (slot : Bool) : State := ({ s with dclk := s.dclk + 1, cur := cur, curSlot := slot }).flipDue

/-- A move that does something. -/
def Move.acts : Move → Bool
  | .idle => false
  | _ => true

/-- R107: a word of strand `k` has issued, as the strands held by `yield` in its partition see it. -/
def State.noteIssue (s : State) (k : Nat) : State :=
  { s with strands := s.strands.map (fun p =>
      if p.1 / 16 = k / 16 then
        (p.1, { p.2 with yielding := p.2.yielding.map (fun y => (y.1.filter (· != k), y.2)) })
      else p) }

end Sys2Proof.Machine
end

