-- ==== Sys2Proof/Machine/Control.lean ====
section
/-!
DEFINITION. Control of fragments (04 R85 to R108): the fetch and start of clauses (02 R10, R24 to R31), joins, splits and spills,
the control words, and the device's own steps on fragments.
-/
namespace Sys2Proof.Machine

/-! ### Joins, splits and spills -/

/-- R91: the fragment of a fused record takes a slot; R443: SIG starts anew. -/
def Strand.fused (st : Strand) (slot : Bool) (g : Frag) : Strand :=
  let st := st.setFrag slot (some g)
  if st.whole then
    { st with sig := if modeSig g.mode then foldRecord 0 (sigRecord Mask.all 0xFF000002#32) else 0 }
  else st

/-- R91: the arrivals of the fragment in a slot at the record it stands at, one after another. -/
def Strand.arrive : Nat → Strand → Bool → Strand
  | 0, st, _ => st
  | n + 1, st, slot =>
    match st.frag slot with
    | none => st
    | some f =>
      match f.join.bind (fun e => (Tbl.find st.stack e).map (fun x => (e, x))) with
      | some (e, .join addr mask arr mode q parent) =>
        if addr = f.pc then
          let arr := arr ||| f.mask
          if arr = mask then
            let g := { f.atHeader addr with mask := mask, mode := mode, q := q, join := parent, hold := .none }
            Strand.arrive n (Strand.fused { st with stack := Tbl.del st.stack e } slot g) slot
          else
            { st.setFrag slot none with stack := Tbl.put st.stack e (.join addr mask arr mode q parent) }
        else st
      | _ => st

/-- R103, R30: the whole fragment leaves its clause for `t`, and arrives there if it stands at its join. -/
def Strand.transfer (st : Strand) (slot : Bool) (f : Frag) (t : DWord) : Strand :=
  Strand.arrive 256 (st.setFrag slot (some { f.atHeader t with hold := .none })) slot

/-- R88: writes a fragment to the lowest free entry of the stack. -/
def Strand.spill (st : Strand) (e : Nat) (f : Frag) (now : DWord) : Strand :=
  { st with
    stack := Tbl.put st.stack e (.frag f now)
    nextExchange := if st.spilledFrag then st.nextExchange else now + 4096 }

/-- R87, R88: `f` with mask `g` removed stays in its slot as `rest`; the lanes of `g` go to `t`.  `none`: a spill finds no free
entry (R94). -/
def Strand.split (st : Strand) (slot : Bool) (rest : Frag) (g : Mask) (t now : DWord) : Option Strand :=
  let age := st.ageCount + 1
  let child : Frag := { rest.atHeader t with mask := g, age := age, hold := .none }
  let st := { st with ageCount := age }
  match st.frag (!slot) with
  | none => some (Strand.arrive 256 ((st.setFrag slot (some rest)).setFrag (!slot) (some child)) (!slot))
  | some h =>
    match Tbl.freeKey st.stack 0 255 with
    | none => none
    | some e =>
      if h.hold == .none && h.age < rest.age then
        some (Strand.arrive 256 (((st.spill e h now).setFrag slot (some rest)).setFrag (!slot) (some child)) (!slot))
      else some (Strand.arrive 256 ((st.spill e rest now).setFrag slot (some child)) slot)

/-- R443: folds the record of a split of a whole, enabled strand. -/
def Strand.foldSplit (st : Strand) (whole : Bool) (mode : Word) (g : Mask) : Strand :=
  if whole && modeSig mode then { st with sig := foldRecord st.sig (sigRecord g 0xFF000001#32) } else st

/-- R13: PC + 4 × sign_extend(imm16). -/
def target (pc : DWord) (o : BitVec 16) : DWord := pc + (o.signExtend 64 <<< 2)

/-- R419: DETAIL of the overflow of R94. -/
def stackFull : Detail := BitVec.ofNat 512 (2 ^ 509)

/-- The strand of the word in a state that its checks have changed. -/
def Ctx.strandIn (c : Ctx) (s : State) : Strand := (s.strand c.sid).getD c.st

/-- The word ends with the strand `st` and leaves its fragment as `st` holds it. -/
def Ctx.leave (c : Ctx) (s : State) (st : Strand) : State := s.setStrand c.sid st

/-- R94: a word that writes an entry of the stack: CONTROL_INTEGRITY where none is free, the cause of the access where it faults,
and otherwise `body` with the lowest free entry. -/
def Ctx.pushing (c : Ctx) (s : State) (body : State → Nat → State) : State :=
  let st := c.strandIn s
  match Tbl.freeKey st.stack 0 255 with
  | none => c.raiseWide .controlIntegrity stackFull
  | some e =>
    match s.stackAccess c.sid st .write e with
    | (s, .ok) => body s e
    | (s, .waits) => s
    | (s, .bad x d) => c.raise s { Raised.wide x c.act d with addr := BitVec.ofNat 64 (stackVa + 128 * e) }

/-- R87, R88: the fragment splits. -/
def Ctx.splitTo (c : Ctx) (s : State) (g : Mask) (t : DWord) (rest : Frag) : State :=
  let st := c.strandIn s
  let st := st.foldSplit st.whole c.f.mode g
  match st.split c.slot { rest with mask := c.f.mask &&& ~~~g } g t s.dclk with
  | some st => c.leave s st
  | none => s

/-- R84: a `brc` or `brx` hinted uniform whose taken lanes are neither none nor all. -/
def Ctx.countMiss (c : Ctx) (s : State) (h : BitVec 2) (g : Mask) : State :=
  if h = 3 && g != 0 && g != c.f.mask then
    let k := s.core c.core
    s.setCore c.core { k with hintMiss := k.hintMiss + 1 }
  else s

/-- R103, R104: sends the lanes of `g` to `t`, the rest of the fragment becoming `rest`; a split that finds both slots taken spills a
fragment (R88, R94), and one that is hinted uniform is counted, by hint `h`, once it takes place (R84). -/
def Ctx.branch (c : Ctx) (s : State) (h : BitVec 2) (g : Mask) (t : DWord) (rest : Frag) : State :=
  let st := c.strandIn s
  if g = c.f.mask then c.leave s (st.transfer c.slot c.f t)
  else if (st.frag !c.slot).isNone then c.splitTo (c.countMiss s h g) g t rest
  else c.pushing s (fun s _ => c.splitTo (c.countMiss s h g) g t rest)

/-- R29: the checks of a word's targets, and then its effect. -/
def Ctx.checkedTargets (c : Ctx) (m : Mask) (t : Nat → DWord) (body : State → State) : State :=
  match c.s.checkTargets (c.st.agent c.s c.sid) m t with
  | (s, l) =>
    match mixed l with
    | some r => c.raise s r
    | none => body s

/-! ### The control words -/

/-- R102, R90, R94. -/
def execRcv (o : BitVec 16) (s : State) : Out :=
  strandWord (.rcv o) (fun c =>
    let x := target c.f.pc o
    c.checkedTargets c.f.mask (fun _ => x) (fun s =>
      c.pushing s (fun s e =>
        let st := c.strandIn s
        let st := { st with stack := Tbl.put st.stack e (.join x c.f.mask 0 c.f.mode c.f.q c.f.join) }
        s.setStrand c.sid (c.advance (st.setFrag c.slot (some { c.f with join := some e })))))) s

/-- R103. -/
def execBra (h : BitVec 2) (o : BitVec 16) (s : State) : Out :=
  strandWord (.bra h o) (fun c =>
    let t := target c.f.pc o
    c.checkedTargets c.f.mask (fun _ => t) (fun s => c.branch s h c.f.mask t c.f)) s

/-- R103. -/
def execBrc (h : BitVec 2) (p : BitVec 4) (sg : BitVec 1) (o : BitVec 16) (s : State) : Out :=
  strandWord (.brc h p sg o) (fun c =>
    let t := target c.f.pc o
    let v := c.st.pred p.toNat
    let g := c.f.mask &&& (if sg = 0 then v else ~~~v)
    if g = 0 then c.s.setStrand c.sid (c.advanceQuiet c.st)
    else c.checkedTargets g (fun _ => t) (fun s => c.branch s h g t c.f.next)) s

/-- R104. -/
def Ctx.indirect (c : Ctx) (h : BitVec 2) (a : BitVec 8) : State :=
  let va := c.plain true a
  let t (L : Nat) : DWord := BitVec.ofNat 64 (va.at L)
  c.checkedTargets c.f.mask t (fun s =>
    let t0 := t (c.f.mask.lowest.getD 0)
    let g := Mask.ofPred (fun L => Mask.has c.f.mask L && t L == t0)
    c.branch s h g t0 c.f)
/-- R104. -/
def execBrx (h : BitVec 2) (a : BitVec 8) (s : State) : Out := strandWord (.brx h a) (fun c => c.indirect h a) s
/-- R104: the return predictor is timing alone. -/
def execRet (a : BitVec 8) (s : State) : Out := strandWord (.ret a) (fun c => c.indirect 0 a) s

/-- R105: the link pair is written and the whole fragment goes on at the target. -/
def execCall (d : BitVec 8) (o : BitVec 16) (s : State) : Out :=
  strandWord (.call d o) (fun c =>
    let t := target c.f.pc o
    c.checkedTargets c.f.mask (fun _ => t) (fun s =>
      let st := (c.strandIn s).setRegs true d.toNat c.f.mask (Vals.gen (fun _ => (c.f.pc + 4).toNat))
      c.leave s (st.transfer c.slot c.f t))) s

/-- The records of a fragment's chain, innermost first. -/
def Strand.chain (st : Strand) : Nat → Option Nat → List Nat
  | 0, _ => []
  | n + 1, j =>
    match j with
    | none => []
    | some e =>
      match Tbl.find st.stack e with
      | some (.join _ _ _ _ _ parent) => e :: Strand.chain st n parent
      | _ => []

/-- R92: fragment `f` of a slot ends. -/
def Strand.endFrag (st : Strand) (slot : Bool) (f : Frag) : Strand :=
  let es := st.chain 256 f.join
  let shrink (stack : Tbl StackEntry) (e : Nat) : Tbl StackEntry :=
    match Tbl.find stack e with
    | some (.join addr mask arr mode q parent) =>
      let m := mask &&& ~~~f.mask
      if m = 0 then Tbl.del stack e else Tbl.put stack e (.join addr m arr mode q parent)
    | _ => stack
  let stack := es.foldl shrink st.stack
  let st := { (st.setFrag slot none) with stack := stack }
  let ready := es.findSome? (fun e =>
    match Tbl.find stack e with
    | some (.join addr mask arr mode q parent) => if arr = mask then some (e, addr, mask, mode, q, parent) else none
    | _ => none)
  match ready with
  | none => { st with ended := st.liveLanes == 0 }
  | some (e, addr, mask, mode, q, parent) =>
    let g := { f.atHeader addr with mask := mask, mode := mode, q := q, join := parent, hold := .none }
    Strand.arrive 256 (Strand.fused { st with stack := Tbl.del stack e } slot g) slot

/-- R106, R92, R286: the fragment ends, and the barriers see the lanes that are left. -/
def execExit (s : State) : Out :=
  strandWord .exit (fun c => (c.s.setStrand c.sid (c.st.endFrag c.slot c.f)).recheck c.sid) s

/-- R107. -/
def execYield (s : State) : Out :=
  strandWord .yield (fun c =>
    let others := c.s.strands.keysWhere (fun k _ =>
      k != c.sid && k / 16 == c.sid / 16 && (c.s.eligible k false || c.s.eligible k true))
    c.done { c.st with yielding := some (others, c.s.dclk + 32) }) s

/-! ### Fetching and starting a clause -/

/-- R10, R25: the words of the clause at `h`. -/
def State.fetchClause (s : State) (a : Agent) (h : DWord) : State × Except (Cause × Detail) (List Word) :=
  match s.fetchWord a h with
  | (s, .error e) => (s, .error e)
  | (s, .ok w) =>
    if !isHeader w then (s, .error (.illegalClause, 0))
    else
      (List.range (fld w.toNat 26 23 + 1)).foldl (fun acc j =>
        match acc with
        | (s, .error e) => (s, .error e)
        | (s, .ok ws) =>
          match s.fetchWord a (h + BitVec.ofNat 64 (4 * (j + 1))) with
          | (s, .error e) => (s, .error e)
          | (s, .ok x) => (s, .ok (ws ++ [x]))) (s, .ok [w])

/-- R225, R418: the cause of a clause's fetch; the record of a STAGE2 holds the virtual address of the word that was not fetched. -/
def State.fetchRaised (s : State) (a : Agent) (h : DWord) (e : Cause) (m : Mask) (d : Detail) : Raised :=
  { Raised.wide e m d with
    addr := if e = .stage2 then
        h + BitVec.ofNat 64 (4 * ((List.range 17).find? (fun j => match s.fetchWord a (h + BitVec.ofNat 64 (4 * j)) with
          | (_, .error _) => true
          | (_, .ok _) => false)).getD 0)
      else 0 }

/-- R10: the clause of the fragment whose turn it is.  A cause of the fetch has the whole mask (log entry 63). -/
def execClauseFetch (s : State) : Out :=
  .next (match s.strand s.cur with
    | none => s
    | some st =>
      match st.frag s.curSlot with
      | none => s
      | some f =>
        match s.fetchClause (st.agent s s.cur) f.header with
        | (s1, .ok ws) => s1.modStrand s.cur (fun st => st.setFrag s.curSlot (some { f with clause := ws }))
        | (s1, .error (e, d)) => s1.raise s.cur s.curSlot f.header (s1.fetchRaised (st.agent s s.cur) f.header e f.mask d) none false)

/-- R31, R24: a fragment of a strand that was stopped inside a clause has the clause fetched and checked again; one that holds checks
it at once, since its word is still in progress. -/
def State.recheckClause (s : State) (k : Nat) (slot : Bool) : State :=
  match s.strand k with
  | none => s
  | some st =>
    match st.frag slot with
    | none => s
    | some f =>
      let set (g : Frag) : State := s.setStrand k (st.setFrag slot (some g))
      if !f.started then set { f with clause := [] }
      else if f.hold == .none then set { f with clause := [], started := false, resumed := true, claims := 0 }
      else
        match s.fetchClause (st.agent s k) f.header with
        | (s, .ok ws) =>
          if clauseOk ws then s.modStrand k (fun st => st.setFrag slot (some { f with clause := ws }))
          else s.raise k slot f.header (Raised.wide .illegalClause f.mask 0) none false
        | (s, .error (e, d)) => s.raise k slot f.header (s.fetchRaised (st.agent s k) f.header e f.mask d) none false

/-- R31: the same for both fragments. -/
def State.recheckClauses (s : State) (k : Nat) : State := (s.recheckClause k false).recheckClause k true

/-- R26, R24, R31, R91, R82.  A cause of the header has the whole mask (log entry 63). -/
def execClauseStart (l : BitVec 4) (w : BitVec 12) (a b : BitVec 4) (s : State) : Out :=
  let head := (encode (.clauseStart l w a b)).getD 0
  .next (match s.strand s.cur with
    | none => s
    | some st =>
      match st.frag s.curSlot with
      | none => s
      | some f =>
        if f.started then s
        else if st.atJoin f then s.setStrand s.cur (Strand.arrive 256 st s.curSlot)
        else
          let ws := head :: f.clause.drop 1
          if !clauseOk ws then s.raise s.cur s.curSlot f.header (Raised.wide .illegalClause f.mask 0) none false
          else if st.clauseWaits { f with clause := ws } (st.frag !s.curSlot) then s
          else
            let claims := match st.frag !s.curSlot with
              | some g => st.rivalFlags { f with clause := ws } g
              | none => 0
            let f := { f with clause := ws, started := true, pc := f.header + 4 + BitVec.ofNat 64 (4 * f.index), claims := claims }
            s.setStrand s.cur (st.setFrag s.curSlot (some f)))

/-! ### Steps of the device on fragments -/

/-- Whether a strand's fragments may be moved by the device: it runs, and is not in its handler. -/
def Strand.movable (st : Strand) : Bool :=
  !st.halted && !st.stopped && !st.spilled && !st.inHandler && st.openFault.isNone

/-- The spilled fragments of a strand: entry, fragment, SPILL_TIME. -/
def Strand.spilledFrags (st : Strand) : List (Nat × Frag × DWord) :=
  st.stack.filterMap (fun p => match p.2 with
    | .frag f t => some (p.1, f, t)
    | _ => none)

/-- The first element that is least by a key. -/
def leastBy {α : Type} (key : α → Nat) : List α → Option α
  | [] => none
  | x :: r =>
    match leastBy key r with
    | none => some x
    | some y => if key y < key x then some y else some x

/-- R88: the spilled fragment with the highest AGE goes into a free slot; while its entry cannot be read, it stays (log entry 52). -/
def execFragmentRefill (strand : Nat) (s : State) : Out :=
  .next (match s.strand strand with
    | none => s
    | some st =>
      let slot := st.fragA.isSome
      if !st.movable || (st.frag slot).isSome then s
      else
        match leastBy (fun x => 2 ^ 64 - x.2.1.age.toNat) st.spilledFrags with
        | none => s
        | some (e, f, _) =>
          match s.stackAccess strand st .read e with
          | (s, .ok) => s.modStrand strand (fun st => { (st.setFrag slot (some f)) with stack := Tbl.del st.stack e })
          | (s, _) => s)

/-- R89: a live fragment and a spilled one change places; an exchange whose stack access faults is dropped, and one whose write finds the
dirty ring full too (DESIGN CHOICE, log entry 52).  The live one takes the lowest entry that is free before the other's is, or the other's
own where none is (log entry 52). -/
def execFragmentExchange (strand : Nat) (s : State) : Out :=
  .next (match s.strand strand with
    | none => s
    | some st =>
      if !st.movable || s.dclk < st.nextExchange then s
      else
        let live := [false, true].filterMap (fun b => (st.frag b).bind (fun f => if f.hold == .none then some (b, f) else none))
        match leastBy (fun x => x.2.age.toNat) live, leastBy (fun x => x.2.2.toNat) st.spilledFrags with
        | some (slot, f), some (e, g, _) =>
          let dest := (Tbl.freeKey st.stack 0 255).getD e
          let drop (s : State) : State := s.modStrand strand (fun st => { st with nextExchange := s.dclk + 4096 })
          match s.stackAccess strand st .read e with
          | (s, .ok) =>
            match s.stackAccess strand st .write dest with
            | (s, .ok) =>
              s.modStrand strand (fun st =>
                { (st.setFrag slot (some g)) with
                  stack := Tbl.put (Tbl.del st.stack e) dest (.frag f s.dclk)
                  nextExchange := s.dclk + 4096 })
            | (s, _) => drop s
          | (s, _) => drop s
        | _, _ => s)

/-- R107. -/
def execYieldRelease (strand : Nat) (s : State) : Out :=
  .next (match s.strand strand with
    | none => s
    | some st =>
      match st.yielding with
      | some (others, stop) =>
        if others.isEmpty || stop ≤ s.dclk then s.setStrand strand { st with yielding := none } else s
      | none => s)

/-- R92: an ended strand's granules and slot return. -/
def execStrandReclaim (strand : Nat) (s : State) : Out :=
  .next (match s.strand strand with
    | none => s
    | some st =>
      if st.ended && (s.flightsOf strand).isEmpty && st.opLog.isEmpty then s.removeStrand strand else s)

/-- R92: the work of a block outside its strands is done. -/
def Block.idle (b : Block) : Bool :=
  (b.seq.running.isNone || b.seq.halt.isSome) && (b.seq.queued.isEmpty || b.seq.halt.isSome) &&
  b.copy.reqs.all (fun r => r.finished) && b.stoch.reqs.isEmpty

/-- R92: a gang whose blocks have all ended ends. -/
def State.endGang (s : State) (tag : BitVec 13) : State :=
  match s.gang tag with
  | none => s
  | some g =>
    if g.blocks.isEmpty && g.saved.isEmpty && g.killed.isNone then
      let s := { s with
        gangs := s.gangs.filter (fun x => x.tag != tag)
        pinRelease := if s.pinRelease.contains tag then s.pinRelease else s.pinRelease ++ [tag] }
      s.modLaunch g.launch (fun l => { l with ended := l.ended + 1 })
    else s

/-- R92, R154: a block ends: its place returns, and its gang ends with its last block. -/
def State.endBlock (s : State) (block : Nat) (b : Block) : State :=
  let s := s.returnAllotment block b
  let s := s.modLaunch b.launch (fun l => l.noteEnd (s.cluster (clusterOf (block / 8))).clock)
  let s := { s.detach block with
    blocks := Tbl.del s.blocks block
    gangs := s.gangs.map (fun (g : Gang) => if g.tag = b.tag then { g with blocks := g.blocks.filter (· != block) } else g) }
  s.endGang b.tag
/-- R92, R154. -/
def execBlockEnd (block : Nat) (s : State) : Out :=
  .next (match s.block block with
    | none => s
    | some b => if (s.strandsOf block).isEmpty && b.idle then s.endBlock block b else s)

/-- R154: the allotment returned first is clear. -/
def execAllotmentClear (core : Nat) (s : State) : Out :=
  .next (let c := s.core core
    s.setCore core { c with clearing := c.clearing.drop 1 })

end Sys2Proof.Machine
end

