-- ==== Sys2Proof/Machine/Ask.lean ====
section
/-!
DEFINITION. What each word that accesses through an address asks for (06 R160, R166 to R168, 07 R203, 11 R308, R312, 13 R336,
14 R354, 19 R437, R438).
-/
namespace Sys2Proof.Machine

/-! ### What a word asks for -/

/-- The windows that a word accepts: all (R163), offsets of the own block, the global window, or that and the private space. -/
inductive Windows where
  | all | offset | global | globalPrivate
  deriving DecidableEq, Repr

/-- What an accessing word asks for. -/
structure Ask where
  op      : FlightOp
  access  : Access
  size    : Nat
  aligned : Bool
  /-- a multiple that the address must be in any case (R437) -/
  align   : Nat
  windows : Windows
  addr    : BitVec 8
  /-- data sources: width and code, and whether they are a run of vector registers -/
  data    : List (Bool × BitVec 8)
  bcast   : Bool
  dst     : BitVec 8
  wide    : Bool
  regs    : Nat
  scope   : Nat
  acquire : Bool
  release : Bool
  /-- only the lowest active lane acts -/
  single  : Bool
  /-- the bytes of a shape register or an image (R336) -/
  image   : Nat

/-- R166: bytes of a size code. -/
def sizeBytes (z : BitVec 2) : Nat := [4, 8, 2, 1].getD z.toNat 4
def runCodes (b : BitVec 8) (n : Nat) : List (Bool × BitVec 8) :=
  (List.range n).map (fun j => (false, b + BitVec.ofNat 8 j))

def Ask.plain (op : FlightOp) (k : Access) (size : Nat) (w : Windows) (a : BitVec 8) : Ask :=
  ⟨op, k, size, true, 1, w, a, [], true, 0, false, 0, 0, false, false, false, 0⟩
def Ask.load (d a : BitVec 8) (sg : BitVec 1) (z : BitVec 2) (place : Bool) (w : Windows) : Ask :=
  { Ask.plain (.load (sg == 1) (sizeBytes z) place) .read (sizeBytes z) w a with dst := d, wide := z == 1, regs := 1 }
def Ask.store (a b : BitVec 8) (z : BitVec 2) (place : Bool) (w : Windows) : Ask :=
  { Ask.plain (.store (sizeBytes z) place) .write (sizeBytes z) w a with data := [(z == 1, b)] }
def Ask.lot (op : FlightOp) (a : BitVec 8) : Ask :=
  { Ask.plain op .read 1 .global a with aligned := false }

/-- An image of `n` bytes at a multiple of `m` that one lane moves (R351, R437). -/
def Ask.bulk (op : FlightOp) (k : Access) (n m : Nat) (a : BitVec 8) : Ask :=
  { Ask.plain op k n .global a with aligned := false, align := m, bcast := false, single := true }

/-- R308: what an order field makes of a word. -/
def Ask.ordered (x : Ask) (scope : BitVec 3) (ord : BitVec 2) : Ask :=
  { x with scope := scope.toNat, acquire := ord == 1 || ord == 3, release := ord == 2 || ord == 3 }

/-- The words of 06, 07 and 11 that access through an address, under a TYPE (R203, R308, R312). -/
def askOf (i : Instr) (t : Nat) : Option Ask :=
  let w := type64 t
  let width := if w then 8 else 4
  match i with
  | .lds d a sg z => some (Ask.load d a sg z true .offset)
  | .sts z a b => some (Ask.store a b z true .offset)
  | .ldsm d a n =>
    some { Ask.plain (.loadRun (n.toNat + 1)) .read 4 .offset a with dst := d, regs := n.toNat + 1, bcast := false }
  | .stsm n a b =>
    some { Ask.plain (.storeRun (n.toNat + 1)) .write 4 .offset a with data := runCodes b (n.toNat + 1), bcast := false }
  | .ld d a sg z => some (Ask.load d a sg z true .all)
  | .ldb d a sg z => some (Ask.load d a sg z false .all)
  | .st z a b => some (Ask.store a b z true .all)
  | .stb z a b => some (Ask.store a b z false .all)
  | .ldm d a n => some { Ask.plain (.loadRun (n.toNat + 1)) .read 4 .all a with dst := d, regs := n.toNat + 1 }
  | .stm n a b => some { Ask.plain (.storeRun (n.toNat + 1)) .write 4 .all a with data := runCodes b (n.toNat + 1) }
  | .pref a => some (Ask.lot .pref a)
  | .chain d a => some { Ask.lot .chain a with dst := d, regs := 1 }
  | .pin a => some (Ask.lot .pin a)
  | .unpin a => some (Ask.lot .unpin a)
  | .lotwb a => some (Ask.lot .lotwb a)
  | .lotdrop a => some (Ask.lot .lotdrop a)
  | .atom o sc r a x =>
    some ({ Ask.plain (.atom o.toNat t true) .both width .all a with data := [(w, x)], dst := x, wide := w, regs := 1 }.ordered sc r)
  | .atomn o sc r a x => some ({ Ask.plain (.atom o.toNat t false) .both width .all a with data := [(w, x)] }.ordered sc r)
  | .atomsc o a x =>
    some ({ Ask.plain (.atom o.toNat t true) .both width .global a with data := [(w, x)], dst := x, wide := w, regs := 1 }.ordered 4 3)
  | .cas sc r a x =>
    let y := x + (if w then 2 else 1)
    some ({ Ask.plain (.cas w) .both width .all a with data := [(w, x), (w, y)], dst := x, wide := w, regs := 1 }.ordered sc r)
  | .lda d a z sc | .ldar d a z sc => some ((Ask.load d a 0 (z.zeroExtend 2) true .all).ordered sc 1)
  | .stl z sc a b => some ((Ask.store a b (z.zeroExtend 2) true .all).ordered sc 2)
  | .mon a => some { Ask.lot .mon a with windows := .globalPrivate, single := true }
  | .shld k a => some { Ask.plain (.shapeLoad k.toNat) .read 64 .all a with bcast := false, single := true }
  | .shst k a => some { Ask.plain (.shapeStore k.toNat) .write 64 .all a with bcast := false, single := true }
  | .mres d a => some { Ask.bulk (.mres 0) .read 768 256 a with dst := d, wide := true, regs := 1 }
  | .mabort d a => some { Ask.bulk .mabort .write 768 256 a with dst := d, wide := true, regs := 1 }
  | .ctxsv d a => some ({ Ask.bulk .ctxSave .write 65536 4096 a with dst := d, regs := 1 }.ordered 4 2)
  | .ctxld a => some ((Ask.bulk .ctxLoad .read 65536 4096 a).ordered 4 1)
  | _ => none

end Sys2Proof.Machine
end

