-- ==== Sys2Proof/Machine/Images.lean ====
section
/-!
DEFINITION. Images in memory: the sequencer image (14 R354), the context image of a strand (19 R430, 05 R122, 04 R93) with the
checks of R432, and the fault record read back (R418).  An image is a number whose bytes are little-endian.
-/
namespace Sys2Proof.Machine

/-- A field of `n` bytes at an offset. -/
def putF (off n v : Nat) : Nat := v % 256 ^ n * 256 ^ off
def getF (img off n : Nat) : Nat := img / 256 ^ off % 256 ^ n
def sumF (l : List Nat) : Nat := l.foldl (· + ·) 0
def flagBit (b : Bool) : Nat := if b then 1 else 0

/-! ### The sequencer image -/

/-- R354: the image of a stream, with SEQNO and STATE. -/
def Stream.image (r : Stream) (seqno : Word) (state : Nat) : Nat :=
  let loop (k : Nat) : Nat := match r.loops[k]? with
    | some l => putF (0x60 + 16 * k) 8 l.start.toNat + putF (0x68 + 16 * k) 4 l.count.toNat + putF (0x6C + 16 * k) 4 (2 ^ 31)
    | none => 0
  sumF [putF 0 8 r.spc.toNat, putF 8 4 seqno.toNat,
    putF 0xC 4 (flagBit r.busy * 2 ^ 31 + r.depth % 4096 * 2 ^ 16 + r.row % 256 * 256 + r.col % 256),
    putF 0x10 4 r.fmt.toNat,
    putF 0x14 4 (match r.tiles with | some t => 2 ^ 31 + t.toNat | none => 0),
    putF 0x18 4 (match r.bbase with | some b => b.toNat | none => 0xFFFF_FFFF),
    sumF ((List.range 4).map (fun k => putF (0x20 + 4 * k) 4 (r.sq.getD k 0).toNat)),
    putF 0x30 4 (match r.ascale with | some i => 2 ^ 31 + i | none => 0),
    putF 0x34 4 (match r.bsbase with | some b => b.toNat | none => 0xFFFF_FFFF),
    putF 0x38 4 r.tsa.toNat, putF 0x3C 4 r.tsb.toNat,
    sumF ((List.range 8).map (fun k => putF (0x40 + 4 * k) 4 (r.x.getD k 0).toNat)),
    sumF ((List.range 4).map loop),
    putF 0xA0 4 r.carry.toNat,
    putF 0xA8 4 (sumF ((List.range 16).map (fun k => flagBit (Tbl.find r.stok k).isSome * 2 ^ k))),
    sumF ((List.range 16).map (fun k => putF (0xB0 + 4 * k) 4 (Tbl.get 0 r.stok k).toNat)),
    putF 0xF0 8 state,
    sumF ((List.range 128).map (fun y => putF (0x100 + 4 * y) 4 (r.sg.getD y 0).toNat))]

/-- R354: an image is malformed. -/
def seqMalformed (img : Nat) : Bool :=
  let valid (k : Nat) : Bool := bits (getF img (0x6C + 16 * k) 4) 31 31 == 1
  let pr := getF img 0xC 4
  bits pr 30 28 != 0 || getF img 0x1C 4 != 0 || getF img 0xA4 4 != 0 || getF img 0xAC 4 != 0 || getF img 0xF0 8 / 4 != 0 ||
  getF img 0xF8 8 != 0 || getF img 0 8 % 4 != 0 ||
  (List.range 3).any (fun k => valid (k + 1) && !valid k) ||
  (List.range 4).any (fun k => valid k && getF img (0x68 + 16 * k) 4 == 0) ||
  128 < bits pr 15 8 || 64 < bits pr 7 0 ||
  (List.range 4).any (fun k => !qValid (BitVec.ofNat 32 (getF img (0x20 + 4 * k) 4))) || getF img 0xF0 8 == 1

/-- R356: the stream that starts from an image. -/
def Stream.ofImage (r : Stream) (img : Nat) : Stream :=
  let w (off : Nat) : Word := BitVec.ofNat 32 (getF img off 4)
  let pr := getF img 0xC 4
  { r with
    seqno := some (w 8)
    spc := BitVec.ofNat 64 (getF img 0 8)
    ready := none
    busy := bits pr 31 31 == 1
    depth := if bits pr 31 31 = 1 then bits pr 27 16 else 0
    row := if bits pr 31 31 = 1 then bits pr 15 8 else 0
    col := if bits pr 31 31 = 1 then bits pr 7 0 else 0
    fmt := BitVec.ofNat 24 (getF img 0x10 4)
    tiles := if bits (getF img 0x14 4) 31 31 = 1 then some (BitVec.ofNat 24 (getF img 0x14 4)) else none
    bbase := if getF img 0x18 4 = 0xFFFF_FFFF then none else some (w 0x18)
    sq := (List.range 4).map (fun k => w (0x20 + 4 * k))
    ascale := if bits (getF img 0x30 4) 31 31 = 1 then some (getF img 0x30 4 % 16) else none
    bsbase := if getF img 0x34 4 = 0xFFFF_FFFF then none else some (w 0x34)
    tsa := w 0x38
    tsb := w 0x3C
    x := (List.range 8).map (fun k => if k = 0 then 0 else w (0x40 + 4 * k))
    loops := (List.range 4).filterMap (fun k =>
      if bits (getF img (0x6C + 16 * k) 4) 31 31 = 1 then some ⟨BitVec.ofNat 64 (getF img (0x60 + 16 * k) 8), w (0x68 + 16 * k)⟩ else none)
    carry := w 0xA0
    stok := (List.range 16).filterMap (fun k => if (getF img 0xA8 4).testBit k then some (k, w (0xB0 + 4 * k)) else none)
    sg := (List.range 128).map (fun y => w (0x100 + 4 * y))
    malformed := seqMalformed img
    loading := false
    reported := []
    arrived := none
    waiting := getF img 0xF0 8 % 4 == 2 }

/-- R355: the abort is over: the running request and every one queued before it complete, and no halt is in force. -/
def Seq.endAbort (q : Seq) : Seq :=
  match q.aborting with
  | none => q
  | some n =>
    { q with tlm := n, running := none, queued := q.queued.filter (fun r => n < r.n), halt := none, wait := none, aborting := none,
             finished := q.finished.filter (fun x => n < x) }

/-! ### The fault record -/

def Cause.all : List Cause :=
  [.illegalWord, .illegalOperand, .illegalClause, .misaligned, .badWindow, .foreignWindow, .notPresent, .stage2, .permission,
   .domain, .remoteGone, .poisonConsumed, .pinQuota, .gate, .correlatedMix, .streamLength, .queueQuota, .promiseMiss,
   .mwaitTimeout, .barrierTimeout, .controlIntegrity, .seqIllegal, .syscall, .break, .softTrap]
/-- R413. -/
def Cause.ofCode (n : Nat) : Option Cause := Cause.all.find? (fun c => c.code == n)

/-- R418: a record from its 128 bytes. -/
def recordOf (n : Nat) : Option Record :=
  (Cause.ofCode (bits n 7 0)).map (fun c =>
    let b (k : Nat) : Bool := bits n k k == 1
    { cause := c, wordWide := b 48, seq := b 49, frag := b 51, mask := if b 49 then 0 else BitVec.ofNat 32 (bits n 159 128),
      secondary := if b 49 then 0 else BitVec.ofNat 32 (bits n 191 160), seqAddr := if b 49 then BitVec.ofNat 64 (bits n 191 128) else 0,
      wordPc := BitVec.ofNat 64 (bits n 383 320), pc := BitVec.ofNat 64 (bits n 319 256), header := BitVec.ofNat 64 (bits n 255 192),
      index := bits n 55 52, restart := bits n 63 56, oplog := bits n 71 64, halted := b 50,
      addr := BitVec.ofNat 64 (bits n 447 384), time := BitVec.ofNat 64 (bits n 511 448), detail := BitVec.ofNat 512 (n / 2 ^ 512) })

/-! ### Fragments and the divergence stack -/

def joinByte (j : Option Nat) : Nat := j.getD 0xFF
def joinOf (n : Nat) : Option Nat := if n = 0xFF then none else some n
def qNat (q : List Word) : Nat := sumF ((List.range 4).map (fun k => putF (4 * k) 4 (q.getD k 0).toNat))
def qOf (n : Nat) : List Word := (List.range 4).map (fun k => BitVec.ofNat 32 (n / 2 ^ (32 * k)))

/-- R430: 64 bytes of a fragment slot. -/
def fragImage (f : Option Frag) : Nat :=
  match f with
  | none => putF 0x31 1 0xFF
  | some f => sumF [putF 0 8 f.pc.toNat, putF 8 8 f.header.toNat, putF 0x10 8 f.age.toNat, putF 0x18 4 f.mask.toNat,
      putF 0x1C 4 f.mode.toNat, putF 0x20 16 (qNat f.q), putF 0x30 1 f.index, putF 0x31 1 (joinByte f.join)]

/-- A fragment that stands at a place of a clause, fetched anew. -/
def mkFrag (pc header age : Nat) (mask : Mask) (mode : Word) (q : List Word) (index : Nat) (join : Option Nat) : Frag :=
  ⟨BitVec.ofNat 64 pc, BitVec.ofNat 64 header, if header = pc then 0 else index, [], false, header != pc, mask, mode, q, join,
    BitVec.ofNat 64 age, .none, none, 0, false⟩
/-- R430: the fragment of a slot. -/
def fragOf (n : Nat) : Option Frag :=
  if getF n 0x18 4 = 0 then none
  else some (mkFrag (getF n 0 8) (getF n 8 8) (getF n 0x10 8) (BitVec.ofNat 32 (getF n 0x18 4)) (BitVec.ofNat 32 (getF n 0x1C 4))
    (qOf (getF n 0x20 16)) (getF n 0x30 1 % 16) (joinOf (getF n 0x31 1)))

/-- R93: 128 bytes of an entry of the divergence stack. -/
def entryImage (e : Option StackEntry) : Nat :=
  match e with
  | none => 0xFF * 2 ^ 368
  | some (.frag f t) =>
    sumF [f.pc.toNat, f.header.toNat * 2 ^ 64, f.mask.toNat * 2 ^ 128, f.mode.toNat * 2 ^ 192, qNat f.q * 2 ^ 224, 2 ^ 352,
      f.index % 16 * 2 ^ 360, joinByte f.join * 2 ^ 368, f.age.toNat * 2 ^ 384, t.toNat * 2 ^ 448]
  | some (.join a m arr mode q parent) =>
    sumF [a.toNat, m.toNat * 2 ^ 128, arr.toNat * 2 ^ 160, mode.toNat * 2 ^ 192, qNat q * 2 ^ 224, 2 * 2 ^ 352,
      joinByte parent * 2 ^ 368]
/-- R93, R432: an entry from its bytes; the outer `none` is one that is refused: a zero field that is not zero, or a MODE or q copy
that R100 or R53 does not allow. -/
def entryOf (n : Nat) : Option (Option StackEntry) :=
  if bits n 1023 512 ≠ 0 || bits n 383 376 ≠ 0 then none
  else
    match bits n 359 352 with
    | 0 => some none
    | k =>
    if !modeOk (BitVec.ofNat 32 (bits n 223 192)) || (qOf (bits n 351 224)).any (fun q => !qValid q) then none
    else match k with
    | 1 => some (some (.frag (mkFrag (bits n 63 0) (bits n 127 64) (bits n 447 384) (BitVec.ofNat 32 (bits n 159 128))
        (BitVec.ofNat 32 (bits n 223 192)) (qOf (bits n 351 224)) (bits n 367 360 % 16) (joinOf (bits n 375 368)))
        (BitVec.ofNat 64 (bits n 511 448))))
    | 2 => some (some (.join (BitVec.ofNat 64 (bits n 63 0)) (BitVec.ofNat 32 (bits n 159 128)) (BitVec.ofNat 32 (bits n 191 160))
        (BitVec.ofNat 32 (bits n 223 192)) (qOf (bits n 351 224)) (joinOf (bits n 375 368))))
    | _ => none

/-- R93: writes the whole stack to its place. -/
def State.writeStack (s : State) (sid : Nat) (st : Strand) : State :=
  let sp := (st.agent s sid).space true
  (List.range 255).foldl (fun s e => s.writeVa sp (stackVa + 128 * e) 128 (entryImage (Tbl.find st.stack e))) s

/-! ### The context image -/

/-- R430, R336: 4 KiB of an operand-log entry at issue order `k`; the 64 bytes of an `shst` stand in its first data register. -/
def LogEntry.imageNat (e : LogEntry) (k : Nat) : Nat :=
  let wide : List Bool := match decode e.word with
    | .ok i => ((askOf i (modeType e.mode)).map (fun (x : Ask) => x.data.map Prod.fst)).getD []
    | .bad _ => []
  let regs := ((List.range e.data.length).map (fun j =>
    let v : Lanes DWord := e.data.getD j []
    let lo : Lanes Word := v.map (fun (x : DWord) => x.setWidth 32)
    let hi : Lanes Word := v.map (fun (x : DWord) => (x >>> 32).setWidth 32)
    if wide.getD j false then [lo, hi] else [lo])).flatten
  let run := e.word.toNat / 2 ^ 24 == 0x6A || e.word.toNat / 2 ^ 24 == 0x6B || e.word.toNat / 2 ^ 24 == 0x74 || e.word.toNat / 2 ^ 24 == 0x75
  sumF [putF 0 8 e.pc.toNat, putF 8 8 e.header.toNat, putF 0x10 4 (e.index % 16 + e.cause % 256 * 256 + k % 256 * 2 ^ 16 + 2 ^ 31),
    putF 0x14 4 e.replay.toNat, putF 0x18 8 (if run then e.restart % 256 else 0xFF),
    sumF ((List.range 32).map (fun L => putF (0x100 + 8 * L) 8 (Lanes.at 0 e.addr L).toNat)),
    sumF ((List.range regs.length).map (fun j => putF (0x200 + 128 * j) 128 (lanesNat (regs.getD j [])))),
    if e.word.toNat / 2 ^ 24 == 0xA7 then putF 0x200 64 e.image else 0]

def identNat (ident : BitVec 12) (mwait kernel : Bool) : Nat := ident.toNat + flagBit mwait * 4096 + flagBit kernel * 8192

/-- R430: the 64 KiB of a strand's image; the granules that `ctxWritten` leaves out are not part of it. -/
def Strand.image (st : Strand) : Nat :=
  let logged := st.opLog.filter (fun e => e.replay != 0)
  let frame (k : Nat) : Nat := match st.gates[k]? with
    | some g => sumF [putF (0x7180 + 48 * k) 8 g.ret.toNat, putF (0x7188 + 48 * k) 8 g.groot.toNat,
        putF (0x7190 + 48 * k) 4 g.asid.toNat, putF (0x7194 + 48 * k) 4 g.gate.toNat,
        putF (0x7198 + 48 * k) 4 (identNat g.ident g.mwait g.kernel)]
    | none => 0
  let call := [st.fragA, st.fragB].findSome? (fun f => f.bind (fun f => match f.hold with
    | .service _ => some (fld f.word.toNat 23 16 + (f.mask.toNat) * 2 ^ 32)
    | _ => none))
  sumF [sumF (st.v.map (fun p => putF (128 * p.1) 128 (lanesNat p.2))),
    sumF (st.o.map (fun p => putF (0x6000 + 128 * p.1) 128 (lanesNat p.2))),
    sumF ((List.range 32).map (fun L => putF (0x6800 + 8 * L) 8 (Lanes.at 0 st.l0 L).toNat + putF (0x6900 + 8 * L) 8 (Lanes.at 0 st.l1 L).toNat)),
    sumF ((List.range 16).map (fun k => putF (0x6A00 + 4 * k) 4 (st.pred k).toNat)),
    putF 0x6A40 4 st.flags.toNat, putF 0x6A44 4 st.sig.toNat, putF 0x6A48 4 st.vallot, putF 0x6A50 8 st.user0.toNat,
    putF 0x6A58 8 st.user1.toNat,
    (match st.record with | some r => putF 0x7000 128 r.bits | none => 0),
    putF 0x7080 64 (fragImage st.fragA), putF 0x70C0 64 (fragImage st.fragB),
    putF 0x7100 8 st.tvec.toNat, putF 0x7108 4 st.tmask.toNat,
    putF 0x710C 4 (flagBit st.recordValid + flagBit st.halted * 2 + flagBit st.debug * 4 + flagBit st.inHandler * 8 +
      flagBit st.syscallPending * 16 + flagBit st.spilled * 32),
    putF 0x7110 8 st.ageCount.toNat, putF 0x7118 8 st.groot.toNat, putF 0x7120 8 st.proot.toNat,
    putF 0x7128 4 (st.asid.toNat + st.pasid.toNat * 65536), putF 0x712C 4 (identNat st.ident st.rightMwait st.rightKernel),
    putF 0x7130 8 (st.lost.toNat + st.lostPeer.toNat * 2 ^ 32), putF 0x7138 8 (call.getD 0),
    putF 0x7140 4 st.saveMode.toNat, putF 0x7144 4 (joinByte st.saveJoin), putF 0x7148 16 (qNat st.saveQ),
    sumF ((List.range 4).map frame), putF 0x7240 128 (lanesNat st.sr),
    sumF ((List.range logged.length).map (fun k => match logged[k]? with
      | some e => putF (0x8000 + 4096 * k) 4096 (e.imageNat k)
      | none => 0))]

/-- R122, R430: byte `off` of an image is written at a save: not a granule that the strand does not hold on chip, not a record
that is not valid, and of a free log entry only the word that says so. -/
def ctxWritten (img off : Nat) : Bool :=
  if off < 0x6000 then (getF img 0x6A48 4).testBit (off / 1024) && !(getF img 0x710C 4).testBit 5
  else if 0x7000 ≤ off && off < 0x7080 then (getF img 0x710C 4).testBit 0
  else if 0x8000 ≤ off then
    (getF img (0x8000 + (off - 0x8000) / 4096 * 4096 + 0x10) 4).testBit 31 || (0x10 ≤ off % 4096 && off % 4096 < 0x18)
  else true

/-- The runs of 64 bytes that a save writes whole. -/
def ctxRuns (img : Nat) : List Nat := (List.range 1024).filter (fun k => ctxWritten img (64 * k))

/-- R430: writes a strand's image to its place, after the stack. -/
def State.saveContext (s : State) (sid : Nat) (st : Strand) : State :=
  let s := s.writeStack sid st
  let img := st.image
  let s := (ctxRuns img).foldl (fun s k => s.writeCtx st (64 * k) 64 (getF img (64 * k) 64)) s
  (List.range 8).foldl (fun s e => s.writeCtx st (0x8010 + 4096 * e) 8 (getF img (0x8010 + 4096 * e) 8)) s

/-- R432: a context image is refused.  The handler save area holds no q copy before the first trap (its start value is zero). -/
def ctxRefused (img share : Nat) : Bool :=
  let z (off n : Nat) : Bool := getF img off n != 0
  let frag (off : Nat) : Bool := z (off + 0x32) 14 ||
    (getF img (off + 0x18) 4 != 0 && (!modeOk (BitVec.ofNat 32 (getF img (off + 0x1C) 4)) ||
      (qOf (getF img (off + 0x20) 16)).any (fun q => !qValid q)))
  bits (getF img 0x6A40 4) 31 12 != 0 || z 0x6A4C 4 || z 0x6A60 1440 || frag 0x7080 || frag 0x70C0 ||
  bits (getF img 0x710C 4) 31 6 != 0 || bits (getF img 0x712C 4) 31 14 != 0 || bits (getF img 0x7130 8) 63 40 != 0 || z 0x7158 40 ||
  (List.range 4).any (fun k => z (0x719C + 48 * k) 20 || bits (getF img (0x7198 + 48 * k) 4) 31 14 != 0) || z 0x72C0 3392 ||
  !modeOk (BitVec.ofNat 32 (getF img 0x7140 4)) || (qOf (getF img 0x7148 16)).any (fun q => !qValid q && (q != 0 || (getF img 0x710C 4).testBit 3)) ||
  (List.range 8).any (fun e => bits (getF img (0x8010 + 4096 * e) 4) 31 31 == 1 && bits (getF img (0x8018 + 4096 * e) 8) 63 8 != 0) ||
  (getF img 0x7098 4 &&& getF img 0x70D8 4) != 0 ||
  bits (getF img 0x6A48 4) 31 24 != 8 * bitLen (getF img 0x6A48 4 % 2 ^ 24) % 256 ||
  share < granCount (BitVec.ofNat 24 (getF img 0x6A48 4)) ||
  ((getF img 0x710C 4).testBit 0 && ((recordOf (getF img 0x7000 128)).isNone || bits (getF img 0x7000 128) 43 8 != 0 ||
    bits (getF img 0x7000 128) 127 72 != 0))

/-- R430: the held log entries of an image, in issue order.  The word and its flag come from its clause; MODE and q are those of
the fragment `f` (log entry 14), and its identity is that in force (log entry 66). -/
def State.logOf (s : State) (a : Agent) (f : Option Frag) (img : Nat) : List LogEntry :=
  let es := (List.range 8).filter (fun e => bits (getF img (0x8010 + 4096 * e) 4) 31 31 == 1)
  let order := (List.range 256).flatMap (fun k => es.filter (fun e => bits (getF img (0x8010 + 4096 * e) 4) 23 16 == k))
  (List.range order.length).filterMap (fun k =>
    match order[k]? with
    | none => none
    | some e =>
      let b := 0x8000 + 4096 * e
      let index := getF img (b + 0x10) 1 % 16
      let header : DWord := BitVec.ofNat 64 (getF img (b + 8) 8)
      match s.fetchClause a header with
      | (_, .error _) => none
      | (_, .ok ws) =>
        let w := ws.getD (index + 1) 0
        let mode := (f.map Frag.mode).getD 0
        let wide : List Bool := match decode w with
          | .ok i => ((askOf i (modeType mode)).map (fun (x : Ask) => x.data.map Prod.fst)).getD []
          | .bad _ => []
        let reg (j : Nat) : Lanes Word := natLanes (getF img (b + 0x200 + 128 * j) 128)
        let data := (wide.foldl (fun (acc : Nat × List (Lanes DWord)) x =>
          if x then (acc.1 + 2, acc.2 ++ [Lanes.gen (fun L => Lanes.at 0 (reg (acc.1 + 1)) L ++ Lanes.at 0 (reg acc.1) L)])
          else (acc.1 + 1, acc.2 ++ [Lanes.gen (fun L => (Lanes.at 0 (reg acc.1) L).setWidth 64)])) (0, [])).2
        let data := if w.toNat / 2 ^ 24 = 0x6E then [Lanes.gen (fun L => (Lanes.at 0 (reg 0) L).setWidth 64)] else data
        let g : Frag := mkFrag 0 0 0 0 mode [] 0 none
        let restart := getF img (b + 0x18) 1
        some ⟨s.nextFlight + k, BitVec.ofNat 64 (getF img b 8), header, index, w, mode, (f.map Frag.q).getD [],
          Frag.flagAt { g with clause := ws } index, BitVec.ofNat 32 (getF img (b + 0x14) 4), BitVec.ofNat 32 (getF img (b + 0x14) 4),
          if restart = 0xFF then 0 else restart,
          Lanes.gen (fun L => BitVec.ofNat 64 (getF img (b + 0x100 + 8 * L) 8)), data,
          if w.toNat / 2 ^ 24 = 0xA7 then getF img (b + 0x200) 64 else 0, getF img (b + 0x11) 1, s.nextFlight + k, a⟩)

/-- R93: the stack as it stands in the strand's private space; `none` where an entry is malformed or cannot be read. -/
def State.readStack (s : State) (sp : Space) : Option (Tbl StackEntry) :=
  match s.readVa sp stackVa (128 * 255) with
  | none => none
  | some n => (List.range 255).foldl (fun acc e =>
      match acc, entryOf (getF n (128 * e) 128) with
      | some t, some (some x) => some (t ++ [(e, x)])
      | some t, some none => some t
      | _, _ => none) (some [])

/-- R430, R432: the strand with everything that an image holds in place of its own; rights are and'ed with those of the slot
(R396). -/
def State.loadImage (s : State) (sid : Nat) (st : Strand) (img : Nat) : Option (State × Strand) :=
  let w (off : Nat) : Word := BitVec.ofNat 32 (getF img off 4)
  let d (off : Nat) : DWord := BitVec.ofNat 64 (getF img off 8)
  let dpr := match s.block st.block with
    | some b => s.dpr (coreOf sid) b.domSlot
    | none => 0
  let state := getF img 0x710C 4
  let map : BitVec 24 := BitVec.ofNat 24 (getF img 0x6A48 4)
  let spilled := state.testBit 5
  if ctxRefused img (s.share (coreOf sid) st) then none
  else
    let st := { st with
      fragA := fragOf (getF img 0x7080 64)
      fragB := fragOf (getF img 0x70C0 64)
      ageCount := d 0x7110
      v := if spilled then [] else (List.range 192).filterMap (fun r =>
        let x := natLanes (getF img (128 * r) 128)
        if map.getLsbD (r / 8) && x != Lanes.zero then some (r, x) else none)
      o := (List.range 16).filterMap (fun r =>
        let x := natLanes (getF img (0x6000 + 128 * r) 128)
        if x != Lanes.zero then some (r, x) else none)
      granules := map
      l0 := Lanes.gen (fun L => d (0x6800 + 8 * L))
      l1 := Lanes.gen (fun L => d (0x6900 + 8 * L))
      p := (List.range 16).filterMap (fun k => if k != 0 && w (0x6A00 + 4 * k) != 0 then some (k, w (0x6A00 + 4 * k)) else none)
      flags := BitVec.ofNat 12 (getF img 0x6A40 4)
      sig := w 0x6A44
      user0 := d 0x6A50
      user1 := d 0x6A58
      tvec := d 0x7100
      tmask := w 0x7108
      recordValid := state.testBit 0
      halted := state.testBit 1
      debug := state.testBit 2
      inHandler := state.testBit 3
      syscallPending := state.testBit 4
      spilled := spilled
      record := if state.testBit 0 then recordOf (getF img 0x7000 128) else none
      groot := d 0x7118
      proot := d 0x7120
      asid := BitVec.ofNat 16 (getF img 0x7128 2)
      pasid := BitVec.ofNat 16 (getF img 0x712A 2)
      ident := BitVec.ofNat 12 (getF img 0x712C 4)
      rightMwait := (getF img 0x712C 4).testBit 12 && dpr.testBit 26
      rightKernel := (getF img 0x712C 4).testBit 13 && dpr.testBit 25
      lost := w 0x7130
      lostPeer := BitVec.ofNat 8 (getF img 0x7134 1)
      saveMode := w 0x7140
      saveJoin := joinOf (getF img 0x7144 1)
      saveQ := qOf (getF img 0x7148 16)
      saveRecord := if state.testBit 3 && state.testBit 0 then recordOf (getF img 0x7000 128) else none
      gates := (List.range 4).filterMap (fun k =>
        if getF img (0x7180 + 48 * k) 48 = 0 then none
        else some ⟨d (0x7180 + 48 * k), BitVec.ofNat 12 (getF img (0x7198 + 48 * k) 4), BitVec.ofNat 16 (getF img (0x7190 + 48 * k) 4),
          d (0x7188 + 48 * k), (getF img (0x7198 + 48 * k) 4).testBit 12, (getF img (0x7198 + 48 * k) 4).testBit 13,
          BitVec.ofNat 16 (getF img (0x7194 + 48 * k) 4)⟩)
      sr := natLanes (getF img 0x7240 128)
      opLog := []
      openFault := none
      stopped := false
      monitor := none
      yielding := none
      ended := false }
    let st := { st with handlerSlot := match st.record with
      | some r => r.frag
      | none => st.fragA.isNone }
    let a := st.agent s sid
    match s.readStack (a.space true) with
    | none => none
    | some stack =>
      let live : List Mask := [st.fragA, st.fragB].filterMap (fun f => f.map Frag.mask) ++ stack.filterMap (fun p => match p.2 with
        | .frag f _ => some f.mask
        | _ => none)
      let clash := (live.foldl (fun (acc : Mask × Bool) m => (acc.1 ||| m, acc.2 || (acc.1 &&& m) != 0)) ((0 : Mask), false)).2
      if clash then none
      else
        let f := st.frag (match st.record with
          | some r => r.frag
          | none => st.fragA.isNone)
        let log := s.logOf a f img
        let st := { st with stack := stack, opLog := log, nextExchange := s.dclk + 4096 }
        some ({ s with nextFlight := s.nextFlight + log.length }, { st with ended := st.liveLanes == 0 })

end Sys2Proof.Machine
end

