-- ==== Sys2Proof/Machine/Access.lean ====
section
/-!
DEFINITION. Accesses through generic addresses and the local offset space (06 R151 to R174, 07 R203 to R207, 11 R307, R308): the
windows and their checks, what each accessing word asks for, its going into flight, and its lanes at scratchpad and column.
-/
namespace Sys2Proof.Machine

/-! ### Windows -/

/-- Where an access goes: an offset of the issuing block, of another block of its gang, or the global window or private space. -/
inductive Target where
  | own (off : Nat)
  | other (block off : Nat)
  | mem (priv : Bool)
  deriving DecidableEq, Repr

/-- R151: `n` bytes at an offset lie in one region of a block. -/
def Block.inRegion (b : Block) (off n : Nat) : Bool :=
  off + n ≤ b.sa || (0x1000000 ≤ off && off + n ≤ 0x1000000 + b.ca)
/-- R153: the bytes meet the barrier status words. -/
def Block.meetsStatus (b : Block) (off n : Nat) : Bool := b.sa ≤ off + n + 127 && decide (off < b.sa)

/-- The key of the block with a gang-relative index in the strand's gang. -/
def State.mate (s : State) (b : Block) (idx : Nat) : Option Nat :=
  match s.gang b.tag with
  | none => none
  | some g => g.blocks.find? (fun k => match s.block k with
      | some x => x.index == idx
      | none => false)
/-- The same, where a mate that is saved has the key that stands for it (R428). -/
def State.mateKey (s : State) (b : Block) (idx : Nat) : Option Nat :=
  match s.mate b idx, s.gang b.tag with
  | some k, _ => some k
  | none, some g => if g.saved.any (fun x => x.index == idx) then some (memberKey b.tag idx) else none
  | none, none => none
/-- A block by its key, or by the key that stands for it while it is saved. -/
def State.blockOrSaved (s : State) (k : Nat) : Option Block :=
  if k < 1536 then s.block k
  else (s.gang (BitVec.ofNat 13 ((k - 1536) / 8))).bind (fun g => g.saved.find? (fun x => x.index == (k - 1536) % 8))
/-- GANG_INFO: blocks of the gang (R123). -/
def Strand.gangBlocks (st : Strand) : Nat := bits st.gangInfo.toNat 15 13 + 1

/-- R161 without its bounds check: where an address of block `bk`, in a gang of `n` blocks, goes, or the cause of the first check
that fails.  A block of the gang that has ended keeps a key that names no block, so that the bounds check fails. -/
def State.windowOf (s : State) (bk n a : Nat) : Except Cause Target :=
  match addrKind a with
  | 0 => .ok (.mem false)
  | 1 => .ok (.mem true)
  | 2 =>
    if bits a 47 40 > 191 || bits a 36 32 ≠ 0 then .error .badWindow
    else if bits a 47 40 * 8 + bits a 39 37 ≠ bk then .error .foreignWindow
    else .ok (.own (a % 2 ^ 32))
  | 3 =>
    match s.block bk with
    | none => .error .badWindow
    | some b =>
      if bits a 47 35 ≠ b.tag.toNat then .error .foreignWindow
      else if bits a 34 32 ≥ n then .error .badWindow
      else
        let k := (s.mateKey b (bits a 34 32)).getD (memberKey b.tag (bits a 34 32))
        if k = bk then .ok (.own (a % 2 ^ 32)) else .ok (.other k (a % 2 ^ 32))
  | _ => .error .badWindow
/-- The same for an address of a strand. -/
def State.window (s : State) (st : Strand) (a : Nat) : Except Cause Target := s.windowOf st.block st.gangBlocks a

/-! ### The checks of a lane -/

/-- R203, R166: where one access of `n` bytes at `a` goes, or its first cause. -/
def State.laneTarget (s : State) (st : Strand) (x : Ask) (a : Nat) : Except Cause Target :=
  if (x.aligned && a % x.size ≠ 0) || a % x.align ≠ 0 then .error .misaligned
  else
    let w : Except Cause Target := match x.windows with
      | .offset => .ok (.own (a % 2 ^ 32))
      | .all => s.window st a
      | .global => if addrKind a = 0 then .ok (.mem false) else .error .badWindow
      | .globalPrivate => if addrKind a ≤ 1 then .ok (.mem (addrKind a == 1)) else .error .badWindow
    let bounds (k off : Nat) (tg : Target) : Except Cause Target := match s.blockOrSaved k with
      | none => .error .badWindow
      | some b =>
        if !b.inRegion off x.size then .error .badWindow
        else if x.access.needsW && b.meetsStatus off x.size then .error .permission
        else .ok tg
    match w with
    | .ok (.own off) => bounds st.block off (.own off)
    | .ok (.other k off) => bounds k off (.other k off)
    | r => r

/-- The offset of register `j` from a lane's address. -/
def FlightOp.stride : FlightOp → Nat
  | .loadRun _ | .storeRun _ => 4
  | _ => 0
/-- The registers of a run, 1 for other words. -/
def FlightOp.runLen : FlightOp → Nat
  | .loadRun n | .storeRun n => n
  | _ => 1
/-- R168: a word that moves a run of registers, be it of one. -/
def FlightOp.isRun : FlightOp → Bool
  | .loadRun _ | .storeRun _ => true
  | _ => false

/-- The address of register `j` in lane `L`. -/
def Flight.at_ (f : Flight) (j L : Nat) : Nat := (Lanes.at 0 f.addr L).toNat + f.op.stride * j

/-- The lanes of `m` that fail a check at register `j`, by cause. -/
def collectBad (l : List (Nat × Cause × Detail)) : List (Cause × Mask × Detail) :=
  let keys := (l.map (fun x => (x.2.1, x.2.2))).eraseDups
  keys.map (fun k => (k.1, Mask.ofPred (fun L => l.any (fun x => x.1 == L && x.2.1 == k.1 && x.2.2 == k.2)), k.2))

/-- R168, R203: the lanes that fail at issue, and where the others go. -/
def State.classify (s : State) (st : Strand) (x : Ask) (f : Flight) : Flight :=
  let ls := Mask.lanes f.mask
  let fails (j : Nat) : List (Nat × Cause × Detail) := ls.filterMap (fun L =>
    match s.laneTarget st x (f.at_ j L) with
    | .error c => some (L, c, 0)
    | .ok _ => none)
  let n := f.op.runLen
  let j0 := ((List.range n).find? (fun j => f.first ≤ j && !(fails j).isEmpty)).getD n
  let bad := collectBad (if j0 < n then fails j0 else [])
  let whole := !f.op.isRun
  let goes (p : Target → Bool) : Mask := Mask.ofPred (fun L =>
    Mask.has f.mask L && (whole || decide (f.first < j0)) &&
    (match s.laneTarget st x (f.at_ f.first L) with
      | .ok t => p t
      | .error _ => false))
  { f with
    bad := bad
    stop := if whole then 1 else j0
    localL := goes (fun t => match t with | .own _ => true | _ => false)
    gangL := goes (fun t => match t with | .other _ _ => true | _ => false)
    xlatL := goes (fun t => match t with | .mem _ => true | _ => false) }

/-- The lanes of a flight's failures, for a record (R414). -/
def Flight.raised (f : Flight) : Option Raised :=
  (mixed (f.bad.flatMap (fun x => (Mask.lanes x.2.1).map (fun L => (L, x.1, x.2.2, BitVec.ofNat 64 (f.at_ f.stop L)))))).map
    (fun r => { r with restart := f.restart })

/-- A flight with what its word asks for. -/
def Flight.asking_ (f : Flight) (x : Ask) : Flight :=
  { f with op := x.op, dst := x.dst, wide := x.wide, regs := x.regs, scope := x.scope, acquire := x.acquire, release := x.release }

/-- The cores that an `ldar` promotes at a scope (R269). -/
def State.promotes (s : State) (a : Agent) (scope : Nat) : List Nat :=
  match scope with
  | 1 => [a.core]
  | 2 =>
    match s.gang a.gang with
    | some g => (g.blocks.map (· / 8)).eraseDups
    | none => [a.core]
  | 3 => (List.range 192).filter (fun c => clusterOf c == clusterOf a.core)
  | 4 | 5 => List.range 192
  | _ => []

/-- The word goes into flight with its lanes checked; lanes that fail are reported and stay pending (R204, R233, R415); a
word without a log entry goes into flight for the others alone (R166). -/
def Ctx.access (c : Ctx) (x : Ask) (promote : Bool) : State :=
  let src (wide : Bool) (pos : Nat) (code : BitVec 8) : Vals := if x.bcast then c.source pos wide code else c.plain wide code
  let mask := if x.single then (match c.act.lowest with | some L => 1#32 <<< L | none => 0) else c.act
  if mask = 0 then c.over c.s
  else
    let f := ((c.flight x.op).asking_ x)
    let f := { f with
      mask := mask
      addr := (src (x.windows != .offset) 1 x.addr).lanes64
      data := x.data.map (fun p => (src p.1 2 p.2).lanes64)
      image := x.image
      promoting := promote
      asking := if promote then c.s.promotes f.agent x.scope else [] }
    let f := c.s.classify c.st x f
    let logged := loggedOp (Instr.opcode c.i)
    match f.raised with
    | none => c.launch c.s logged f
    | some r =>
      if logged then (c.launch c.s true f).raiseFrom c.sid c.slot c.f.pc r none true f.pos c.s.dclk
      else
        let s := if f.localL = 0 then c.s else c.fly c.s false { f with bad := [], mask := f.mask &&& ~~~f.badLanes }
        c.raise s r

/-- A word that accesses through an address, by what it asks for under TYPE. -/
def accessWord (i : Instr) (s : State) : Out :=
  strandWord i (fun c =>
    match askOf i c.type with
    | some x => c.access x false
    | none => c.s) s

/-! ### What a lane does -/

/-- R307: the new value of an atomic. -/
def atomValue (op t old b : Nat) : Nat :=
  match op with
  | 0 => if typeFloat t then (floatLane .fadd t 0 0 old b 0).1 else intLane .add t false old b 0
  | 1 => logicLane .and (if type64 t then 64 else 32) old b
  | 2 => logicLane .or (if type64 t then 64 else 32) old b
  | 3 => logicLane .xor (if type64 t then 64 else 32) old b
  | 4 => if typeFloat t then fminLane .fmin t old b else intLane .min t false old b 0
  | 5 => if typeFloat t then fminLane .fmax t old b else intLane .max t false old b 0
  | 6 => b
  | _ => if old ≥ b then 0 else old + 1

/-- Zero- or sign-extension of `n` bytes to a register (R166). -/
def extendBytes (signed : Bool) (n x : Nat) : Nat := if signed then ofInt 32 (toSigned (8 * n) x) else x

/-- What register `j` of lane `L` does with the bytes it finds: the result, and what it writes. -/
def Flight.laneOp (f : Flight) (j L old : Nat) : Option Nat × Option Nat :=
  let d (k : Nat) : Nat := (Lanes.at 0 (f.data.getD k []) L).toNat
  match f.op with
  | .load sg n _ => (some (extendBytes sg n old), none)
  | .store _ _ => (none, some (d 0))
  | .loadRun _ => (some old, none)
  | .storeRun _ => (none, some (d j))
  | .atom op t res => (if res then some old else none, some (atomValue op t old (d 0)))
  | .cas _ => (some old, if old = d 0 then some (d 1) else none)
  | _ => (none, none)

/-- Bytes of one access. -/
def Flight.size (f : Flight) : Nat :=
  match f.op with
  | .load _ n _ | .store n _ => n
  | .loadRun _ | .storeRun _ => 4
  | .atom _ t _ => if type64 t then 8 else 4
  | .cas w => if w then 8 else 4
  | .shapeLoad _ | .shapeStore _ => 64
  | .mabort | .mres _ => 768
  | .ctxSave | .ctxLoad => 65536
  | _ => 1

def FlightOp.reads : FlightOp → Bool
  | .load .. | .loadRun _ | .atom .. | .cas _ | .shapeLoad _ | .mres _ | .ctxLoad => true
  | _ => false
def FlightOp.writes : FlightOp → Bool
  | .store .. | .storeRun _ | .atom .. | .cas _ | .shapeStore _ | .mabort | .ctxSave => true
  | _ => false

/-- A word that moves an image or a shape register by one lane. -/
def FlightOp.big : FlightOp → Bool
  | .shapeLoad _ | .shapeStore _ | .mabort | .mres _ | .ctxSave | .ctxLoad => true
  | _ => false

/-- What a lane reads, put among the flight's results. -/
def Flight.takeRead (f : Flight) (j L old : Nat) : Flight :=
  if f.op.big then { f with image := old }
  else
    match (f.laneOp j L old).1 with
    | some v => f.setGot j L v
    | none => f
/-- What a lane writes. -/
def Flight.newValue (f : Flight) (j L old : Nat) : Option Nat :=
  if f.op.big then (if f.op.writes then some f.image else none) else (f.laneOp j L old).2

/-! ### Scratchpad and column -/

/-- R158: the words of `n` bytes at an offset that carry a poison mark. -/
def Block.poisonedAt (b : Block) (off n : Nat) : Bool :=
  (List.range ((n + 3) / 4)).any (fun j => (Tbl.find b.poison (off / 4 + j)).isSome)
/-- R447: bytes are written; a word that is covered whole loses its mark. -/
def Block.storeAt (b : Block) (off n v : Nat) : Block :=
  let b := b.writeN off n v
  if n < 4 then b
  else { b with poison := (List.range (n / 4)).foldl (fun t j => Tbl.del t (off / 4 + j)) b.poison
                ecc := (List.range (n / 4)).foldl (fun t j => Tbl.del t (off / 4 + j)) b.ecc }

/-- R158: the words of `n` bytes at an offset are read: one that the code does not correct is marked; answers how many it
corrects. -/
def Block.checkWords (b : Block) (off n : Nat) : Block × Nat :=
  (List.range ((off % 4 + n + 3) / 4)).foldl (fun (acc : Block × Nat) j =>
    match Tbl.find acc.1.ecc (off / 4 + j) with
    | none => acc
    | some true => ({ acc.1 with poison := Tbl.put acc.1.poison (off / 4 + j) (), ecc := Tbl.del acc.1.ecc (off / 4 + j) }, acc.2)
    | some false => (acc.1, acc.2 + 1)) (b, 0)

/-- R455: the column words of a block that a read of it has found beyond correction. -/
def State.noteColumn (s : State) (core : Nat) (was now : Block) : State :=
  let n := (was.ecc.filter (fun e => e.2 && decide (0x400000 ≤ e.1) && (Tbl.find now.ecc e.1).isNone)).length
  s.columnErrors core n

/-- One access of one lane at a block: the block, the flight with its result, or the lane poisoned. -/
def Flight.localLane (f : Flight) (b : Block) (off j L : Nat) : Block × Flight × Bool :=
  if f.op.reads && b.poisonedAt off f.size then (b, f, true)
  else
    let old := b.readN off f.size
    let b := match f.newValue j L old with
      | some v => b.storeAt off f.size v
      | none => b
    (b, f.takeRead j L old, false)

/-- Lanes that fail when they are performed. -/
def Flight.fail (f : Flight) (c : Cause) (m : Mask) (d : Detail) : Flight := if m = 0 then f else { f with bad := f.bad ++ [(c, m, d)] }
/-- R168: the same at register `j`.  A run stops at the lowest register at which a lane fails, and nothing is done there or after. -/
def Flight.failAt (f : Flight) (j : Nat) (c : Cause) (m : Mask) (d : Detail) : Flight :=
  if m = 0 || !f.op.isRun then f.fail c m d
  else if j < f.stop then
    { f with stop := j, bad := [(c, m, d)], reqs := f.reqs.filter (fun r => decide (r.reg < j) || r.phase == .done) }
  else if j = f.stop then f.fail c m d
  else f

/-- R304, R159: the lanes of `m` at their blocks, at register `j`, lane by lane.  Answers the lanes poisoned.  A lane whose target
block has ended since its word was issued reads a free value and stores nothing (log entry 17). -/
def State.performLocalAt (s : State) (f : Flight) (st : Strand) (x : Ask) (m : Mask) (j : Nat) : State × Flight × Mask :=
  (Mask.lanes m).foldl (fun acc L =>
    match acc with
    | (s, f, bad) =>
      let go (k off : Nat) : State × Flight × Mask := match s.block k with
        | none => acc
        | some b =>
          let x := if f.op.reads then b.checkWords off f.size else (b, 0)
          let s := (List.range x.2).foldl (fun s _ => s.countError (k / 8) (some b.domSlot) 0) (s.noteColumn (k / 8) b x.1)
          match f.localLane x.1 off j L with
          | (b, f, p) =>
            let s := s.setBlock k b
            let s := if p then s.countPoison (k / 8) (some b.domSlot) (if off < 0x1000000 then 0 else 1) off else s
            (s, f, if p then bad ||| (1#32 <<< L) else bad)
      match s.laneTarget st x (f.at_ j L) with
      | .ok (.own off) => go st.block off
      | .ok (.other k off) => go k off
      | .ok (.mem _) => acc
      | .error _ =>
        let n := (f.size + 7) / 8
        let v := (List.range n).foldl (fun x i => x + (Config.freeDWord (s.fresh + i)).toNat * 2 ^ (64 * i)) 0
        ({ s with fresh := s.fresh + n }, f.takeRead j L (v % 256 ^ f.size), bad)) (s, f, (0 : Mask))
/-- R168: the registers of a word in rising order, up to one at which a lane is poisoned. -/
def State.performLocal (s : State) (f : Flight) (st : Strand) (x : Ask) (m : Mask) : State × Flight :=
  ((List.range f.stop).filter (f.first ≤ ·)).foldl (fun acc j =>
    if j < acc.2.stop then
      match acc.1.performLocalAt acc.2 st x m j with
      | (s, f, bad) => (s, f.failAt j .poisonConsumed bad 0)
    else acc) (s, f)

/-- R267: a release at `.g`, `.d` or `.x` stamps the core whose allotment it wrote. -/
def State.stampCore (s : State) (f : Flight) (core : Nat) : State :=
  if f.release && stamps (s.scopeFor f.agent.core f.scope) then
    let s := s.observed f.agent.core (s.scopeFor f.agent.core f.scope)
    let c := s.core core
    s.setCore core { c with stamp := clockMax c.stamp (s.cluster (clusterOf f.agent.core)).clock }
  else s
/-- R268: an acquire at `.g`, `.d` or `.x` sets the reading cluster's clock to the stamp of what it read. -/
def State.acquireStamp (s : State) (f : Flight) (stamp : BitVec 20) : State :=
  if f.acquire && (f.scope = 2 || f.scope ≥ 4) then
    let s := s.raiseClock (clusterOf f.agent.core) stamp
    if f.scope = 5 then s.raiseClock (clusterOf f.agent.core) s.extStamp else s
  else s

/-- R253: a log entry is that of an acquire. -/
def LogEntry.acquires (e : LogEntry) : Bool :=
  match decode e.word with
  | .ok i => (askOf i (modeType e.mode)).any (fun x => x.acquire && x.scope != 0)
  | .bad _ => false

/-- R262, R303: an earlier acquire of the strand, in flight or held in its log to be replayed, a waiting `twait`, or a fence, holds
back the words placed from `pos`. -/
def State.heldBack (s : State) (sid pos : Nat) : Bool :=
  (s.flightsOf sid).any (fun f => f.acquire && f.scope != 0 && f.pos < pos && !(f.finished && f.bad.isEmpty)) ||
  (match s.strand sid with
    | none => false
    | some st =>
      st.opLog.any (fun e => e.replay != 0 && e.pos < pos && e.acquires) ||
      [st.fragA, st.fragB].any (fun f => match f with
        | some f => match f.hold with
          | .fence sc upto => sc != 0 && upto ≤ pos
          | .counter _ _ _ upto => upto ≤ pos
          | _ => false
        | none => false))

/-- R262, R264, R270: a flight may be performed now, as far as order goes. -/
def State.mayPerform (s : State) (f : Flight) : Bool :=
  !s.heldBack f.strand f.pos && !f.promoting &&
  (!f.release || f.scope = 0 || s.releasable f.strand f.pos (s.scopeFor f.agent.core f.scope)) &&
  (opcodeOf f.word != 0x8C ||
    (match f.ticket with
      | none => false
      | some t => s.flights.all (fun g => opcodeOf g.word != 0x8C || g.finished || (match g.ticket with
          | some u => t ≤ u
          | none => true))))

/-! ### Neighbours -/

/-- R70, R164: the core at the other end of a link: 0 north, 1 east, 2 south, 3 west. -/
def neighbour (core dir : Nat) : Option Nat :=
  let w := core / 96
  let y := core % 96 / 12
  let x := core % 12
  match dir with
  | 0 => if y = 0 then none else some (96 * w + 12 * (y - 1) + x)
  | 1 => if x = 11 then none else some (core + 1)
  | 2 => if y = 7 then none else some (96 * w + 12 * (y + 1) + x)
  | _ => if x = 0 then none else some (core - 1)

/-- R171: the partner of a block in a direction; one that is saved has the key that stands for it. -/
def State.partner (s : State) (bk dir : Nat) : Except Cause Nat :=
  match neighbour (bk / 8) dir with
  | none => .error .badWindow
  | some c =>
    match s.block bk with
    | none => .error .foreignWindow
    | some b =>
      match s.gang b.tag with
      | none => .error .foreignWindow
      | some g =>
        match g.blocks.find? (fun k => k / 8 == c) with
        | some k => .ok k
        | none =>
          match g.saved.find? (fun x => x.savedKey / 8 == c) with
          | some x => .ok (memberKey g.tag x.index)
          | none => .error .foreignWindow

/-! ### Replays, and what an image does when it has come -/

/-- The operation words of R357, by opcode. -/
def seqOperation (w : Word) : Bool :=
  let op := w.toNat / 2 ^ 24
  (3 ≤ op && op ≤ 5) || (0x0E ≤ op && op ≤ 0x10)
/-- R342: the frame slot of a DCLK, counted from 1 at the slot of clk 0. -/
def State.frameSlot (s : State) : Nat := s.dclk.toNat / 8 + 1
/-- R342: the sequencer of a block has work for the array. -/
def Block.arrayWork (b : Block) : Bool :=
  b.seq.halt.isNone && b.seq.aborting.isNone &&
  (match b.seq.running with
    | some r => (match r.ready with
      | some w => seqOperation w
      | none => false)
    | none => false)

/-- R395: a domain slot is valid, and sealed. -/
def State.slotValid (s : State) (core slot : Nat) : Bool := (s.dpr core slot).testBit 31
def State.slotSealed (s : State) (core slot : Nat) : Bool := s.slotValid core slot && (s.dpr core slot).testBit 24

/-- R342, R376: the block slot that a slot of an engine's frame goes to: `lo` is where the DPR holds the slots owned, `ptr` the
pointer, `work` the block slots with work. -/
def State.slotChoice (s : State) (core lo slot ptr : Nat) (work : Nat → Bool) : Option Nat :=
  let order := (List.range 8).map (fun j => (ptr + j) % 8)
  let domOf (j : Nat) : Nat := match s.block (core * 8 + j) with
    | some b => b.domSlot
    | none => 4
  let owners := (List.range 4).filter (fun d => s.slotValid core d && (s.dpr core d).testBit (lo + slot % 16))
  match order.find? (fun j => work j && owners.contains (domOf j)) with
  | some j => some j
  | none =>
    if owners.any (s.slotSealed core) then none
    else order.find? (fun j => work j && !s.slotSealed core (domOf j))

/-- R342: the frame slot of now is given to a sequencer with work, if it has not been given yet. -/
def State.grantArray (s : State) (core : Nat) : State :=
  let k := s.core core
  let now := s.frameSlot
  if k.arraySlot = now then s
  else
    let ptr := (k.arrayPtr + (now - k.arraySlot)) % 8
    let work (j : Nat) : Bool := match s.block (core * 8 + j) with
      | some b => b.arrayWork
      | none => false
    s.setCore core { k with arrayPtr := ptr, arraySlot := now, arrayFor := s.slotChoice core 128 (now - 1) ptr work }
/-- R342: the frame slot of now is given to the block. -/
def State.granted (s : State) (bk : Nat) : Bool :=
  let c := (s.grantArray (bk / 8)).core (bk / 8)
  c.arraySlot == s.frameSlot && c.arrayFor == some (bk % 8)
/-- R353: the running stream waits in `mwb` or for a frame slot. -/
def State.seqWaits (s : State) (bk : Nat) (q : Seq) : Bool :=
  q.wait.isSome || (match q.running.bind Stream.ready with
    | some w => seqOperation w && !s.granted bk
    | none => false)
/-- R354: the image of the stream that stands stopped in a block's sequencer; STATE by R353. -/
def State.seqImage (s : State) (bk : Nat) (q : Seq) : Nat :=
  match q.running with
  | some r =>
    r.image q.seqno (if q.halt.isSome then 3 else if s.seqWaits bk q then 2 else 0)
  | none => 0

/-- R356: the streams that a strand has submitted from images not read yet, oldest first. -/
def Block.loadingStreams (b : Block) (sid : Nat) : List DWord :=
  ((b.seq.running.toList ++ b.seq.queued).filter (fun r => r.loading && r.strand == sid)).map Stream.n

/-- What a word of a strand is replayed under: the identity that it was issued under (R408), where the strand stands now. -/
def Agent.under (now issued : Agent) : Agent :=
  { now with vmid := issued.vmid, asid := issued.asid, pasid := issued.pasid, groot := issued.groot, proot := issued.proot,
             ident := issued.ident, sealed := issued.sealed }

/-- R235: a held log entry as a word in flight in its REPLAY lanes, with its sources taken from the entry. -/
def State.entryFlight (s : State) (sid : Nat) (st : Strand) (e : LogEntry) : Option Flight :=
  match decode e.word with
  | .bad _ => none
  | .ok i =>
    let b := s.block st.block
    let base (op : FlightOp) : Flight := { Flight.blank e.flight sid ((st.agent s sid).under e.agent) op e.replay with
      pc := e.pc, header := e.header, index := e.index, word := e.word, flag := e.flag, addr := e.addr, data := e.data,
      first := e.restart, image := e.image, pos := e.pos }
    match i with
    | .xsend cn r _ => some { base (.xsend r.toNat cn.toNat) with
        bad := match s.partner st.block r.toNat with
          | .ok _ => []
          | .error c => [(c, e.replay, 0)] }
    | .pgq d _ k => some { base (.pgq k.toNat) with dst := d, wide := true, regs := 1, xlatL := e.replay }
    | i =>
      (askOf i (modeType e.mode)).map (fun x =>
        let f := s.classify st x { (base x.op).asking_ x with mask := e.replay }
        match i with
        | .mres .. =>
          let k := (st.opLog.filter (fun y => y.word.toNat / 2 ^ 24 == 0xAA && y.flight < e.flight)).length
          { f with op := .mres (((b.map (fun b => b.loadingStreams sid)).getD []).getD k 0) }
        | .mabort .. => { f with image := (b.map (fun b => s.seqImage st.block b.seq)).getD 0 }
        -- R437: an entry that an image has brought does not hold what it was to write
        | .ctxsv d _ => if e.image = 0 then { f with image := (st.setRegs false d.toNat e.replay (Vals.gen (fun _ => 1))).image } else f
        -- R269: the load that is performed now is promoted anew
        | .ldar .. => { f with promoting := true, asking := s.promotes f.agent x.scope }
        | _ => f)

/-- A cause met after issue: the lanes stay pending and the strand goes on by R233 or stops. -/
def State.failFlight (s : State) (f : Flight) (issuing : Bool) : State :=
  match s.strand f.strand, f.raised with
  | some st, some r =>
    s.raiseFrom f.strand (st.slotOf f.badLanes) f.pc r none issuing f.pos s.dclk
  -- R449: a word of a strand that is gone has no record, and ends where no lane is left
  | none, some _ =>
    let g := f.orphan f.strand
    if g.finished then s.dropFlight f.id else s.setFlight g
  | _, none => s

/-- R235: held entries of a strand are issued again, oldest first; one that fails its checks again traps again.  A spilled strand
waits for its refill (R115). -/
def State.replayWhere (s : State) (sid : Nat) (p : LogEntry → Bool) : State :=
  match s.strand sid with
  | none => s
  | some st =>
    if st.spilled then s else
    let es := st.opLog.filter (fun e => e.replay != 0 && (s.flight e.flight).isNone && p e)
    let fs := es.filterMap (s.entryFlight sid st)
    let s := { s with flights := s.flights ++ fs }
    (fs.filter (fun f => !f.bad.isEmpty)).foldl (fun s f => s.failFlight f true) s
def State.replayAll (s : State) (sid : Nat) : State := s.replayWhere sid (fun _ => true)

/-- R235: a strand that goes on replays its log; one in its handler only the words that a save gave up. -/
def State.replayDue (s : State) (sid : Nat) : State :=
  match s.strand sid with
  | none => s
  | some st =>
    if st.stopped || st.openFault.isSome then s
    else if st.inHandler then s.replayWhere sid (fun e => e.cause == 0)
    else s.replayAll sid

/-- R115: a refill whose image faults is withdrawn until its strand is resumed; the cause is raised unless the strand has stopped
already. -/
def State.refillFault (s : State) (strand : Nat) (st : Strand) (r : GrowReq) (e : Cause) (d : Detail) (a : Nat) : State :=
  let core := coreOf strand
  let k := s.core core
  let q := (Tbl.get [] k.growth (partOf strand)).map (fun x => if x = r then { x with slot := true } else x)
  let s := s.setCore core { k with growth := Tbl.put k.growth (partOf strand) q }
  if st.stopped || st.openFault.isSome then s else s.raiseNext strand st e (BitVec.ofNat 64 a) d
/-- R115: a spilled strand's granules are loaded back when its request is granted. -/
def execSpilledStrandRefill (strand : Nat) (s : State) : Out :=
  let core := coreOf strand
  let part := partOf strand
  .next (match oldestReq (s.growQueue core part), s.strand strand with
    | some r, some st =>
      if !r.refill || r.strand != strand || s.freeGranules core part < granCount r.need then s
      else
        match s.granuleFault st r.need .read with
        | some (e, d, a) => s.refillFault strand st r e d a
        | none =>
          let s := s.dropReq core part r
          match s.loadGranules st r.need with
          | (st, s) => (s.setStrand strand { st with spilled := false }).replayDue strand
    | _, _ => s)

/-- R115: a spilled strand asks for its granules. -/
def State.askRefill (s : State) (sid : Nat) (st : Strand) : State :=
  if !st.spilled then s
  else
    let c := s.core (coreOf sid)
    let q := Tbl.get [] c.growth (partOf sid) ++ [⟨sid, false, st.granules, s.dclk, true⟩]
    s.setCore (coreOf sid) { c with growth := Tbl.put c.growth (partOf sid) q }
/-- R114, R438: the granules of a spilled strand, as an image holds them, go to the strand's own place. -/
def State.keepSpilled (s : State) (st : Strand) (img : Nat) : State :=
  if !st.spilled then s
  else (List.range 24).foldl (fun s g => if st.granules.getLsbD g then s.writeCtx st (1024 * g) 1024 (getF img (1024 * g) 1024) else s) s

/-- R438, R432: an image that a `ctxld` has read is refused: the word, which has folded no record (R444), raises ILLEGAL_OPERAND in its
whole active mask (R414), and counts as not issued. -/
def State.refuseLoad (s : State) (f : Flight) (st : Strand) : State :=
  let slot := st.slotOf f.mask
  let st := st.resumeAt slot f.pc f.header f.index none
  let m := match st.frag slot with
    | some g => activeMask st g (opcodeOf f.word)
    | none => f.mask
  (s.setStrand f.strand st).raise f.strand slot f.pc (Raised.wide .illegalOperand m 0) none false
/-- R438: the whole context of a strand is replaced from the image that its `ctxld` has read.  A halted one keeps its valid record until
it is released (R422), and a spilled one asks for its granules (R115). -/
def State.finishLoad (s : State) (f : Flight) : State :=
  match s.strand f.strand with
  | none => s
  | some st =>
    let dom := match s.block st.block with
      | some b => bits (s.dpr (coreOf f.strand) b.domSlot) 11 0
      | none => 0
    let frames := (List.range 4).any (fun k => getF f.image (0x7180 + 48 * k) 48 != 0)
    if frames || getF f.image 0x712C 4 % 4096 != dom then s.refuseLoad f st
    else
      match s.loadImage f.strand st f.image with
      | none => s.refuseLoad f st
      | some (s, st) =>
        let st := { st with stopped := st.halted && st.record.isSome }
        let s := ((s.setStrand f.strand st).keepSpilled st f.image).askRefill f.strand st
        match st.record with
        | some r => if st.halted then s else s.deliver f.strand st r
        | none => s.replayAll f.strand

/-- R336, R354 to R356, R438: what a word that moves a shape register or an image does when all its bytes have moved. -/
def State.afterFlight (s : State) (f : Flight) : State :=
  match f.op with
  | .shapeLoad k => s.modBlock f.agent.block (fun b => { b with shapes := Tbl.set 0 b.shapes k (shKept f.image) })
  | .mabort => s.modBlock f.agent.block (fun b => { b with seq := b.seq.endAbort })
  | .mres n =>
    let read (r : Stream) : Stream := if r.n = n && r.loading then r.ofImage f.image else r
    s.modBlock f.agent.block (fun b => { b with seq := { b.seq with running := b.seq.running.map read, queued := b.seq.queued.map read } })
  | .ctxLoad => s.finishLoad f
  | _ => s

/-- The lanes of a flight that have been performed are written when nothing is left to do, and the word completes, unless some
lanes failed and wait for their replay (R205, R233). -/
def State.settleFlight (s : State) (f : Flight) : State :=
  let s := s.setFlight f
  if !f.finished then s
  else
    let good := f.mask &&& ~~~f.badLanes
    let regs := match f.op with
      | .loadRun _ => (List.range f.stop).filter (f.first ≤ ·)
      -- D of these words is written when they issue, and read when they have completed (log entry 24)
      | .mres _ | .mabort | .ctxSave => []
      | _ => List.range f.regs
    let m := match f.op with
      | .loadRun _ => f.mask
      | _ => good
    let s := regs.foldl (fun s j => s.writeBack f j m) s
    if f.bad.isEmpty then (s.completeFlight f).afterFlight f else s

/-- The word of a flight, as its strand's clause holds it, with the TYPE it was issued under. -/
def Flight.ask (f : Flight) : Option Ask :=
  let t := match f.op with
    | .atom _ t _ => t
    | .cas w => if w then 6 else 0
    | _ => 0
  match decode f.word with
  | .ok i => askOf i t
  | .bad _ => none

/-- R159, R165: the words of blocks' stores that the lanes of `m` of a flight name: block and offset div 4. -/
def State.wordsNamed (s : State) (f : Flight) (m : Mask) : List (Nat × Nat) :=
  match s.strand f.strand, f.ask with
  | some st, some x =>
    (Mask.lanes m).flatMap (fun L => ((List.range f.stop).filter (f.first ≤ ·)).flatMap (fun j =>
      let words (k off : Nat) : List (Nat × Nat) := (List.range ((off % 4 + f.size + 3) / 4)).map (fun i => (k, off / 4 + i))
      match s.laneTarget st x (f.at_ j L) with
      | .ok (.own off) => words st.block off
      | .ok (.other k off) => words k off
      | _ => []))
  | _, _ => []

/-- R156, R159, R261: the lanes at the issuing block's own store; not before an earlier word of the strand that still names one of
their words. -/
def execLocalAccessComplete (flight : Nat) (s : State) : Out :=
  .next (match s.flight flight with
    | none => s
    | some f =>
      match s.strand f.strand, f.ask with
      | some st, some x =>
        let mine := s.wordsNamed f f.localL
        let earlier := (s.flightsOf f.strand).any (fun g => g.pos < f.pos && (s.wordsNamed g g.localL).any mine.contains)
        if f.localL = 0 || earlier || !s.mayPerform f || (f.op.isRun && f.xlatL ≠ 0) then s
        else
          match s.performLocal f st x f.localL with
          | (s, g) =>
            let s := s.stampCore f (st.block / 8)
            let s := s.acquireStamp f (s.core (st.block / 8)).stamp
            let g := { g with localL := 0 }
            let s := s.settleFlight g
            if g.bad = f.bad then s else s.failFlight g false
      | _, _ => s)

/-- R165: the lanes at other blocks of the gang, in the order issued from one block to another. -/
def execGangWindowArrival (flight : Nat) (s : State) : Out :=
  .next (match s.flight flight with
    | none => s
    | some f =>
      match s.strand f.strand, f.ask with
      | some st, some x =>
        let keys := ((s.wordsNamed f f.gangL).map Prod.fst).eraseDups
        let earlier := s.flights.any (fun g => g.pos < f.pos && g.agent.block == f.agent.block &&
          (s.wordsNamed g g.gangL).any (fun w => keys.contains w.1))
        if f.gangL = 0 || earlier || !s.mayPerform f || (f.op.isRun && f.xlatL ≠ 0) || keys.any (fun k => (s.block k).isNone) then s
        else
          let cores := (keys.map (· / 8)).eraseDups
          match s.performLocal f st x f.gangL with
          | (s, g) =>
            let s := cores.foldl (fun s c => s.stampCore f c) s
            let s := cores.foldl (fun s c => s.acquireStamp f (s.core c).stamp) s
            let g := { g with gangL := 0 }
            let s := s.settleFlight g
            if g.bad = f.bad then s else s.failFlight g false
      | _, _ => s)

end Sys2Proof.Machine
end

