-- ==== Sys2Proof/Machine/Chain.lean ====
section
/-!
DEFINITION. One spiral chain (07 R175 to R195): its sub-chains, the outward shift of lots and holes around pinned stations,
touches, landings at the front and at the gates, miss entries, evictions and write-backs.
-/
namespace Sys2Proof.Machine

/-! ### Sub-chains -/

/-- A sub-chain entry as a number (R178). -/
def Cluster.entry (c : Cluster) (i : Nat) : Nat := (c.subs.getD i 0).toNat
def Cluster.subValid (c : Cluster) (i : Nat) : Bool := i == 0 || bits (c.entry i) 0 0 == 1
def Cluster.rings (c : Cluster) (i : Nat) : Nat := 4 * (bits (c.entry i) 3 1 + 1)
def Cluster.subDomain (c : Cluster) (i : Nat) : Nat := bits (c.entry i) 31 20
def Cluster.quota (c : Cluster) (i : Nat) : Nat := bits (c.entry i) 59 48
/-- R187: the front port-slots that a sub-chain owns in sclk `S`; each serves one tag lookup and one front landing. -/
def Cluster.ports (c : Cluster) (i S : Nat) : Nat :=
  ((List.range 6).filter (fun p => (bits (c.entry i) 111 64).testBit (6 * (S % 8) + p))).length
/-- The valid entries. -/
def Cluster.validSubs (c : Cluster) : List Nat := (List.range 4).filter c.subValid
/-- R179: the sub-chain that serves a domain. -/
def Cluster.subFor (c : Cluster) (ident : BitVec 12) : Nat :=
  (c.validSubs.find? (fun i => c.subDomain i == ident.toNat)).getD 0

/-- R187: the tag lookups that a sub-chain has left in the clk whose first sclk is `S`. -/
def Cluster.portsLeft (c : Cluster) (i S : Nat) : Nat :=
  match Tbl.find c.looked i with
  | some (t, n) => if t = S + 1 then c.ports i S + c.ports i (S + 1) - n else c.ports i S + c.ports i (S + 1)
  | none => c.ports i S + c.ports i (S + 1)
/-- R187: one of them is made. -/
def Cluster.lookedUp (c : Cluster) (i S : Nat) : Cluster :=
  let n := match Tbl.find c.looked i with
    | some (t, n) => if t = S + 1 then n else 0
    | none => 0
  { c with looked := Tbl.put c.looked i (S + 1, n + 1) }

/-- R180, R176: stations, insertion station and cap station. -/
def Cluster.stations (c : Cluster) (i : Nat) : Nat := 64 * c.rings i * c.rings i
def Cluster.insertion (c : Cluster) (i : Nat) : Nat := 32 * c.rings i * c.rings i
def Cluster.cap (c : Cluster) (i : Nat) : Nat := 4 * c.rings i * c.rings i
/-- R176: the ring of a chainage. -/
def ringOf (c : Nat) : Nat := ((List.range 32).filter (fun r => decide (64 * (r + 1) * (r + 1) ≤ c))).length

/-- R191: the sum of k² over the valid sub-chains. -/
def Cluster.weight (c : Cluster) : Nat := c.validSubs.foldl (fun n i => n + c.rings i * c.rings i) 0
/-- R191: a sub-chain's share of `total` entries, rounded down to a multiple of `unit` and at least `least`; entry 0 takes what
is left over, be it less than `least` (log entry 60). -/
def Cluster.share (c : Cluster) (total unit least i : Nat) : Nat :=
  let part (j : Nat) := max least (total * (c.rings j * c.rings j) / max 1 c.weight / unit * unit)
  if i = 0 then total - ((c.validSubs.filter (· != 0)).foldl (fun n j => n + part j) 0) else part i
def Cluster.missShare (c : Cluster) (i : Nat) : Nat := c.share 256 4 8 i
def Cluster.wbShare (c : Cluster) (i : Nat) : Nat := c.share 64 1 2 i

/-- R210: a lot is pinned while any entry names it. -/
def Cluster.pinned (c : Cluster) (lot : Nat) : Bool := c.pins.any (fun p => p.lot == lot)
def Cluster.setLot (c : Cluster) (lot : Nat) (l : Lot) : Cluster := { c with lots := Tbl.put c.lots lot l }
def Cluster.dropLot (c : Cluster) (lot : Nat) : Cluster := { c with lots := Tbl.del c.lots lot }
/-- Miss entries in use of a sub-chain, reserved or not (R191). -/
def Cluster.missUsed (c : Cluster) (i : Nat) (res : Bool) : Nat :=
  (c.lots.filter (fun p => match p.2.place with
    | .miss _ _ _ _ r => p.2.sub == i && r == res
    | _ => false)).length
/-- R191, R192: whether an unreserved, or for an aged request a reserved, miss entry is free: its kind.  The reserve is an
eighth, rounded down (log entry 60). -/
def Cluster.freeMiss (c : Cluster) (i : Nat) (aged : Bool) : Option Bool :=
  let n := c.missShare i
  if c.missUsed i false < n - n / 8 then some false
  else if aged && c.missUsed i true < n / 8 then some true
  else none
/-- R193: a write-back entry of the sub-chain is free. -/
def Cluster.freeWb (c : Cluster) (i : Nat) : Bool :=
  decide ((c.wbs.filter (fun w => w.sub == i && w.entry)).length < c.wbShare i)

/-! ### Shifts -/

/-- R186: the pinned stations of a sub-chain. -/
def Cluster.pinnedAt (c : Cluster) (i : Nat) : List Nat :=
  c.lots.filterMap (fun p => match p.2.place with
    | .station a => if p.2.sub = i && c.pinned p.1 then some a else none
    | _ => none)
/-- R186: the next station outward that is not pinned. -/
def nextStation (pins : List Nat) : Nat → Nat → Nat
  | 0, c => c
  | n + 1, c => if pins.contains c then nextStation pins n (c + 1) else c
/-- The first unpinned station at or outward of `c`. -/
def freeStation (pins : List Nat) (c : Nat) : Nat := nextStation pins (pins.length + 1) c

/-- What one item does when the lots and holes of stations `lo` to `hi - 1` of sub-chain `i` move out by one. -/
def shiftLot (pins : List Nat) (i lo hi : Nat) (l : Lot) : Lot :=
  if l.sub ≠ i then l
  else
    let move (a : Nat) : Nat := if lo ≤ a && a < hi && !pins.contains a then freeStation pins (a + 1) else a
    match l.place with
    | .station a => { l with place := .station (move a) }
    | .moving r (some h) cap rd t co pa e => { l with place := .moving r (some (move h)) cap rd t co pa e }
    | _ => l

/-- R193, R244, R267: a lot that leaves its sub-chain takes its timestamps and stamp with it, and its bytes to a write-back entry
when it is dirty. -/
def Cluster.evict (c : Cluster) (lot : Nat) (l : Lot) : Cluster :=
  let c := c.dropLot lot
  let c := if l.copy.isSome then c else { c with mts := clockMax (clockMax (clockMax c.mts l.wts) l.rts) l.stamp }
  if l.dirty then { c with wbs := c.wbs ++ [⟨lot, l.sub, false, true, true, l.dom⟩] } else c

/-- Lots that a shift has pushed past the tail, and the clearing of holes there (R177, R185). -/
def Cluster.trim (c : Cluster) (i : Nat) : Cluster :=
  let n := c.stations i
  let gone := c.lots.filter (fun p => p.2.sub == i && (match p.2.place with | .station a => decide (n ≤ a) | _ => false))
  let c := gone.foldl (fun c p => c.evict p.1 p.2) c
  { c with lots := c.lots.map (fun p =>
      match p.2.place with
      | .moving r (some h) cap rd t co pa e =>
        if p.2.sub = i && n ≤ h then (p.1, { p.2 with place := .moving r none cap rd t co pa e }) else p
      | _ => p) }

/-- R193: a shift to the tail from station `lo` would evict a dirty lot, and no write-back entry is free. -/
def Cluster.blockedShift (c : Cluster) (i lo : Nat) : Bool :=
  let pins := c.pinnedAt i
  let n := c.stations i
  !c.freeWb i && c.lots.any (fun (p : Nat × Lot) => p.2.sub == i && p.2.dirty && (match p.2.place with
    | .station a => lo ≤ a && !pins.contains a && decide (n ≤ freeStation pins (a + 1))
    | _ => false))

/-- R185: one lot lands at `gate`: the items between the gate and its hole move out and the hole is filled; without a hole, all
items from the gate outward move, and the tail's contents leave.  `none`: it has to wait (R193). -/
def Cluster.land (c : Cluster) (lot : Nat) (gate : Nat) : Option Cluster :=
  match c.lot lot with
  | none => none
  | some l =>
    let i := l.sub
    let pins := c.pinnedAt i
    let dest := freeStation pins gate
    let hole := match l.place with
      | .moving _ h _ _ _ _ _ _ => h
      | _ => none
    match hole with
    | some h =>
      let c := { c with lots := c.lots.map (fun (p : Nat × Lot) => if p.1 = lot then p else (p.1, shiftLot pins i gate h p.2)) }
      some (c.setLot lot { l with place := .station dest })
    | none =>
      if c.blockedShift i gate then none
      else
        let c := { c with lots := c.lots.map (fun (p : Nat × Lot) => if p.1 = lot then p else (p.1, shiftLot pins i gate (c.stations i) p.2)) }
        some ((c.setLot lot { l with place := .station dest }).trim i)

/-! ### Touches -/

/-- R182: a touch of a lot at a station under a hint (0 keep, 1 stream), at sclk `S` by a partition of a core. -/
def Cluster.touch (c : Cluster) (lot : Nat) (stream : Bool) (S core part : Nat) : Cluster :=
  match c.lot lot with
  | none => c
  | some l =>
    match l.place with
    | .station a =>
      if c.pinned lot then c
      else if stream then
        if a < c.cap l.sub then c
        else
          let run := 2 * (ringOf a - c.rings l.sub / 4)
          c.setLot lot { l with place := .moving (ringOf a) (some a) true (S + run) S core part (run == 0) }
      else if a = 0 then c
      else
        let run := 2 * ringOf a
        c.setLot lot { l with place := .moving (ringOf a) (some a) false (S + run) S core part (run == 0) }
    | _ => c

/-- R188, R193: a store has been merged into a lot. -/
def Cluster.dirtied (c : Cluster) (lot : Nat) : Cluster :=
  match c.lot lot with
  | some l => if l.copy.isSome then c else c.setLot lot { l with dirty := true, stored := true }
  | none => c

/-- R194: reclaims a lot from its write-back entry as a keep fill.  A write that has not begun is cancelled. -/
def Cluster.reclaim (c : Cluster) (lot : Nat) (w : WriteBack) (S core part : Nat) : Cluster :=
  let wbs := if w.started then c.wbs.map (fun x => if x = w then { x with held := false } else x) else c.wbs.erase w
  { c with wbs := wbs }.setLot lot
    ⟨.arrived false S S core part, w.sub, !w.started, !w.started, none, c.mts, c.mts, c.mts, w.dom⟩

/-- R189: a miss entry for a lot of a domain; its stamp is `m` (R267). -/
def Cluster.takeMiss (c : Cluster) (lot : Nat) (dom : BitVec 12) (stream res : Bool) (S core part : Nat) (m : BitVec 20) : Cluster :=
  c.setLot lot ⟨.miss stream S core part res, c.subFor dom, false, false, none, c.mts, c.mts, m, dom⟩

/-! ### Landing order -/

/-- R3: the sclk of a half of the present clk. -/
def State.sclk (s : State) (half : Bool) : Nat := 2 * s.dclk.toNat + (if half then 1 else 0)

/-- R184: the place of a core of another cluster, or of cluster-core index `x`, in the rotating order of sclk `S'`; it has waited
since sclk `ready`. -/
def rotPlace (cl core S' ready S : Nat) : Nat :=
  if clusterOf core = cl then 1 + (clusterIndex core + 8 - S' % 8) % 8
  else if S ≥ ready + 16 then 0 else 9

/-- R184: keys 3 to 5: the core's place and the partition's place in the rotating orders of sclk `S'`, and the lot. -/
def tieKey (cl S lot S' ready core part : Nat) : List Nat :=
  [rotPlace cl core S' ready S, (part + 6 - S' / 2 % 6) % 6, lot]

/-- R184: the key of a candidate: ready sclk, touch sclk (later first), and keys 3 to 5. -/
def landKey (cl S lot ready touch core part : Nat) : List Nat :=
  ready :: (2 ^ 65 - touch) :: tieKey cl S lot touch ready core part

/-- Lexicographic order of keys. -/
def keyLt : List Nat → List Nat → Bool
  | a :: r, b :: q => decide (a < b) || (a == b && keyLt r q)
  | _, _ => false

/-- Inserts by key. -/
def keyInsert (x : List Nat × Nat) : List (List Nat × Nat) → List (List Nat × Nat)
  | [] => [x]
  | y :: r => if keyLt x.1 y.1 then x :: y :: r else y :: keyInsert x r

/-- R184: the lots of a sub-chain that may land through a gate in sclk `S`, in rank order: 0 the front, 1 the cap gate, 2 the
insertion gate.  A lot's motion has ended once its sclk has come. -/
def Cluster.candidates (c : Cluster) (cl i gate S : Nat) : List Nat :=
  (c.lots.foldl (fun acc p =>
    if p.2.sub ≠ i then acc
    else
      match p.2.place with
      | .moving _ _ cap ready touch core part _ =>
        if ready ≤ S && gate == (if cap then 1 else 0) then keyInsert (landKey cl S p.1 ready touch core part, p.1) acc
        else acc
      | .arrived stream ready touch core part =>
        if ready ≤ S && gate == (if stream then 2 else 0) then keyInsert (landKey cl S p.1 ready touch core part, p.1) acc else acc
      | _ => acc) []).map Prod.snd

/-- Lands the granted lots from the last-ranked to the first (R185). -/
def Cluster.landAll (c : Cluster) (gate : Nat) (l : List Nat) : Cluster :=
  l.reverse.foldl (fun c lot => (c.land lot gate).getD c) c

/-- R197: a directory entry is cleared when the holder's chain holds no lot of the frame. -/
def State.pruneHolders (s : State) (cl : Nat) : State :=
  let c := s.cluster cl
  { s with holders := s.holders.filter (fun p =>
      p.2 != cl || c.lots.any (fun l => l.1 / 256 == p.1) || c.wbs.any (fun w => w.held && w.lot / 256 == p.1)) }

def State.updateCluster (s : State) (cl : Nat) (c : Cluster) : State := (s.setCluster cl c).pruneHolders cl

/-! ### The device's own steps on a chain -/

/-- R182: the motion of a lot ends. -/
def execLotMotionEnd (chain lot : Nat) (s : State) : Out :=
  .next (let c := s.cluster chain
    match c.lot lot with
    | some l =>
      match l.place with
      | .moving r h cap ready t co pa false =>
        if ready ≤ s.sclk true then s.setCluster chain (c.setLot lot { l with place := .moving r h cap ready t co pa true }) else s
      | _ => s
    | none => s)

/-- R185, R187: the landings of one sub-chain in one sclk, once. -/
def execFrontLanding (chain sub : Nat) (half : Bool) (s : State) : Out :=
  .next (let c := s.cluster chain
    let S := s.sclk half
    if !c.subValid sub || Tbl.get 0 c.landed sub > S then s
    else
      let c := c.landAll 0 ((c.candidates chain sub 0 S).take (c.ports sub S))
      s.updateCluster chain { c with landed := Tbl.put c.landed sub (S + 1) })

/-- R185: one lot lands through the cap gate or the insertion gate. -/
def execGateLanding (chain sub : Nat) (cap : Bool) (s : State) : Out :=
  .next (let c := s.cluster chain
    let S := s.sclk true
    if !c.subValid sub then s
    else
      let gate := if cap then c.cap sub else c.insertion sub
      s.updateCluster chain (c.landAll gate ((c.candidates chain sub (if cap then 1 else 2) S).take 1)))

end Sys2Proof.Machine
end

