-- ==== Sys2Proof/Machine/Tag.lean ====
section
/-!
DEFINITION. Accesses to device memory in flight: their translation (08 R229 to R236), their tag slots in the chains by class
(07 R181 to R201, 08 R243), the replies, fills and acknowledgements that end them, and the locality predictor (11 R306).
-/
namespace Sys2Proof.Machine

/-! ### Addresses of a lane -/

/-- R162, R160: the virtual bytes of register `j` in lane `L`, and whether they lie in the private space. -/
def Flight.vaBytes (f : Flight) (j L : Nat) : Bool × List Nat :=
  let a := f.at_ j L
  if addrKind a = 1 then
    (true, (List.range f.size).map (fun k => let o := a % 2 ^ 48 + k; o / 4 * 128 + 4 * L + o % 4))
  else (false, (List.range f.size).map (a + ·))

/-- The key of a page among a word's pages: page number and space. -/
def pageKey (priv : Bool) (va : Nat) : Nat := 2 * (va / 65536) + (if priv then 1 else 0)

/-- The pages of register `j` in lane `L`: key, an address in each, in ascending order of the bytes. -/
def Flight.pagesOf (f : Flight) (j L : Nat) : List (Nat × Nat) :=
  let v := f.vaBytes j L
  v.2.foldl (fun acc a => if acc.any (fun y => y.1 == pageKey v.1 a) then acc else acc ++ [(pageKey v.1 a, a)]) []

/-- The physical bytes of register `j` in lane `L`, once its pages are translated, each with its page. -/
def Flight.paPaged (f : Flight) (j L : Nat) : List (Nat × Nat × Xlat) :=
  let v := f.vaBytes j L
  v.2.filterMap (fun a => match Tbl.find f.pages (pageKey v.1 a) with
    | some (.ok x) => some (x.pa + a % 65536, pageKey v.1 a, x)
    | _ => none)
def Flight.paBytes (f : Flight) (j L : Nat) : List Nat := (f.paPaged j L).map (fun p => p.1)
/-- Those of them that lie in a lot. -/
def Flight.lotBytes (f : Flight) (j L lot : Nat) : List Nat := (f.paBytes j L).filter (fun a => a / 256 == lot)

/-- What a word needs of its pages (R227). -/
def FlightOp.need : FlightOp → Access
  | .store .. | .storeRun _ | .shapeStore _ | .ctxSave | .mabort => .write
  | .atom .. | .cas _ => .both
  | _ => .read

/-! ### Homes and holders -/

/-- R196: a domain is sealed for hashing while a valid entry of the sealed table names it. -/
def State.sealedDomain (s : State) (d : Nat) : Bool := s.sealed.any (fun w => w.getLsbD 31 && w.toNat % 4096 == d)

/-- R196: the hash home of a lot (`unit` 256) or of a frame (`unit` 65,536); the ordinary one where the home set of a sealed domain
is empty (log entry 60). -/
def State.homeOf (s : State) (tract pa unit : Nat) : Nat :=
  let e := s.frameEntry tract pa
  let owner := e % 4096
  if bits e 15 14 = 0 && s.sealedDomain owner then
    let hs := (List.range 24).filter (fun k =>
      let c := s.cluster k
      c.validSubs.any (fun i => c.subDomain i == owner))
    match hs with
    | [] => pa / unit % 24
    | h :: r => (h :: r).getD (pa / unit % (r.length + 1)) h
  else pa / unit % 24

/-- The lot is in a cluster's chain or in its write-back buffer. -/
def Cluster.holds (c : Cluster) (lot : Nat) : Bool := (c.lot lot).isSome || (c.heldWb lot).isSome

/-- R197, R199, R198: the chain that holds a lot under its class, or would. -/
def State.holdingChain (s : State) (tract core lot cls : Nat) : Nat :=
  let k := clusterOf core
  match cls with
  | 0 => if (s.cluster k).holds lot then k else Tbl.get k s.holders (lot / 256)
  | 1 => k
  | _ => let h := s.homeOf tract (256 * lot) 256
    Tbl.get h (s.cluster h).lent lot

/-- R313: a store or atomic has been performed on a lot. -/
def State.fireMonitors (s : State) (lot : Nat) : State :=
  { s with strands := s.strands.map (fun p =>
      match p.2.monitor with
      | some m => if m.lot = lot then (p.1, { p.2 with monitor := some { m with fired := true } }) else p
      | none => p) }

/-! ### Translation of a word -/

/-- R230, R231: the pages that a word's untranslated lanes name, in ascending order. -/
def Flight.pagesNeeded (f : Flight) : List (Nat × Nat × Bool) :=
  let js := (List.range f.stop).filter (f.first ≤ ·)
  let all := js.flatMap (fun j => (Mask.lanes f.xlatL).flatMap (fun L =>
    (f.pagesOf j L).map (fun p => (p.1, p.2, (f.vaBytes j L).1))))
  all.foldl (fun (acc : List (Nat × Nat × Bool)) x =>
    if acc.any (fun y => y.1 == x.1) then acc
    else acc.filter (fun y => decide (y.1 < x.1)) ++ [x] ++ acc.filter (fun y => decide (x.1 < y.1))) []

/-- The cause of a faulted page of a list that holds an address of a space. -/
def spanOf (l : List (Bool × Nat × Nat × Cause × Detail)) (priv : Bool) (va : Nat) : Option (Cause × Detail) :=
  (l.find? (fun x => x.1 == priv && decide (x.2.1 ≤ va) && decide (va < x.2.2.1))).map (fun x => x.2.2.2)
/-- R231: a page that faulted for an earlier word of the strand faults for this one too. -/
def State.earlierFault (s : State) (f : Flight) (priv : Bool) (va : Nat) : Option (Cause × Detail) :=
  (s.flightsOf f.strand).findSome? (fun (g : Flight) => if g.pos < f.pos then spanOf g.spans priv va else none)
/-- R231: a word looks each page up once: what a 64 KiB that it has looked up gives for another of the same page, in the same 2 MiB
frame where the page is larger. -/
def pageShared (pages : Tbl XRes) (priv : Bool) (va : Nat) : Option XRes :=
  pages.findSome? (fun p => match p.2 with
    | .bad _ _ => none
    | .ok x =>
      let z := sizeSpan x.size
      let same := p.1 % 2 == (if priv then 1 else 0) && p.1 / 2 * 65536 / z == va / z && (x.size ≤ 1 || p.1 / 2 / 32 == va / 2 ^ 21)
      if same then some (.ok { x with pa := x.pa / z * z + va / 65536 % sizePieces x.size * 65536 }) else none)

/-- The requests that translated lanes make of one register, by ascending lot (R204), ready for their tag slots at sclk `now`. -/
def Flight.reqsOf (f : Flight) (chain : Nat → Xlat → Nat) (now j : Nat) (m : Mask) : List Req :=
  let lanes := (Mask.lanes m).flatMap (fun L =>
    ((f.paPaged j L).map (fun p => (L, p.1 / 256, p.2.1, p.2.2))).eraseDups)
  let add (acc : List Req) (y : Nat × Nat × Nat × Xlat) : List Req :=
    match y with
    | (L, lot, key, x) =>
      if acc.any (fun r => r.lot == lot) then
        acc.map (fun r => if r.lot = lot then { r with lanes := r.lanes ||| (1#32 <<< L) } else r)
      else
        acc.filter (fun r => decide (r.lot < lot)) ++ [⟨j, lot, 1#32 <<< L, chain lot x, false, 0, key, 0, none, 0, 0, .tag, now, 0, 0⟩] ++
          acc.filter (fun r => decide (lot < r.lot))
  lanes.foldl add []

/-- The chain of a lot's first tag slot: the own chain, or the home of a coherent lot (R197 to R199), but for `chain` (R209); 24 for
a peer's memory. -/
def State.firstChain (s : State) (a : Agent) (op : FlightOp) (lot : Nat) (x : Xlat) : Nat :=
  if inPeer (256 * lot) then 24
  else if x.cls = 2 && op != .chain then s.homeOf a.tract (256 * lot) 256
  else clusterOf a.core

/-- R312: `mon` refuses a tract-peer region; R211: `pin` refuses a bypass page, and a peer's (R252). -/
def FlightOp.refuses (op : FlightOp) (x : Xlat) : Bool :=
  match op with
  | .mon => inPeer x.pa
  | .pin => x.hint == 2 || inPeer x.pa
  | _ => false

/-- The words whose faulted lanes may be found after translation, and which keep their log entry until then (R204). -/
def FlightOp.lateFaults : FlightOp → Bool
  | .pin | .unpin | .lotwb | .lotdrop => true
  | _ => false

/-- R231, R233, R234: the lookups of one word end; `none` where a write waits for room in the dirty ring (R236). -/
def State.translateFlight (s : State) (f : Flight) : State × Flight :=
  let sp (priv : Bool) : Space := f.agent.space priv
  match f.pagesNeeded.foldl (fun (acc : State × Tbl XRes × List (Bool × Nat × Nat × Cause × Detail)) p =>
      let put (s : State) (r : XRes) : State × Tbl XRes × List (Bool × Nat × Nat × Cause × Detail) :=
        (s, Tbl.put acc.2.1 p.1 r, acc.2.2)
      match (acc.1.earlierFault f p.2.2 p.2.1).orElse (fun _ => spanOf acc.2.2 p.2.2 p.2.1), pageShared acc.2.1 p.2.2 p.2.1 with
      | some e, _ => put acc.1 (.bad e.1 e.2)
      | none, some r => put acc.1 r
      | none, none =>
        match acc.1.translate f.agent.core (sp p.2.2) f.op.need p.2.1 with
        | none => acc
        | some (s, .ok x) => put s (.ok x)
        | some (s, .bad c d) =>
          let span := s.pageSpan (clusterOf f.agent.core) (sp p.2.2) f.op.need c d p.2.1
          (s, Tbl.put acc.2.1 p.1 (.bad c d), acc.2.2 ++ [(p.2.2, span.1, span.2, c, d)])) (s, f.pages, f.spans) with
  | (s, pages, spans) =>
    let f := { f with pages := pages, spans := spans }
    let ls := Mask.lanes f.xlatL
    let waits (j L : Nat) : Bool := (f.pagesOf j L).any (fun p => (Tbl.find pages p.1).isNone)
    let bad (j : Nat) : List (Nat × Cause × Detail) := ls.filterMap (fun L =>
      (f.pagesOf j L).findSome? (fun p => match Tbl.find pages p.1 with
        | some (.bad c d) => some (L, c, d)
        | some (.ok x) => if f.op.refuses x then some (L, .permission, 0) else none
        | none => none))
    if f.op.isRun then
      let js := (List.range f.stop).filter (f.first ≤ ·)
      if js.any (fun j => ls.any (waits j)) then (s, f)
      else
        let f := match js.find? (fun j => !(bad j).isEmpty) with
          | some j => { f with stop := j, bad := collectBad (bad j) }
          | none => f
        let rs := ((List.range f.stop).filter (f.first ≤ ·)).flatMap (fun j =>
          f.reqsOf (s.firstChain f.agent f.op) (s.sclk false) j f.xlatL)
        (s, { f with reqs := f.reqs ++ rs, xlatL := 0,
                     localL := if f.first < f.stop then f.localL else 0, gangL := if f.first < f.stop then f.gangL else 0 })
    else
      let b := bad 0
      let m := Mask.ofPred (fun L => Mask.has f.xlatL L && !b.any (fun x => x.1 == L) && !waits 0 L)
      let w := Mask.ofPred (fun L => Mask.has f.xlatL L && waits 0 L)
      (s, { f with reqs := f.reqs ++ f.reqsOf (s.firstChain f.agent f.op) (s.sclk false) 0 m, xlatL := w, bad := f.bad ++ collectBad b })

/-- R234: the log entry of a word whose every lane has translated without fault is freed. -/
def State.freeEntry (s : State) (f : Flight) : State :=
  if f.xlatL = 0 && f.bad.isEmpty && !f.op.lateFaults then
    s.modStrand f.strand (fun st => { st with opLog := st.opLog.filter (fun e => e.flight != f.id) })
  else s

/-- R246: the space and the virtual address that a lane of `pgq` names. -/
def pgqVa (addr L : Nat) : Option (Bool × Nat) :=
  match addrKind addr with
  | 0 => some (false, addr)
  | 1 => let o := addr % 2 ^ 48; some (true, o / 4 * 128 + 4 * L + o % 4)
  | _ => none
/-- R246: what `pgq` answers in one lane. -/
def State.pgqValue (s : State) (a : Agent) (k : Access) (addr L : Nat) : Nat :=
  let fault (n : Nat) : Nat := 2 ^ 63 + n
  match pgqVa addr L with
  | none => fault 6
  | some (priv, va) =>
    match s.walkOnly (clusterOf a.core) (a.space priv) k va with
    | .error (c, _) =>
      fault (match c with
        | .notPresent => 1
        | .stage2 => 2
        | .permission => 3
        | .domain => 4
        | .remoteGone => 5
        | .poisonConsumed => 7
        | _ => 1)
    | .ok f =>
      let x := f.xlat (s.sharedSealed (a.space priv) f.pa) false
      let b (p : Bool) (n : Nat) : Nat := if p then 2 ^ n else 0
      b x.x 62 + b x.w 61 + x.size * 2 ^ 59 + bits f.leaf.value 6 6 * 2 ^ 57 + b x.file 56 + x.hint * 2 ^ 54 + x.cls * 2 ^ 52 +
        (f.pa / 65536 * 65536 + va % 65536)

/-- R231: a word's lookups end, with translations or faults. -/
def execTlbWalkComplete (flight : Nat) (s : State) : Out :=
  .next (match s.flight flight with
    | none => s
    | some f =>
      if f.xlatL = 0 || (s.flightsOf f.strand).any (fun g => g.pos < f.pos && g.xlatL != 0) then s
      else
        match f.op with
        | .pgq k =>
          let acc : Access := if k = 0 then .read else if k = 1 then .write else .fetch
          let g := (Mask.lanes f.xlatL).foldl (fun (g : Flight) L => g.setGot 0 L (s.pgqValue f.agent acc (f.at_ 0 L) L)) f
          let s := (Mask.lanes f.xlatL).foldl (fun (s : State) L =>
            match pgqVa (f.at_ 0 L) L with
            | some (priv, va) => s.useWalk (clusterOf f.agent.core) (f.agent.space priv) va
            | none => s) s
          (s.freeEntry { g with xlatL := 0 }).settleFlight { g with xlatL := 0 }
        | _ =>
          match s.translateFlight f with
          | (s, g) =>
            let s := (s.freeEntry g).settleFlight g
            if g.bad.length ≤ f.bad.length && g.stop = f.stop then s else s.failFlight g true)

/-! ### The bytes of a request -/

/-- The value of bytes, lowest address first (R4). -/
def bytesValue (l : List Byte) : Nat := l.foldr (fun b n => b.toNat + 256 * n) 0
/-- The bytes of a value at its addresses. -/
def valueBytes (v : Nat) (as : List Nat) : List (Nat × Byte) :=
  (List.range as.length).zip as |>.map (fun p => (p.2, BitVec.ofNat 8 (v / 256 ^ p.1)))

/-- The bytes of a big word that lie in a lot, with their place in its image. -/
def Flight.imageBytes (f : Flight) (L lot : Nat) : List (Nat × Nat) :=
  let as := f.paBytes 0 L
  ((List.range as.length).zip as).filter (fun p => p.2 / 256 == lot)
/-- What a big word reads of a lot. -/
def Flight.takeImage (f : Flight) (L lot : Nat) (byte : Nat → Byte) : Flight :=
  { f with image := (f.imageBytes L lot).foldl (fun n p => n + (byte p.2).toNat * 256 ^ p.1) f.image }
/-- What a big word writes of a lot. -/
def Flight.putImage (f : Flight) (L lot : Nat) : List (Nat × Byte) :=
  let l := f.imageBytes L lot
  let l := if f.op = .ctxSave then l.filter (fun p => ctxWritten f.image p.1) else l
  l.map (fun p => (p.2, BitVec.ofNat 8 (f.image / 256 ^ p.1)))

/-- R93: register `j` of lane `L` meets the strand's own stack region. -/
def Flight.inStack (f : Flight) (j L : Nat) : Bool :=
  let v := f.vaBytes j L
  v.1 && v.2.any (fun a => decide (stackVa ≤ a))
/-- R93: what register `j` of lane `L` finds at a physical byte whose content is `src`: in the stack region a value that the spec
leaves open (log entry 52), and zero in its last 128 bytes. -/
def Flight.byteFrom (f : Flight) (n j L : Nat) (src : Nat → Byte) (a : Nat) : Byte :=
  if !f.inStack j L then src a
  else
    match ((f.vaBytes j L).2.zip (f.paBytes j L)).find? (fun p => p.2 == a) with
    | some p => if p.1 < stackVa then src a else if stackVa + 32640 ≤ p.1 then 0 else Config.freeByte (n + p.1 % 256)
    | none => src a

/-- R304, R206, R195: a request is performed on memory, lane by lane; answers the lanes that read poison. -/
def State.performReq (s : State) (f : Flight) (r : Req) : State × Flight × Mask :=
  let n := s.fresh
  let all := (Mask.lanes r.lanes).flatMap (fun L => f.lotBytes r.reg L r.lot)
  let s := s.reveal all
  let s := if f.op.reads then s.checkGranules f.agent.core (s.slotOfStrand f.strand) all else s
  let s := if (Mask.lanes r.lanes).any (f.inStack r.reg) then { s with fresh := n + 256 } else s
  let step (acc : State × Flight × Mask × List (Nat × Byte)) (L : Nat) : State × Flight × Mask × List (Nat × Byte) :=
    match acc with
    | (s, f, bad, out) =>
      let as := f.lotBytes r.reg L r.lot
      if f.op.reads && as.any (fun a => s.poisoned a) then (s, f, bad ||| (1#32 <<< L), out)
      else if f.op.big then
        if f.op.writes then (s, f, bad, out ++ f.putImage L r.lot)
        else (s, f.takeImage L r.lot (f.byteFrom n 0 L s.byte), bad, out)
      else
        let old := bytesValue (as.map (f.byteFrom n r.reg L s.byte))
        let new := f.newValue r.reg L old
        let f := f.takeRead r.reg L old
        match new with
        | none => (s, f, bad, out)
        | some v =>
          if f.op.reads then (s.storeList (valueBytes v as), f, bad, out) else (s, f, bad, out ++ valueBytes v as)
  match (Mask.lanes r.lanes).foldl step (s, f, (0 : Mask), []) with
  | (s, f, bad, out) =>
    let s := s.storeList out
    (if f.op.writes then s.fireMonitors r.lot else s, f, bad)

/-- R198, R206: a load is served by the bytes of a leased copy. -/
def State.readCopy (s : State) (f : Flight) (r : Req) (data : List Byte) : State × Flight × Mask :=
  let n := s.fresh
  let s := s.checkGranules f.agent.core (s.slotOfStrand f.strand) ((Mask.lanes r.lanes).flatMap (fun L => f.lotBytes r.reg L r.lot))
  let s := if (Mask.lanes r.lanes).any (f.inStack r.reg) then { s with fresh := n + 256 } else s
  (s, (Mask.lanes r.lanes).foldl (fun (acc : Flight × Mask) L =>
    let as := f.lotBytes r.reg L r.lot
    let src (a : Nat) : Byte := data.getD (a % 256) 0
    if as.any (fun a => s.poisoned a) then (acc.1, acc.2 ||| (1#32 <<< L))
    else if f.op.big then (acc.1.takeImage L r.lot (f.byteFrom n 0 L src), acc.2)
    else (acc.1.takeRead r.reg L (bytesValue (as.map (f.byteFrom n r.reg L src))), acc.2)) (f, 0))

/-- The bytes that a store's request writes. -/
def Flight.storeBytes (f : Flight) (r : Req) : List (Nat × Byte) :=
  (Mask.lanes r.lanes).flatMap (fun L =>
    if f.op.big then f.putImage L r.lot
    else
      match f.newValue r.reg L 0 with
      | some v => valueBytes v (f.lotBytes r.reg L r.lot)
      | none => [])

/-! ### Leased copies -/

/-- A lot is a copy whose lease has expired; one that its home has still to fill is none. -/
def Lot.expired (l : Lot) (clock : BitVec 20) : Bool :=
  match l.place, l.copy with
  | .miss .., _ => false
  | _, some y => !y.fresh clock
  | _, none => false
/-- R198: an expired copy is dropped when it is touched.  A pin entry goes on naming the lot (log entry 12). -/
def State.dropExpired (s : State) (k lot : Nat) : State :=
  let c := s.cluster k
  match c.lot lot with
  | some l => if l.expired c.clock then s.setCluster k (c.dropLot lot) else s
  | none => s

/-- Bytes put over the bytes of a lot, in the order of the list. -/
def overlay (data : List Byte) (bs : List (Nat × Byte)) : List Byte := bs.foldl (fun d p => d.set (p.1 % 256) p.2) data
/-- R190: those of the stores that have joined a fill before place `n` in tag order. -/
def LeaseCopy.joined (y : LeaseCopy) (n : Nat) : List (Nat × Byte) :=
  (y.late.filter (fun p => decide (p.1 < n))).map (fun p => p.2)

/-- R263, R190: a store at place `n` in tag order is merged into the copy of its own cluster, or into the fill of one. -/
def State.mergeCopy (s : State) (k lot n : Nat) (bs : List (Nat × Byte)) : State :=
  let c := s.cluster k
  match c.lot lot with
  | some l =>
    match l.copy with
    | some y =>
      let y := match l.place with
        | .miss .. => { y with late := y.late ++ bs.map (fun p => (n, p)) }
        | _ => { y with data := overlay y.data bs }
      s.setCluster k (c.setLot lot { l with copy := some y })
    | none => s
  | none => s

/-- R182, R198: a store under a placing hint touches the copy of its own cluster, which stands like any other lot. -/
def State.touchCopy (s : State) (k lot : Nat) (a : Agent) (places stream : Bool) (part : Nat) : State :=
  let c := s.cluster k
  if places && (c.lot lot).any (fun l => l.dom == a.ident) then s.setCluster k (c.touch lot stream (s.sclk false) a.core part) else s

/-- The number of the copy that a cluster holds filled and under a valid lease; 0 for none. -/
def Cluster.copyNow (c : Cluster) (lot : Nat) : Nat :=
  match c.lot lot with
  | some l =>
    match l.place, l.copy with
    | .miss .., _ => 0
    | _, some y => if y.fresh c.clock then y.id else 0
    | _, none => 0
  | none => 0

/-- Puts an item in the order of its number. -/
def orderInsert {α : Type} (x : Nat × α) : List (Nat × α) → List (Nat × α)
  | [] => [x]
  | y :: r => if x.1 < y.1 then x :: y :: r else y :: orderInsert x r

/-- A request has still to be performed: it has not had its tag slot, was rejected, or is a store that waits for an earlier write of
its lot (R192, R499). -/
def Req.unperformed (r : Req) : Bool := r.phase == .tag || r.phase == .retry || (r.phase == .ack && r.wb != 0)
/-- R265: the stores of a cluster before place `n` in its chain's tag order that the home `h` of their lots has still to perform. -/
def State.storesBefore (s : State) (k h n : Nat) (lot : Option Nat) : Bool :=
  s.flights.any (fun g => clusterOf g.agent.core == k && g.op.writes && g.reqs.any (fun q =>
    q.away && q.order != 0 && q.order < n && q.chain == h && q.unperformed && lot.all (· == q.lot)))

/-- R263: the stores that copy `id` of a cluster holds merged, placed after `n` in tag order, and that the home has not performed
yet. -/
def State.ahead (s : State) (k lot id n : Nat) : List (Nat × Byte) :=
  ((s.flights.flatMap (fun g =>
    if clusterOf g.agent.core = k then
      (g.reqs.filter (fun q => q.lot == lot && q.copy == id && q.away && decide (n < q.order) && q.unperformed)).map
        (fun q => (q.order, g.storeBytes q))
    else [])).foldl (fun l x => orderInsert x l) []).flatMap (fun p => p.2)

/-- R198, R243, R257: copy `id` of the writer's own cluster is updated by a store at place `n` that the home has performed: it holds
the lot's bytes as the home has them now, and the cluster's stores still on their way (log entry 53). -/
def State.refreshCopy (s : State) (k lot id n : Nat) : State :=
  let c := s.cluster k
  match c.lot lot with
  | some l =>
    match l.place, l.copy with
    | .miss .., _ => s
    | _, some y =>
      if y.id = id then
        let data := overlay ((List.range 256).map (fun j => s.byte (256 * lot + j))) (s.ahead k lot id n)
        s.setCluster k (c.setLot lot { l with copy := some { y with data := data } })
      else s
    | _, none => s
  | none => s

/-- R243: copy `id` of a cluster takes the lease end that the home has answered. -/
def State.renewCopy (s : State) (k lot id : Nat) (stop : BitVec 20) : State :=
  let c := s.cluster k
  match c.lot lot with
  | some l =>
    match l.copy with
    | some y => if y.id = id then s.setCluster k (c.setLot lot { l with copy := some { y with stop := stop } }) else s
    | none => s
  | none => s

/-! ### A tag slot in one chain -/

/-- R182, R206, R499: the word would place a lot under a hint. -/
def FlightOp.places : FlightOp → Bool
  | .load _ _ p | .store _ p => p
  | .loadRun _ | .storeRun _ | .pref | .pin | .atom .. | .cas _ | .shapeLoad _ | .shapeStore _ | .mabort | .mres _ | .ctxSave
  | .ctxLoad => true
  | _ => false
/-- The hint of a page for a class: `(places, stream)` (R182, R201). -/
def placing (f : Flight) (x : Xlat) : Bool × Bool :=
  if x.hint = 2 then (f.op.places && x.cls == 2, true) else (f.op.places, x.hint == 1)

/-- A request whose answer moves the clock of its cluster by R243. -/
def Flight.leased (f : Flight) (r : Req) : Bool := (f.op.reads || f.op.writes) && (f.pageOf r).any (fun x => x.cls == 1)

/-- The request is the one that took the miss entry of the leased copy for which it waits. -/
def State.tookMiss (s : State) (r : Req) : Bool :=
  (((s.cluster r.chain).lot r.lot).bind Lot.copy).any (fun y => y.id == r.order && y.data.isEmpty)
/-- R198, R243: the home from which the pending fill of a leased lot reads, by the request that took its miss entry. -/
def State.fillHome (s : State) (f : Flight) (r : Req) : Option Nat :=
  if (r.phase == .fill || r.phase == .land) && r.order != 0 && s.tookMiss r then
    let h := s.homeOf f.agent.tract (256 * r.lot) 256
    if h = r.chain then none else some h
  else none
/-- R192: an aged request of sub-chain `i` of chain `k` waits whose first tag slot there was before `first`: of a word, of a leased
copy's fill, or of a copy engine. -/
def State.agedBefore (s : State) (k i : Nat) (first : Option DWord) : Bool :=
  let c := s.cluster k
  let before (t : Option DWord) : Bool := match t, first with
    | some a, some b => decide (a < b)
    | some _, none => true
    | none, _ => false
  s.flights.any (fun g => c.subFor g.agent.ident == i && g.reqs.any (fun q =>
    q.age ≥ 8 && before q.firstSlot && ((q.phase == .tag && q.chain == k) || s.fillHome g q == some k))) ||
  s.blocks.any (fun p => p.2.copy.reqs.any (fun q => c.subFor q.agent.ident == i && (match q.miss with
    | some (age, t, h) => age ≥ 8 && h == k && before (some t)
    | none => false)))
/-- R191, R192: the miss entry that a request may take in chain `k`: its kind; a rejection; or an aged request's wait. -/
inductive Entry where
  | free (reserved : Bool)
  | rejected
  | waits
  deriving DecidableEq, Repr
def State.entryAged (s : State) (ident : BitVec 12) (age : Nat) (first : Option DWord) (k : Nat) : Entry :=
  let c := s.cluster k
  let i := c.subFor ident
  match c.freeMiss i (age ≥ 8) with
  | some res => if age ≥ 8 && s.agedBefore k i first then .waits else .free res
  | none => if age ≥ 8 then .waits else .rejected
def State.entryFor (s : State) (f : Flight) (r : Req) (k : Nat) : Entry := s.entryAged f.agent.ident r.age r.firstSlot k

/-- The stamp and timestamps that a lot has while no chain holds it (R244, R267): for a private lot, also those kept at the hash
home of its frame (log entry 54). -/
def State.absentStamp (s : State) (f : Flight) (r : Req) (k : Nat) : BitVec 20 :=
  let m := (s.cluster k).mts
  if (f.pageOf r).any (fun x => x.cls == 0) then clockMax m (s.cluster (s.homeOf f.agent.tract (256 * r.lot) 65536)).mts else m

/-- R499: a store finds its lot in a write-back entry whose write has begun, and may not reclaim it: the writes it waits for. -/
def State.writeAhead (s : State) (f : Flight) (r : Req) (k : Nat) (place : Bool) : Option Nat :=
  let c := s.cluster k
  match c.lot r.lot, c.heldWb r.lot with
  | none, some w =>
    if f.op.writes && w.started && !(place && w.dom == f.agent.ident) then some (c.wbs.filter (fun x => x.lot == r.lot)).length else none
  | _, _ => none

/-- R194: a lot is reclaimed from its write-back entry.  A `lotwb` or `lotdrop` that waited for a write that is cancelled acts on the
lot when it lands (R213, log entry 56). -/
def State.reclaim (s : State) (k lot : Nat) (w : WriteBack) (core part : Nat) : State :=
  let c := s.cluster k
  let n := ((c.wbs.filter (fun x => x.lot == lot)).takeWhile (fun x => x != w)).length + 1
  let back (r : Req) : Req :=
    if r.chain = k && r.lot = lot && r.phase == .ack && n ≤ r.wb then { r with phase := .land, wb := 0 } else r
  let s := s.setCluster k (c.reclaim lot w (s.sclk false) core part)
  if w.started then s
  else { s with flights := s.flights.map (fun (f : Flight) =>
      if f.op == .lotwb || f.op == .lotdrop then { f with reqs := f.reqs.map back } else f) }

/-- R181 to R192, R194, R202, R499: how chain `k` serves a request for its lot; `none`: it waits.  The answer is where the request
goes on. -/
def State.serveAt (s : State) (f : Flight) (r : Req) (k : Nat) (place stream : Bool) : Option (State × Phase) :=
  let c := s.cluster k
  let S := s.sclk false
  let part := partOf f.strand
  let store := f.op.writes
  let put (c : Cluster) (p : Phase) : Option (State × Phase) :=
    some (s.setCluster k (if store then c.dirtied r.lot else c), p)
  match c.lot r.lot with
  | some l =>
    match l.place with
    | .miss _ _ _ _ _ => put c (if f.op.reads then .fill else .done)
    | .station _ => put (if place && l.dom == f.agent.ident then c.touch r.lot stream S f.agent.core part else c) .done
    | _ => put c .done
  | none =>
    match c.heldWb r.lot with
    | some w =>
      if place && w.dom == f.agent.ident then
        let s := s.reclaim k r.lot w f.agent.core part
        some (if store then s.setCluster k ((s.cluster k).dirtied r.lot) else s, .done)
      else put c .done
    | none =>
      if !place then some (s, if f.op.reads then .deliver else if store then .ack else .done)
      else
        match s.entryFor f r k with
        | .free res =>
          put (c.takeMiss r.lot f.agent.ident stream res S f.agent.core part (s.absentStamp f r k)) (if f.op.reads then .fill else .done)
        | .rejected => some (s, .retry)
        | .waits => none

/-- R267: a release at `.g`, `.d` or `.x` leaves its cluster's clock as the stamp of a lot; of one in no chain, at the frame's hash
home (log entry 54). -/
def State.stampLot (s : State) (f : Flight) (r : Req) (k : Nat) : State :=
  if f.release && stamps (s.scopeFor f.agent.core f.scope) then
    let s := s.observed f.agent.core (s.scopeFor f.agent.core f.scope)
    let now := (s.cluster (clusterOf f.agent.core)).clock
    let c := s.cluster k
    match c.lot r.lot with
    | some l => s.setCluster k (c.setLot r.lot { l with stamp := clockMax l.stamp now })
    | none =>
      let h := if (f.pageOf r).any (fun x => x.cls == 0) then s.homeOf f.agent.tract (256 * r.lot) 65536 else k
      let c := s.cluster h
      s.setCluster h { c with mts := clockMax c.mts now }
  else s
/-- R267: the stamp of a request's lot at a chain. -/
def State.stampOf (s : State) (f : Flight) (r : Req) (k : Nat) : BitVec 20 :=
  match (s.cluster k).lot r.lot with
  | some l => l.stamp
  | none => s.absentStamp f r k

/-- A request goes on in a new form; its register and its lot name it. -/
def Flight.setReq (f : Flight) (r q : Req) : Flight :=
  { f with reqs := f.reqs.map (fun x => if x.reg = r.reg && x.lot = r.lot then q else x) }
/-- The request goes on in phase `p`, where it is. -/
def State.setPhase (s : State) (f : Flight) (r : Req) (p : Phase) : State := s.settleFlight (f.setReq r { r with phase := p })
/-- The request goes on to chain `k` for its next tag slot (R197, R199). -/
def State.passOn (s : State) (f : Flight) (r : Req) (k : Nat) : State :=
  s.settleFlight (f.setReq r
    { r with phase := .tag, chain := k, away := k != clusterOf f.agent.core, since := s.sclk false })

/-- R266, R268, R243: a request is done: the cluster's clock takes what its answer carries, and the word may complete. -/
def State.reqDone (s : State) (f : Flight) (r : Req) (leased : Bool) : State :=
  let s := if leased then s.raiseClock (clusterOf f.agent.core) r.stamp else s
  let s := s.acquireStamp f r.stamp
  s.settleFlight (f.setReq r { r with phase := .done })

/-- The end of a request's service at chain `k`: performed lanes recorded, poison reported. -/
def State.served (s : State) (f : Flight) (r : Req) (k : Nat) (p : Phase) (bad : Mask) (leased : Bool) : State :=
  let far := k != clusterOf f.agent.core
  let p := if p == .done && far then .reply else p
  let g := f.failAt r.reg .poisonConsumed bad 0
  let place := 256 * r.lot + 32 * (((List.range 8).find? (fun j => s.poisoned (256 * r.lot + 32 * j))).getD 0)
  let s := if bad = 0 then s else s.countPoison f.agent.core (s.slotOfStrand f.strand) (s.lotUnit place) place
  let s := if p == .done then s.reqDone g r leased else s.settleFlight (g.setReq r { r with phase := p })
  if bad = 0 then s else s.failFlight g false

/-- R243: a home's timestamps of a lot. -/
def Cluster.stamps (c : Cluster) (lot : Nat) : BitVec 20 × BitVec 20 :=
  match c.lot lot with
  | some l => (l.wts, l.rts)
  | none => (c.mts, c.mts)
def Cluster.setStamps (c : Cluster) (lot : Nat) (w r : BitVec 20) : Cluster :=
  match c.lot lot with
  | some l => c.setLot lot { l with wts := w, rts := r }
  | none => { c with mts := clockMax (clockMax c.mts w) r }

/-- R243: a read, and then a write, at the home by a cluster whose clock is `c`: lease end and the clock that the cluster takes. -/
def State.leaseAt (s : State) (home lot : Nat) (c : BitVec 20) (lease : Nat) (reads writes : Bool) :
    State × BitVec 20 × BitVec 20 :=
  let h := s.cluster home
  let lp : BitVec 20 := BitVec.ofNat 20 lease
  match h.stamps lot with
  | (w, r) =>
    let e := if reads then clockMax r (c + lp) else r
    let clock := if reads then clockMax c w else c
    if writes then
      let w := clockMax clock (e + 1)
      (s.setCluster home (h.setStamps lot w (w + lp)), w + lp, w)
    else (s.setCluster home (h.setStamps lot w e), e, clock)

/-! ### Lent lots -/

/-- The sub-chain of chain `k` that serves a gang's domain, by the gang's tag (R179). -/
def State.subOfGang (s : State) (k : Nat) (tag : BitVec 13) : Nat :=
  match s.gang tag with
  | some g => (s.cluster k).subFor g.ident
  | none => 0
/-- A lot goes from chain `a` to chain `b` as `l`, or, where chain `a` holds it no more, what belongs to it alone: its writes, its pins,
the requests that wait for it and its monitors (R210, R306, R312), be they more than the chain has entries for (R284: DESIGN CHOICE, log
entry 47). -/
def State.moveLot (s : State) (a b lot : Nat) (l : Option Lot) : State :=
  let c := s.cluster a
  let wbs := c.wbs.filter (fun w => w.lot == lot)
  let pins := (c.pins.filter (fun p => p.lot == lot)).map (fun p => { p with sub := s.subOfGang b p.tag })
  let s := s.setCluster a { c.dropLot lot with
    wbs := c.wbs.filter (fun w => w.lot != lot), pins := c.pins.filter (fun p => p.lot != lot) }
  let d := s.cluster b
  let s := s.setCluster b { (match l with | some l => d.setLot lot l | none => d) with wbs := d.wbs ++ wbs, pins := d.pins ++ pins }
  { s with
    flights := s.flights.map (fun f => { f with reqs := f.reqs.map (fun r =>
      if r.lot = lot && r.chain = a && (r.phase == .fill || r.phase == .land || r.phase == .ack) then { r with chain := b } else r) })
    strands := s.strands.map (fun p =>
      match p.2.monitor with
      | some m => if m.lot = lot && m.chain = a then (p.1, { p.2 with monitor := some { m with chain := b } }) else p
      | none => p) }

/-- R306: the locality predictor sees an access at the home of a coherent lot, and may lend the lot. -/
def State.predict (s : State) (f : Flight) (home lot : Nat) : State :=
  let c := s.cluster home
  let atomic := match f.op with
    | .atom .. | .cas _ => true
    | _ => false
  let S := s.sclk false
  let core := f.agent.core
  let old := Tbl.find c.watch lot
  let same := match old with
    | some w => w.core == core
    | none => false
  if !atomic then
    if same || old.isNone then s else s.setCluster home { c with watch := Tbl.del c.watch lot }
  else
    let n := match old with
      | some w => if w.core = core && S ≤ w.last + 1024 then w.count + 1 else 1
      | none => 1
    let c := { c with watch := Tbl.put c.watch lot ⟨core, n, S⟩ }
    let k := clusterOf core
    match c.lot lot with
    | some l =>
      let still := match l.place with
        | .miss _ _ _ _ _ => false
        | _ => true
      if n ≥ 4 && k ≠ home && c.lent.length < 64 && still && !c.pinned lot then
        (s.setCluster home { c with lent := Tbl.put c.lent lot k }).moveLot home k lot
          (some { l with place := .arrived false S S core (partOf f.strand), sub := (s.cluster k).subFor l.dom })
      else s.setCluster home c
    | none => s.setCluster home c

/-- The core to which a home has lent a lot is the one its predictor watched. -/
def Cluster.borrower (c : Cluster) (lot : Nat) : Option Nat := (Tbl.find c.watch lot).map Watch.core

/-- R199, R306: a lent lot goes back to its home, as a keep fill (log entry 55). -/
def State.returnLent (s : State) (home lot : Nat) : State :=
  let h := s.cluster home
  match Tbl.find h.lent lot with
  | none => s
  | some b =>
    let S := s.sclk false
    let s := s.setCluster home { h with lent := Tbl.del h.lent lot, watch := Tbl.del h.watch lot }
    let c := s.cluster b
    match c.lot lot with
    | some l =>
      let place := match l.place with
        | .miss .. => l.place
        | _ => .arrived false S S 0 0
      (s.moveLot b home lot (some { l with place := place, sub := (s.cluster home).subFor l.dom })).pruneHolders b
    | none =>
      match c.heldWb lot with
      | some w =>
        let s := s.reclaim b lot w 0 0
        s.moveLot b home lot (((s.cluster b).lot lot).map (fun l => { l with sub := (s.cluster home).subFor w.dom }))
      | none => s.moveLot b home lot none

/-- The coherent lot of a request is lent to another core than its own (R199, R306). -/
def State.lentAway (s : State) (f : Flight) (r : Req) (x : Xlat) : Bool :=
  let h := s.cluster (s.homeOf f.agent.tract (256 * r.lot) 256)
  x.cls == 2 && (Tbl.find h.lent r.lot).isSome && h.borrower r.lot != some f.agent.core

/-! ### The three classes -/

/-- R192, R499: a request takes its tag slot at chain `k`: it is to be performed and goes on (`.inr`), or it is not (`.inl`).
A `pref` of a coherent bypass page places as on a stream page (R201, R208: DESIGN CHOICE, log entry 74). -/
def State.enterAt (s : State) (f : Flight) (r : Req) (x : Xlat) (k : Nat) : State ⊕ (State × Phase) :=
  match s.writeAhead f r k (placing f x).1 with
  | some n => .inl (s.settleFlight (f.setReq r { r with phase := .ack, chain := k, wb := n }))
  | none =>
    match s.serveAt f r k (placing f x).1 (placing f x).2 with
    | none => .inl s
    | some (s, .retry) =>
      .inl (s.settleFlight (f.setReq r { r with phase := .retry, chain := k, firstSlot := some (r.firstSlot.getD s.dclk) }))
    | some (s, p) => .inr (s, if f.op == .pref && (placing f x).1 then .land else p)

/-- A store or load is performed at chain `k` on memory, with the stamps of R267 and R268. -/
def State.accessAt (s : State) (f : Flight) (r : Req) (x : Xlat) (k : Nat) : State :=
  match s.enterAt f r x k with
  | .inl s => s
  | .inr (s, p) =>
    match s.performReq f r with
    | (s, f, bad) =>
      let q := { r with stamp := s.stampOf f r k, chain := k }
      (s.stampLot f q k).served (f.setReq r q) q k p bad false

/-- R197: a private lot.  A request at a chain that is no longer the holder's goes on to the holder, or back to its own chain. -/
def State.slotPrivate (s : State) (f : Flight) (r : Req) (x : Xlat) : State :=
  let k := clusterOf f.agent.core
  let frame := r.lot / 256
  if !r.away && (s.cluster k).holds r.lot then s.accessAt f r x k
  else
    match Tbl.find s.holders frame with
    | some h => if h = r.chain then s.accessAt f r x h else s.passOn f r h
    | none =>
      if r.away then s.passOn f r k
      else
        let s := if (placing f x).1 && (s.entryFor f r k matches .free _) then { s with holders := Tbl.put s.holders frame k } else s
        s.accessAt f r x k

/-- R199, R306: a coherent lot at its home, or in the chain that borrowed it. -/
def State.slotCoherent (s : State) (f : Flight) (r : Req) (x : Xlat) : State :=
  let home := s.homeOf f.agent.tract (256 * r.lot) 256
  match Tbl.find (s.cluster home).lent r.lot with
  | some b => if s.lentAway f r x then s else if b = r.chain then s.accessAt f r x b else s.passOn f r b
  | none =>
    if r.chain ≠ home then s.passOn f r home
    else
      match s.enterAt f r x home with
      | .inl t => t
      | .inr _ => (s.accessAt f r x home).predict f home r.lot

/-- R198, R243, R263, R265: a leased lot at its home. -/
def State.homeLeased (s : State) (f : Flight) (r : Req) (x : Xlat) (home : Nat) : State :=
  match s.enterAt f r x home with
  | .inl s => s
  | .inr (s, p) =>
    let k := clusterOf f.agent.core
    match s.performReq f r with
    | (s, f, bad) =>
      match s.leaseAt home r.lot (s.cluster k).clock x.lease f.op.reads f.op.writes with
      | (s, stop, clock) =>
        let id := if k = home then 0 else if f.op.reads then (s.cluster k).copyNow r.lot else r.copy
        let q := { r with stop := stop, stamp := clock, chain := home, copy := if f.op.writes then id else 0 }
        let s := if f.op.writes && id ≠ 0 then s.refreshCopy k r.lot id r.order else s
        s.served (f.setReq r q) q home p bad true

/-- R189, R192, R198: a leased lot misses in its own cluster's chain: its request takes a miss entry, at the next place in tag
order, and goes on in phase `p`. -/
def State.missCopy (s : State) (f : Flight) (r : Req) (k : Nat) (stream : Bool) (p : Phase) : State :=
  match s.entryFor f r k with
  | .waits => s
  | .rejected => s.settleFlight (f.setReq r { r with phase := .retry, chain := k, firstSlot := some (r.firstSlot.getD s.dclk) })
  | .free res =>
    let n := s.nextOrder
    let c := (s.cluster k).takeMiss r.lot f.agent.ident stream res (s.sclk false) f.agent.core (partOf f.strand) (s.cluster k).mts
    let c := match c.lot r.lot with
      | some l => c.setLot r.lot { l with copy := some ⟨0, [], n, []⟩ }
      | none => c
    ({ s.setCluster k c with nextOrder := n + 1 }).settleFlight (f.setReq r
      { r with phase := p, chain := k, order := n, age := 0, firstSlot := none, since := s.sclk false })

/-- R198: a leased lot. -/
def State.slotLeased (s : State) (f : Flight) (r : Req) (x : Xlat) : State :=
  let k := clusterOf f.agent.core
  let home := s.homeOf f.agent.tract (256 * r.lot) 256
  if r.away || k = home then s.homeLeased f r x home
  else
    let s := s.dropExpired k r.lot
    let c := s.cluster k
    let n := s.nextOrder
    let goHome (s : State) (order copy : Nat) : State := s.settleFlight (f.setReq r
      { r with chain := home, away := true, order := order, copy := copy, since := s.sclk false })
    let t : State := { s with nextOrder := n + 1 }
    if f.op == .pref && !(placing f x).1 then s.served f r k .done 0 false
    else if f.op.writes && !f.op.reads then
      match (c.lot r.lot).bind Lot.copy with
      | some y => goHome ((t.mergeCopy k r.lot n (f.storeBytes r)).touchCopy k r.lot f.agent (placing f x).1 (placing f x).2 (partOf f.strand)) n y.id
      | none => goHome t n 0
    else if f.op.writes || (f.acquire && stamps f.scope) then goHome t n 0
    else
      match c.lot r.lot with
      | none => if (placing f x).1 then s.missCopy f r k (placing f x).2 .fill else goHome t n 0
      | some l =>
        match l.place, l.copy with
        | .miss .., _ => t.settleFlight (f.setReq r { r with phase := .fill, order := n })
        | _, none => goHome t n 0
        | _, some y =>
          let c := if (placing f x).1 && l.dom == f.agent.ident then
              c.touch r.lot (placing f x).2 (s.sclk false) f.agent.core (partOf f.strand) else c
          match (s.setCluster k c).readCopy f r y.data with
          | (s, g, bad) => s.served g r k (if f.op == .pref && (placing f x).1 then .land else .done) bad false

/-! ### The words on lots -/

/-- R209: the state of a lot as `chain` reports it in the cluster of the issuing core.  STATE 3 names the hash home of a leased lot, and no
other cluster that holds a copy (DESIGN CHOICE, log entry 74). -/
def State.chainWord (s : State) (a : Agent) (lot cls : Nat) : Nat :=
  let k := clusterOf a.core
  let c := s.cluster k
  let b (p : Bool) (n : Nat) : Nat := if p then 2 ^ n else 0
  let st (n : Nat) : Nat := n * 2 ^ 28
  match c.lot lot with
  | some l =>
    let sub := l.sub * 2 ^ 21
    match l.place with
    | .station p =>
      let at_ := ringOf p * 2 ^ 16 + p
      if l.expired c.clock then st 4 + b l.dirty 24 + sub + at_ else b l.dirty 24 + b (c.pinned lot) 23 + sub + at_
    | .moving _ _ _ ready _ _ _ ended => st 1 + b l.dirty 24 + sub + (if ended then 0 else ready - s.sclk false)
    | .arrived _ _ _ _ _ => st 1 + b l.dirty 24 + sub
    | .miss _ _ _ _ _ => st 6 + b (l.dirty || l.copy.any (fun y => !y.late.isEmpty)) 24 + sub
  | none =>
    if (c.heldWb lot).isSome then st 5 + 2 ^ 24
    else
      let h := match cls with
        | 0 => Tbl.find s.holders (lot / 256)
        | 1 => some (s.homeOf a.tract (256 * lot) 256)
        | _ => some (s.holdingChain a.tract a.core lot 2)
      match h with
      | some h => if h != k && (s.cluster h).holds lot then st 3 + h else st 2
      | none => st 2

/-- R210 to R212: a lot that stands still is pinned for a gang, where there is `room` for a new entry; `none`: PIN_QUOTA. -/
def Cluster.pin (c : Cluster) (lot sub : Nat) (tag : BitVec 13) (room : Bool) : Option Cluster :=
  match c.pins.find? (fun p => p.lot == lot && p.tag == tag) with
  | some p =>
    if p.count = 255 then none
    else some { c with pins := c.pins.map (fun q => if q = p then { q with count := q.count + 1 } else q) }
  | none => if room then some { c with pins := c.pins ++ [⟨lot, tag, sub, 1⟩] } else none
/-- R210: the pin entries that chain `k` has to find room for, by sub-chain: its own, and those of the lots that it has lent, which come
back with them (log entry 55). -/
def State.pinSubs (s : State) (k : Nat) : List Nat :=
  let h := s.cluster k
  h.pins.map Pin.sub ++ h.lent.flatMap (fun p =>
    ((s.cluster p.2).pins.filter (fun q => q.lot == p.1)).map (fun q => s.subOfGang k q.tag))
/-- R211: a new pin entry of sub-chain `i` has room in chain `k`. -/
def State.pinRoomAt (s : State) (k i : Nat) : Bool :=
  let l := s.pinSubs k
  decide (l.length < 2048) && decide ((l.filter (· == i)).length < (s.cluster k).quota i)
/-- R211: the same for a lot of a domain that stands in chain `k`, in its home too where it has been lent. -/
def State.pinRoom (s : State) (k home lot : Nat) (dom : BitVec 12) : Bool :=
  s.pinRoomAt k ((s.cluster k).subFor dom) &&
  (home = k || (Tbl.find (s.cluster home).lent lot).isNone || s.pinRoomAt home ((s.cluster home).subFor dom))
def Cluster.unpin (c : Cluster) (lot : Nat) (tag : BitVec 13) : Cluster :=
  { c with pins := c.pins.filterMap (fun p =>
      if p.lot = lot && p.tag = tag then (if p.count ≤ 1 then none else some { p with count := p.count - 1 }) else some p) }

/-- A request of a lot word ends with its lanes performed, or with its lanes failing. -/
def State.lotEnd (s : State) (f : Flight) (r : Req) (k : Nat) : State := s.served f r k .done 0 false
def State.lotFail (s : State) (f : Flight) (r : Req) (c : Cause) : State :=
  let g := (f.setReq r { r with phase := .done }).fail c r.lanes 0
  (s.settleFlight g).failFlight g true

/-- R213, R194: a dirty lot's write, which begins once every earlier write of the lot has been acknowledged; answers how many
acknowledgements its word waits for. -/
def Cluster.writeBack (c : Cluster) (lot : Nat) (l : Lot) : Cluster × Nat :=
  let n := (c.wbs.filter (fun w => w.lot == lot)).length
  let c := if n = 0 then c.setLot lot { l with stored := false } else c
  ({ c with wbs := c.wbs ++ [⟨lot, l.sub, n == 0, false, false, l.dom⟩] }, n + 1)

/-- R211, R213: the chain in which a lot word acts: a leased lot is written back or removed in its own cluster's chain where a copy
is held, and at its home where none is (log entry 56). -/
def State.lotChain (s : State) (f : Flight) (lot cls : Nat) : Nat :=
  let k := s.holdingChain f.agent.tract f.agent.core lot cls
  if cls = 1 && (f.op == .lotwb || f.op == .lotdrop) && !(s.cluster k).holds lot then s.homeOf f.agent.tract (256 * lot) 256 else k

/-- R211: `pin` brings in a lot that is absent, and goes on when the fill has landed. -/
def State.pinMiss (s : State) (f : Flight) (r : Req) (x : Xlat) (k : Nat) : State :=
  if x.cls = 1 && k ≠ s.homeOf f.agent.tract (256 * r.lot) 256 then s.missCopy f r k (x.hint == 1) .land
  else
    match s.serveAt { f with op := .pref } r k true (x.hint == 1) with
    | none => s
    | some (s, .retry) =>
      s.settleFlight (f.setReq r { r with phase := .retry, chain := k, firstSlot := some (r.firstSlot.getD s.dclk) })
    | some (s, _) =>
      let s := if x.cls = 0 && (Tbl.find s.holders (r.lot / 256)).isNone then { s with holders := Tbl.put s.holders (r.lot / 256) k } else s
      s.settleFlight (f.setReq r { r with phase := .land, chain := k })

/-- R211 to R213, R202: `pin`, `unpin`, `lotwb` or `lotdrop` on a lot that chain `k` holds. -/
def State.lotAt (s : State) (f : Flight) (r : Req) (x : Xlat) (k : Nat) (l : Lot) : State :=
  let c := s.cluster k
  let wait (s : State) : State := s.settleFlight (f.setReq r { r with phase := .land, chain := k })
  let write : State := match c.writeBack r.lot l with
    | (c, n) => (s.setCluster k c).settleFlight (f.setReq r { r with phase := .ack, chain := k, wb := n })
  if l.dom ≠ f.agent.ident then s.lotFail f r .domain
  else if f.op = .unpin then (s.setCluster k (c.unpin r.lot f.agent.gang)).lotEnd f r k
  else
    match l.place with
    | .station _ =>
      if f.op = .pin then
        let c := if r.phase == .land then c else c.touch r.lot (x.hint == 1) (s.sclk false) f.agent.core (partOf f.strand)
        match (c.lot r.lot).map Lot.place with
        | some (.station _) =>
          match c.pin r.lot l.sub f.agent.gang (s.pinRoom k (s.homeOf f.agent.tract (256 * r.lot) 256) r.lot l.dom) with
          | some c => (s.setCluster k c).lotEnd f r k
          | none => s.lotFail f r .pinQuota
        | _ => wait (s.setCluster k c)
      else if l.dirty then write
      else if f.op = .lotdrop then
        let home := s.homeOf f.agent.tract (256 * r.lot) 256
        if c.pinned r.lot then s.lotEnd f r k
        else if x.cls = 2 && k ≠ home then (s.returnLent home r.lot).lotEnd f r k
        else (s.updateCluster k (if l.copy.isSome then c.dropLot r.lot else c.evict r.lot l)).lotEnd f r k
      else s.lotEnd f r k
    | _ => wait s

/-- R211 to R213, R202: a tag slot of `pin`, `unpin`, `lotwb` or `lotdrop`, in the chain that holds the lot. -/
def State.slotLot (s : State) (f : Flight) (r : Req) (x : Xlat) : State :=
  let k := s.lotChain f r.lot x.cls
  if s.lentAway f r x then (if r.phase == .tag then s else s.passOn f r (s.homeOf f.agent.tract (256 * r.lot) 256))
  else if r.chain ≠ k then s.passOn f r k
  else
    let s := if f.op == .pin && r.phase == .tag then s.dropExpired k r.lot else s
    let c := s.cluster k
    match c.lot r.lot with
    | some l => s.lotAt f r x k l
    | none =>
      let held := c.heldWb r.lot
      if held.any (fun w => w.dom != f.agent.ident) then s.lotFail f r .domain
      else
        match f.op with
        | .pin => s.pinMiss f r x k
        | .unpin => (s.setCluster k (c.unpin r.lot f.agent.gang)).lotEnd f r k
        | _ =>
          if held.isSome then s.settleFlight (f.setReq r
            { r with phase := .ack, chain := k, wb := (c.wbs.filter (fun x => x.lot == r.lot)).length })
          else s.lotEnd f r k

/-- R215: the HBM4E stack of a lot. -/
def stackOfLot (lot : Nat) : Nat :=
  let w := 256 * lot / 0x60_0000_0000
  6 * w + 256 * lot % 0x60_0000_0000 / 8192 % 6

/-- R312, R284: registers the strand's monitor at the lot's point of performance: a chain, or the memory controller of its stack, as
24 and the stack (log entry 57). -/
def State.slotMon (s : State) (f : Flight) (r : Req) (x : Xlat) : State :=
  let k := s.holdingChain f.agent.tract f.agent.core r.lot (if x.cls = 1 then 2 else x.cls)
  let k := if x.hint = 2 && !(s.cluster k).holds r.lot then 24 + stackOfLot r.lot else k
  let used := (s.strands.filter (fun p => p.1 != f.strand && (match p.2.monitor with
    | some m => m.chain == k && !m.lost
    | none => false))).length
  let full := used ≥ (if k ≥ 24 then 64 else 256)
  (s.modStrand f.strand (fun st => { st with monitor := some ⟨r.lot, k, false, full⟩ })).lotEnd f r (clusterOf f.agent.core)

/-- R241: the stores of the list are lost to their strands. -/
def State.loseStore (s : State) (p : PeerStore) : State :=
  s.modStrand p.strand (fun st => { st with lost := st.lost + BitVec.ofNat 32 p.lanes, lostPeer := BitVec.ofNat 8 p.peer })

/-- R252, R241: a request to a peer's memory leaves for the peer; a store is lost at once where the peer is gone.  Each lane of it counts
as one store (DESIGN CHOICE, log entry 74). -/
def State.slotPeer (s : State) (f : Flight) (r : Req) : State :=
  match f.op with
  | .store .. | .storeRun _ | .shapeStore _ | .mabort | .ctxSave =>
    let p : PeerStore := ⟨s.nextOrder, f.strand, f.agent.tract, peerOf (256 * r.lot), Mask.count r.lanes, f.agent.launch, f.agent.gang, f.pos, none⟩
    -- R451: the ports of a tract that is being torn down have stopped
    if s.peerUp f.agent.tract (256 * r.lot) && !s.teardowns.contains f.agent.tract then
      ({ s with peerStores := s.peerStores ++ [p], nextOrder := s.nextOrder + 1 }).reqDone f r false
    else (s.loseStore p).reqDone f r false
  | .load .. | .loadRun _ | .atom .. | .cas _ | .shapeLoad _ | .mres _ | .ctxLoad => s.setPhase f r .reply
  | .chain => let g := (Mask.lanes r.lanes).foldl (fun (g : Flight) L => g.setGot 0 L (2 * 2 ^ 28)) f
    s.reqDone g r false
  | _ => s.reqDone f r false

/-! ### Whose turn it is -/

/-- The request of a flight whose turn it is for a lot: the first in register order that waits for a slot there. -/
def Flight.dueReq (f : Flight) (lot : Nat) : Option Req :=
  f.reqs.find? (fun r => r.lot == lot && (r.phase == .tag || r.phase == .land))

/-- R204, R207, R211: the requests of the word before this one have had their tag slots, or, for `pin`, are done. -/
def Flight.inTurn (f : Flight) (r : Req) : Bool :=
  (f.reqs.takeWhile (fun q => q != r)).all (fun q =>
    if f.op == .pin then q.phase == .done else q.phase != .tag && q.phase != .retry)

/-- A request waits at its chain: an aged miss for its entry (R192), an access for the recall of a lent lot (R199), a leased access
at the home for the fill that its own cluster asked for before it (R190). -/
def State.waitsAtChain (s : State) (f : Flight) (r : Req) : Bool :=
  let k := clusterOf f.agent.core
  match f.pageOf r with
  | none => false
  | some x =>
    (r.age ≥ 8 && r.chain < 24 && (placing f x).1 && !(s.cluster r.chain).holds r.lot && s.entryFor f r r.chain == .waits) ||
    (r.phase == .tag && s.lentAway f r x && f.op != .chain && f.op != .mon) ||
    (x.cls == 1 && r.away && r.order != 0 && (match (s.cluster k).lot r.lot with
      | some l => (match l.place, l.copy with
          | .miss .., some y => decide (y.id < r.order)
          | _, _ => false)
      | none => false))

/-- R204, R205, R207, R257, R258, R265: what a request has to wait for before it can take its tag slot, but for a port-slot. -/
def State.slotDue (s : State) (f : Flight) (r : Req) : Bool :=
  f.inTurn r &&
  (s.flightsOf f.strand).all (fun g => f.pos ≤ g.pos || g.reqs.all (fun q =>
    q.lot != r.lot || !(q.phase == .tag || q.phase == .retry || (g.op.writes && q.unperformed)))) &&
  s.mayPerform f &&
  (!r.away || r.order = 0 ||
    !s.storesBefore (clusterOf f.agent.core) r.chain r.order (if f.op.writes then none else some r.lot)) &&
  !s.waitsAtChain f r

/-- R181: the rank of a request among those that wait for tag slots: the sclk at which it became ready, and keys 3 to 5 of R184. -/
def State.slotKey (s : State) (f : Flight) (r : Req) : List Nat :=
  r.since :: tieKey r.chain (s.sclk false) r.lot r.since r.since f.agent.core (partOf f.strand)

/-- R181, R200: the same for the read of a leased copy's fill at its home. -/
def State.fillKey (s : State) (f : Flight) (r : Req) (home : Nat) : List Nat :=
  r.since :: tieKey home (s.sclk false) r.lot r.since r.since f.agent.core (partOf f.strand)
/-- R265, R190: the read of a fill may be made at the home: the stores that its cluster sent there before are performed. -/
def State.fillDue (s : State) (r : Req) (home : Nat) : Bool :=
  match ((s.cluster r.chain).lot r.lot).bind Lot.copy with
  | some y => y.data.isEmpty && !s.storesBefore r.chain home y.id (some r.lot)
  | none => false
/-- R181, R187: sub-chain `i` of chain `k` has a port-slot left in this clk, and no lookup that waits there is ranked before `key`. -/
def State.portFor (s : State) (k i : Nat) (key : List Nat) : Bool :=
  let c := s.cluster k
  decide (0 < c.portsLeft i (s.sclk false)) &&
  s.flights.all (fun g => c.subFor g.agent.ident != i || g.reqs.all (fun q =>
    !(q.phase == .tag && q.chain == k && keyLt (s.slotKey g q) key && s.slotDue g q) &&
    !(s.fillHome g q == some k && keyLt (s.fillKey g q k) key && s.fillDue q k)))
/-- R181, R187: the request's turn in its sub-chain's tag stage. -/
def State.portFree (s : State) (f : Flight) (r : Req) : Bool :=
  s.portFor r.chain ((s.cluster r.chain).subFor f.agent.ident) (s.slotKey f r)

/-- R181: a request may take its tag slot, or, once it has had it, act on the lot for whose landing it waits. -/
def State.slotReady (s : State) (f : Flight) (r : Req) : Bool :=
  s.slotDue f r && (r.phase == .land || 24 ≤ r.chain || s.portFree f r)

/-- R187: the tag lookup that a request makes. -/
def State.lookup (s : State) (f : Flight) (r : Req) : State :=
  if r.phase == .land || 24 ≤ r.chain then s
  else
    let c := s.cluster r.chain
    s.setCluster r.chain (c.lookedUp (c.subFor f.agent.ident) (s.sclk false))

/-- A request that has had its tag slot is done once its lot has landed (R208). -/
def State.landed (s : State) (f : Flight) (r : Req) : State :=
  match (s.cluster r.chain).lot r.lot with
  | some l =>
    match l.place with
    | .station _ => s.served f r r.chain .done 0 false
    | _ => s
  | none => s.served f r r.chain .done 0 false

/-- What a request does at its turn, on a page of translation `x`. -/
def State.slotOn (s : State) (f : Flight) (r : Req) (x : Xlat) : State :=
  if inPeer (256 * r.lot) then s.slotPeer f r
  else
    match f.op with
    | .pin | .unpin | .lotwb | .lotdrop => s.slotLot f r x
    | .mon => s.slotMon f r x
    | .chain =>
      let g := (Mask.lanes r.lanes).foldl (fun (g : Flight) L => g.setGot 0 L (s.chainWord f.agent r.lot x.cls)) f
      s.reqDone g r false
    | _ =>
      if r.phase == .land then s.landed f r
      else
        match x.cls with
        | 0 => s.slotPrivate f r x
        | 1 => s.slotLeased f r x
        | _ => s.slotCoherent f r x

/-- R181: an access takes its tag slot. -/
def execTagSlot (flight lot : Nat) (s : State) : Out :=
  .next (match s.flight flight with
    | none => s
    | some f =>
      match f.dueReq lot with
      | none => s
      | some r =>
        match f.pageOf r with
        | none => s
        | some x => if s.slotReady f r then (s.lookup f r).slotOn f r x else s)

/-! ### What ends a request -/

/-- Every flight's requests of a chain and lot in a phase. -/
def State.waiting (s : State) (chain lot : Nat) (p : Phase) : List (Nat × Req) :=
  s.flights.flatMap (fun f => (f.reqs.filter (fun r => r.chain == chain && r.lot == lot && r.phase == p)).map (fun r => (f.id, r)))

/-- R198, R243, R200: a leased copy takes its bytes and its lease from the home, at a tag slot there, for the first request that waits
for it; `none`: it has to wait, or was rejected and is older (R192). -/
def State.fillCopy (s : State) (f : Flight) (r : Req) (chain lot : Nat) : State × Option (BitVec 20 × BitVec 20 × List Byte) :=
  match f.pageOf r with
  | none => (s, none)
  | some x =>
    let home := s.homeOf f.agent.tract (256 * lot) 256
    let i := (s.cluster home).subFor f.agent.ident
    if !s.fillDue r home || !s.portFor home i (s.fillKey f r home) then (s, none)
    else
      let s := s.setCluster home ((s.cluster home).lookedUp i (s.sclk false))
      match s.serveAt { f with op := .pref } r home (x.hint != 2) (x.hint == 1) with
      | none => (s, none)
      | some (s, .retry) => (s.setFlight (f.setReq r { r with age := r.age + 1, firstSlot := some (r.firstSlot.getD s.dclk) }), none)
      | some (s, _) =>
        match s.leaseAt home lot (s.cluster chain).clock x.lease true false with
        | (s, stop, clock) => (s.raiseClock chain clock, some (stop, clock, (List.range 256).map (fun j => s.byte (256 * lot + j))))

/-- R189, R190: the fill of a miss entry arrives; a leased copy takes its bytes and its lease from the home (R198, R243), and each
load the stores that joined before it. -/
def execMissFillArrival (chain lot : Nat) (s : State) : Out :=
  .next (let c := s.cluster chain
    match c.lot lot with
    | none => s
    | some l =>
      match l.place with
      | .miss stream touch core part _ =>
        let waits := s.waiting chain lot .fill
        let place := Place.arrived stream (s.sclk false) touch core part
        match l.copy with
        | none =>
          waits.foldl (fun s w =>
            match s.flight w.1 with
            | some f => s.served f w.2 chain .done 0 (f.leased w.2)
            | none => s) (s.setCluster chain (c.setLot lot { l with place := place }))
        | some y =>
          let all := waits ++ s.waiting chain lot .land
          match ((all.find? (fun w => s.tookMiss w.2)).orElse (fun _ => all.head?)).bind (fun w => (s.flight w.1).map (fun f => (f, w.2))) with
          | none => s.setCluster chain (c.dropLot lot)
          | some (f, r) =>
            match s.fillCopy f r chain lot with
            | (s, none) => s
            | (s, some (stop, clock, data)) =>
              let all := overlay data (y.late.map (fun p => p.2))
              let l := { l with place := place, copy := some { y with stop := stop, data := all, late := [] }, stamp := clock }
              waits.foldl (fun s w =>
                match s.flight w.1 with
                | some f =>
                  if f.op == .pref then s.setPhase f w.2 .land
                  else
                    match s.readCopy f w.2 (overlay data (y.joined w.2.order)) with
                    | (s, g, bad) =>
                      let q := { w.2 with stamp := clock }
                      s.served (g.setReq w.2 q) q chain .done bad true
                | none => s) (s.setCluster chain ((s.cluster chain).setLot lot l))
      | _ => s)

/-- R192: a rejected miss is tried again, one older. -/
def execMissRetry (flight lot : Nat) (s : State) : Out :=
  .next (match s.flight flight with
    | none => s
    | some f =>
      match f.reqs.find? (fun r => r.lot == lot && r.phase == .retry) with
      | some r => s.setFlight (f.setReq r { r with phase := .tag, age := r.age + 1, since := s.sclk false })
      | none => s)

/-- R498: what an acknowledged write does for a request that waits for `wb` of them: `lotwb` and a store's own write are complete;
`lotdrop` goes on to remove the lot; a store that waited for an earlier write goes back to its tag slot (R499). -/
def State.acknowledged (s : State) (f : Flight) (r : Req) : State :=
  if 1 < r.wb then s.setFlight (f.setReq r { r with wb := r.wb - 1 })
  else
    match f.op with
    | .lotdrop => s.settleFlight (f.setReq r { r with phase := .land, wb := 0 })
    | .lotwb => s.served f r r.chain .done 0 false
    | _ =>
      if r.wb = 0 then s.served f r r.chain .done 0 (f.leased r)
      else s.settleFlight (f.setReq r { r with phase := .tag, wb := 0, since := s.sclk false })

/-- R498, R193, R194, R213: the controller acknowledges the oldest write of a lot.  An entry whose write has not begun begins it. -/
def execWriteAcknowledge (chain lot : Nat) (s : State) : Out :=
  .next (let c := s.cluster chain
    let finish (s : State) (p : Req → Bool) : State := (s.waiting chain lot .ack).foldl (fun s w =>
      match s.flight w.1 with
      | some f => if p w.2 then s.acknowledged f w.2 else s
      | none => s) s
    match c.wbs.find? (fun w => w.lot == lot) with
    | some w =>
      if !w.started then
        let c := match c.lot lot with
          | some l => if w.held then c else c.setLot lot { l with stored := false }
          | none => c
        s.setCluster chain { c with wbs := c.wbs.replace w { w with started := true } }
      else
        let c := { c with wbs := c.wbs.erase w }
        let c := match c.lot lot with
          | some l => if w.entry then c else c.setLot lot { l with dirty := l.stored }
          | none => c
        finish ((s.updateCluster chain c).rewritten lot) (fun r => r.wb != 0)
    | none => finish s (fun _ => true))

/-- R200: a reply comes back to the issuing cluster; a peer's answer is a free value. -/
def execRemoteReplyArrival (flight lot : Nat) (s : State) : Out :=
  .next (match s.flight flight with
    | none => s
    | some f =>
      match f.reqs.find? (fun r => r.lot == lot && r.phase == .reply) with
      | none => s
      | some r =>
        if inPeer (256 * lot) then
          let g := (Mask.lanes r.lanes).foldl (fun (g : Flight) L =>
            if g.op.big then g.takeImage L r.lot (fun a => Config.freeByte (s.fresh + a % 256))
            else g.takeRead r.reg L ((Config.freeDWord (s.fresh + L)).toNat % 2 ^ (8 * min 8 f.size))) f
          let q := { r with stamp := (Config.freeWord s.fresh).setWidth 20 }
          ({ s with fresh := s.fresh + 256 }).reqDone (g.setReq r q) q false
        else
          let s := if r.copy ≠ 0 then s.renewCopy (clusterOf f.agent.core) lot r.copy r.stop else s
          s.reqDone f r (f.leased r))

/-- R201: a read served at a memory controller delivers its last byte. -/
def execBypassLoadDelivery (flight lot : Nat) (s : State) : Out :=
  .next (match s.flight flight with
    | none => s
    | some f =>
      match f.reqs.find? (fun r => r.lot == lot && r.phase == .deliver) with
      | none => s
      | some r => s.reqDone f r (f.leased r))

/-- R306, R199: a lent lot is returned for an access from another core that waits at its home. -/
def execLotRecall (chain lot : Nat) (s : State) : Out :=
  .next (let h := s.cluster chain
    let foreign := s.flights.any (fun f => f.op != .chain && f.op != .mon && f.reqs.any (fun r => r.lot == lot && r.phase == .tag &&
      (f.pageOf r).any (fun x => s.lentAway f r x && s.homeOf f.agent.tract (256 * lot) 256 == chain)))
    if (Tbl.find h.lent lot).isSome && foreign then s.returnLent chain lot else s)

/-- R212: the pin entries of an ended gang are freed. -/
def execPinRelease (tag : Nat) (s : State) : Out :=
  .next (let t : BitVec 13 := BitVec.ofNat 13 tag
    if s.pinRelease.contains t then
      (List.range 24).foldl (fun s k =>
        let c := s.cluster k
        s.setCluster k { c with pins := c.pins.filter (fun p => p.tag != t) })
        { s with pinRelease := s.pinRelease.filter (· != t) }
    else s)

/-! ### Ordered words -/

/-- R270: the global sequencer gives the flight the next ticket and releases it to its slice. -/
def execAtomscTicket (flight : Nat) (s : State) : Out :=
  .next (match s.flight flight with
    | none => s
    | some f =>
      if opcodeOf f.word = 0x8C && f.ticket.isNone && f.xlatL = 0 &&
          (s.flightsOf f.strand).all (fun g => f.pos ≤ g.pos || opcodeOf g.word != 0x8C || g.ticket.isSome) then
        { s.setFlight { f with ticket := some s.nextTicket } with nextTicket := s.nextTicket + 1 }
      else s)

/-- R269: every store of a core's agents that may precede a narrower release which it has completed is visible at a scope.  Such a
store is visible at `.b`, and at `.x` its peer has acknowledged it (R264). -/
def State.promoted (s : State) (core scope : Nat) : Bool :=
  s.flights.all (fun g => g.agent.core != core || !g.op.writesMemory ||
    g.reqs.all (fun r => !s.partVisible g 1 r || s.partVisible g scope r)) &&
  (scope < 5 || s.peerStores.all (fun p => coreOf p.strand != core || p.copy.isSome))

/-- R269: a core answers a promotion once every store that its completed narrower releases cover is visible at the scope. -/
def execPromotionRequest (flight core : Nat) (s : State) : Out :=
  .next (match s.flight flight with
    | none => s
    | some f =>
      if f.promoting && f.asking.contains core && s.promoted core f.scope then
        s.setFlight { f with
          asking := f.asking.filter (· != core)
          asked := f.asked ++ [core]
          stamp := if f.asked.isEmpty then (s.cluster (clusterOf core)).clock else clockMax f.stamp (s.cluster (clusterOf core)).clock }
      else s)

/-- R269: every answer has arrived; the cluster's clock takes the latest, and the load proceeds. -/
def execPromotionAnswer (flight : Nat) (s : State) : Out :=
  .next (match s.flight flight with
    | none => s
    | some f =>
      if f.promoting && f.asking.isEmpty then
        (s.raiseClock (clusterOf f.agent.core) f.stamp).setFlight { f with promoting := false }
      else s)

end Sys2Proof.Machine
end

