-- ==== Sys2Proof/Machine/Translate.lean ====
section
/-!
DEFINITION. The words of translation (08 R245 to R248), the dirty-page scanner (R236 to R239), peers (R240, R241, 10 R274,
R276), and the clocks and leases of the clusters (R242, R244).
-/
namespace Sys2Proof.Machine

/-! ### The words -/

/-- R246. -/
def execPgq (d a k : BitVec 8) (s : State) : Out :=
  strandWord (.pgq d a k) (fun c =>
    if 3 ≤ k.toNat then c.raiseWide .illegalOperand 0
    else if c.act = 0 then c.over c.s
    else
      c.launch c.s true { c.flight (.pgq k.toNat) with
        addr := (c.plain true a).lanes64, dst := d, wide := true, regs := 1, xlatL := c.act }) s

/-- R245, R247: the word reads its sources in the lowest active lane and acts once. -/
def execTlbinv (k : BitVec 4) (a b : BitVec 8) (s : State) : Out :=
  strandWord (.tlbinv k a b) (fun c =>
    if 6 ≤ k.toNat then c.raiseWide .illegalOperand 0
    else if !c.st.rightKernel then c.raiseWide .permission 0
    else
      match c.act.lowest with
      | none => c.over c.s
      | some L =>
        c.launch c.s false (c.flight (.tlbinv k.toNat (BitVec.ofNat 64 ((c.plain true a).at L))
          (BitVec.ofNat 32 ((c.plain false b).at L))))) s

/-- R248. -/
def execTlbsync (s : State) : Out :=
  strandWord .tlbsync (fun c =>
    if !c.st.rightKernel then c.raiseWide .permission 0
    else if c.s.tlbSettled c.sid c.s.nextFlight then c.done c.st
    else c.hold c.s (.tlbsync c.s.nextFlight)) s

/-! ### Invalidation -/

/-- R247: what one invalidation names: the kind, the address and the tag. -/
structure Inval where
  kind : Nat
  addr : Nat
  lane : Nat
  tag  : Nat
  deriving DecidableEq, Repr

def Inval.vmid (q : Inval) : Nat := bits q.tag 23 16
def Inval.asid (q : Inval) : Nat := bits q.tag 15 0

/-- R247: the entry holds a part of the first-stage page that an address lies in. -/
def TlbEntry.ofPage (e : TlbEntry) (va : Nat) : Bool := va / sizeSpan e.size1 == 65536 * e.page / sizeSpan e.size1
/-- R247: a TLB entry matches.  A page is named by its address in either space, and a private address by its lane's byte; a
guest-physical page is one of the second stage. -/
def Inval.hits (q : Inval) (e : TlbEntry) : Bool :=
  let page (va : Nat) : Bool := e.ofPage va
  let o := q.addr % 2 ^ 48
  match q.kind with
  | 0 => e.asid.toNat == q.asid && e.vmid.toNat == q.vmid &&
      (page q.addr || (addrKind q.addr == 1 && e.priv && page (o / 4 * 128 + 4 * q.lane + o % 4)))
  | 1 => e.asid.toNat == q.asid && e.vmid.toNat == q.vmid
  | 2 => e.vmid.toNat == q.vmid && e.gpa / sizeSpan e.size2 == q.addr / sizeSpan e.size2
  | 3 => e.vmid.toNat == q.vmid
  | 4 => e.ident.toNat == bits q.tag 11 0
  | _ => true
/-- R247: a walk that could use the walk-cache entry could make a matching translation. -/
def Inval.uses (q : Inval) (w : WalkEntry) : Bool :=
  if q.kind ≤ 1 then w.vmid.toNat == q.vmid && (w.asid.toNat == q.asid || w.asid == 0)
  else if q.kind ≤ 3 then w.vmid.toNat == q.vmid
  else true

/-- R313: monitors on lots of the named frames are lost. -/
def State.loseMonitors (s : State) (frames : List Nat) : State :=
  { s with strands := s.strands.map (fun (p : Nat × Strand) =>
      match p.2.monitor with
      | some m => if frames.contains (m.lot / 256) then (p.1, { p.2 with monitor := some { m with lost := true } }) else p
      | none => p) }

/-- R247: every matching entry leaves every TLB of the package, and the walk caches what matching walks could use. -/
def State.invalidate (s : State) (q : Inval) : State :=
  let gone := s.cores.flatMap (fun (p : Nat × Core) => p.2.tlb.filter q.hits) ++
    s.clusters.flatMap (fun (p : Nat × Cluster) => p.2.tlb.filter q.hits)
  let s := (s.cores.map Prod.fst).foldl (fun s c =>
    let x := s.core c
    s.setCore c { x with tlb := x.tlb.filter (fun e => !q.hits e) }) s
  let s := (s.clusters.map Prod.fst).foldl (fun s k =>
    let x := s.cluster k
    s.setCluster k { x with tlb := x.tlb.filter (fun e => !q.hits e), walk := x.walk.filter (fun w => !q.uses w) }) s
  s.loseMonitors (gone.map (fun e => e.x.pa / 65536))

/-- R247, R248: no TLB can serve a matching translation any more; a `tlbsync` that waits for the word waits for every access
translated until now. -/
def execTlbinvComplete (flight : Nat) (s : State) : Out :=
  .next (match s.flight flight with
    | none => s
    | some f =>
      match f.op with
      | .tlbinv k addr tag =>
        let s := s.invalidate ⟨k, addr.toNat, f.mask.lowest.getD 0, tag.toNat⟩
        let s := s.completeFlight f
        let later (x : Option Frag) : Option Frag := x.map (fun x => match x.hold with
          | .tlbsync _ => { x with hold := .tlbsync s.nextFlight }
          | _ => x)
        s.modStrand f.strand (fun st => { st with fragA := later st.fragA, fragB := later st.fragB })
      | _ => s)

/-! ### Agents outside the cores -/

/-- R474: the class of a 2 MiB frame by the hart class map. -/
def State.classOf (s : State) (pa : Nat) : Nat := (s.byte (s.control.hartClass.toNat + pa / 2 ^ 21)).toNat

/-- The tract whose domain frame table serves a frame for the hash home: the first valid one (log entry 9). -/
def State.frameTract (s : State) : Nat := ((List.range 16).find? (fun t => s.tractField t 31 31 == 1)).getD 0

/-- R199: a lent coherent lot is returned before an outside agent's access to it. -/
def State.recallFor (s : State) (lot : Nat) : State :=
  match s.clusters.find? (fun (p : Nat × Cluster) => (Tbl.find p.2.lent lot).isSome) with
  | some p => s.returnLent p.1 lot
  | none => s

/-- R274: a store to a leased page is performed at the hash home, and raises the external stamp. -/
def State.outsideStamp (s : State) (lot : Nat) : State :=
  if s.classOf (256 * lot) = 1 then
    let home := s.homeOf s.frameTract (256 * lot) 256
    let c := s.cluster home
    let w := clockMax c.clock ((c.stamps lot).2 + 1)
    { s.setCluster home (c.setStamps lot w w) with extStamp := clockMax s.extStamp w }
  else s

/-- R274, R243, R465: a store by a processor outside the cores carries the clock that the hub has released: in the timestamps that it sets
at the home of a lot of a leased page, and in the release stamp of another lot (R267). -/
def State.hubStamp (s : State) (tract : Nat) (x : Xlat) (lot : Nat) : State :=
  let t := s.procStamp
  if x.cls = 1 then
    let home := s.homeOf tract (256 * lot) 256
    let c := s.cluster home
    let w := clockMax (clockMax c.clock t) ((c.stamps lot).2 + 1)
    { s.setCluster home (c.setStamps lot w w) with procStamp := clockMax t w }
  else
    match s.clusters.find? (fun (p : Nat × Cluster) => (p.2.lot lot).isSome) with
    | some p => s.setCluster p.1 { p.2 with lots := p.2.lots.map (fun x =>
        if x.1 = lot then (x.1, { x.2 with stamp := clockMax x.2.stamp t }) else x) }
    | none =>
      let home := s.homeOf tract (256 * lot) (if x.cls = 0 then 65536 else 256)
      let c := s.cluster home
      s.setCluster home { c with mts := clockMax c.mts t }
/-- R465, R475: bytes that the hub's units write under a space. -/
def State.hubWrite (s : State) (sp : Space) (va : Nat) (bs : List Byte) : State :=
  (pieces va bs.length).foldl (fun s p =>
    match s.translateOutside sp .write p.1 with
    | some (s, .ok x) =>
      let pa := x.pa + p.1 % 65536
      if inHbm pa then
        let s := s.storeList ((List.range p.2.2).map (fun j => (pa + j, bs.getD (p.2.1 + j) 0)))
        ((List.range (p.2.2 / 256 + 2)).map (fun j => pa / 256 + j)).foldl (fun s lot =>
          if 256 * lot < pa + p.2.2 then
            let s := (s.recallFor lot).hubStamp sp.tract x lot
            let s := (s.clusters.map Prod.fst).foldl (fun s k => s.setCluster k ((s.cluster k).dirtied lot)) s
            s.fireMonitors lot
          else s) s
      else s
    | some (s, .bad _ _) => s
    | none => { s with late := s.late ++ [⟨sp, p.1, (List.range p.2.2).map (fun j => bs.getD (p.2.1 + j) 0), true⟩] }) s
/-- R236: the writes that wait for room in a dirty ring are tried again, in their order. -/
def State.flushLate (s : State) : State :=
  s.late.foldl (fun (s : State) w =>
    if w.hub then s.hubWrite w.sp w.va w.bs else s.writeVa w.sp w.va w.bs.length (bytesValue w.bs)) { s with late := [] }

/-! ### The scanner -/

/-- The space in which the scanner finds a job's leaf: the job names no VMID (log entry 8). -/
def scanSpace (tract : Nat) (asid : BitVec 16) : Space := ⟨false, tract, 0, asid, 0, 0, false, true⟩

/-- R219, R236: some backing region of the tract holds the address under the ASID. -/
def State.backed (s : State) (tract : Nat) (va asid : Nat) : Bool :=
  (List.range 64).any (fun j =>
    let e := s.readN (s.tractField tract 767 704 + 32 * j) 32
    bits e 226 226 == 1 && bits e 255 240 == asid && bits e 63 0 ≤ va && decide (va < bits e 63 0 + bits e 127 64))

/-- R224: the physical ranges of a first-stage page under its second stage, from the guest-physical address of its first byte. -/
def State.pageParts (s : State) (sp : Space) (gpa size : Nat) : List (Nat × Nat) :=
  match s.stage2 sp with
  | none => [(gpa, sizeSpan size)]
  | some root => (List.range (sizePieces size)).filterMap (fun j =>
    match physOf s 0 sp (some root) (gpa + 65536 * j) with
    | .ok pa _ _ => some (pa, 65536)
    | .bad _ _ | .lost => none)
/-- A physical address lies in a page. -/
def inParts (l : List (Nat × Nat)) (pa : Nat) : Bool := l.any (fun q => decide (q.1 ≤ pa) && decide (pa < q.1 + q.2))
/-- A write that was translated before the invalidation is still to be performed on the page (R237 step 2). -/
def State.writesPending (s : State) (parts : List (Nat × Nat)) : Bool :=
  s.flights.any (fun f => f.op.writesMemory && !f.finished && f.pages.any (fun (p : Nat × XRes) => match p.2 with
    | .ok x => inParts parts x.pa
    | .bad _ _ => false))
def Lot.landed (l : Lot) : Bool := match l.place with
  | .station _ => true
  | _ => false
/-- R237 step 3: every dirty lot of a page that has landed has been written back. -/
def State.cleanPage (s : State) (parts : List (Nat × Nat)) : State :=
  (s.clusters.map Prod.fst).foldl (fun s k =>
    let c := s.cluster k
    s.setCluster k { c with lots := c.lots.map (fun (p : Nat × Lot) =>
      if inParts parts (256 * p.1) && p.2.landed then (p.1, { p.2 with dirty := false, stored := false }) else p) }) s
/-- R237, R213: a dirty lot of the page has not landed yet, and its write-back waits for it. -/
def State.dirtyMoving (s : State) (parts : List (Nat × Nat)) : Bool :=
  s.clusters.any (fun c => c.2.lots.any (fun p => p.2.dirty && !p.2.landed && inParts parts (256 * p.1)))

/-- R237 steps 1 to 3: the scanner takes the tract's next job; R236: a job outside every backing region is dropped and counted. -/
def execScannerJob (tract : Nat) (s : State) : Out :=
  .next (
    let cons := s.tractField tract 1023 960
    if s.tractField tract 959 896 ≤ cons then s
    else
      let jobAt := s.tractField tract 895 832 + 32 * (cons % 2 ^ s.tractField tract 831 828)
      let job := s.readN jobAt 32
      let va := bits job 63 0
      let frame := bits job 127 64
      let asid := bits job 207 192
      let size := bits job 209 208
      let s := (s.writeN (s.tractAt tract + 120) 8 (cons + 1)).flushLate
      if !s.backed tract va asid then { s with scanDropped := s.scanDropped + 1 }
      else
        let sp := scanSpace tract (BitVec.ofNat 16 asid)
        match physOf s 0 sp (s.stage2 sp) (bits job 191 128) with
        | .bad _ _ | .lost => s
        | .ok at_ _ _ =>
          let leaf := s.readN at_ 8
          match physOf s 0 sp (s.stage2 sp) (leafOut (4 - size) leaf 0) with
          | .bad _ _ | .lost => s
          | .ok pa _ _ =>
            if !entryV leaf || pa ≠ frame then s
            else
              let held := leaf ||| 2 ^ 13
              let s := s.writeN at_ 8 held
              let s := (s.clusters.map Prod.fst).foldl (fun s k => let c := s.cluster k; s.setCluster k { c with
                tlb := c.tlb.filter (fun e => !(e.asid.toNat == asid && e.ofPage va))
                walk := c.walk.filter (fun w => w.pa != at_) }) s
              let s := (s.cores.map Prod.fst).foldl (fun s k => let c := s.core k; s.setCore k { c with
                tlb := c.tlb.filter (fun e => !(e.asid.toNat == asid && e.ofPage va)) }) s
              let parts := s.pageParts sp (leafOut (4 - size) leaf 0) size
              let s := if s.writesPending parts then s else s.cleanPage parts
              let id := s.nextOrder
              { s with
                nextOrder := id + 1
                scans := s.scans ++ [⟨id, tract, BitVec.ofNat 64 va, BitVec.ofNat 64 frame, BitVec.ofNat 64 (bits job 191 128),
                  BitVec.ofNat 16 asid, size, at_, BitVec.ofNat 64 held, parts, BitVec.ofNat 64 jobAt⟩] })

/-- A scan job by its number. -/
def State.scan (s : State) (id : Nat) : Option ScanJob := s.scans.find? (fun j => j.id == id)

/-- R237 step 5, R239: the final compare-and-swap clears bits of the leaf, unless the kernel has changed it: ACCESSED, which a walker
may have set meanwhile, counts for no change, but one that it cleared does. -/
def State.endHeld (s : State) (j : ScanJob) (clear : DWord) : State :=
  let now : DWord := BitVec.ofNat 64 (s.readN j.leafAt 8)
  if (now ^^^ j.leaf) &&& ~~~0x20#64 = 0 && (now.getLsbD 5 || !j.leaf.getLsbD 5) then s.writeN j.leafAt 8 (now &&& ~~~clear).toNat else s

/-- R237 steps 2 to 5: the flash write has completed; DIRTY and SCAN_WP go together, unless the leaf has been changed. -/
def execScannerFlashDone (job : Nat) (s : State) : Out :=
  .next (match s.scan job with
    | none => s
    | some j =>
      if s.writesPending j.parts || s.dirtyMoving j.parts then s
      else
        let s := s.cleanPage j.parts
        let s := { s with scans := s.scans.filter (fun x => x.id != job) }
        s.endHeld j 0x2040#64)

/-- R239: the flash write has failed; SCAN_WP goes, DIRTY stays, and the kernel is told. -/
def execScannerFlashFail (job : Nat) (t : State) : Out :=
  let s := t
  .next (match s.scan job with
    | none => s
    | some j =>
      if s.writesPending j.parts || s.dirtyMoving j.parts then s
      else
        let s := s.cleanPage j.parts
        let s := { s with scans := s.scans.filter (fun x => x.id != job) }
        let s := s.endHeld j 0x2000#64
        t.unlessFull (s.post 3 0 0 j.jobAt.toNat (j.va.toNat + j.frame.toNat * 2 ^ 64 + j.entry.toNat * 2 ^ 128 + (j.asid.toNat + j.size * 65536) * 2 ^ 192)))

/-! ### Outside accesses -/

/-- R274, R199: a store from outside the cores has been performed on a lot. -/
def State.storedOutside (s : State) (lot : Nat) : State :=
  let s := s.outsideStamp lot
  let s := (s.clusters.map Prod.fst).foldl (fun s k => s.setCluster k ((s.cluster k).dirtied lot)) s
  s.fireMonitors lot
/-- The lots of the 8 bytes at an address. -/
def lotsOf8 (pa : Nat) : List Nat := [pa / 256, (pa + 7) / 256].eraseDups
/-- R274, R275, R447, R448: an access of 8 bytes by the host, a hart or a peer is performed at its point of performance; its agent gets
the answer.  A read that meets a poisoned granule answers no data. -/
def State.outside (s : State) (agent pa : Nat) (write : Option (BitVec 64)) : State :=
  let as := (List.range 8).map (pa + ·)
  let s := ((lotsOf8 pa).foldl State.recallFor s).reveal as
  let answer (s : State) (a : Answer) : State := { s with answers := Tbl.put s.answers agent a }
  match write with
  | none =>
    let s := s.checkMemory as
    answer s (if as.any s.poisoned then .poisoned else .done (BitVec.ofNat 64 (s.readN pa 8)))
  | some v => answer ((lotsOf8 pa).foldl State.storedOutside (s.storeList (valueBytes v.toNat as))) (.done 0)
/-- An access from outside the cores is refused. -/
def State.refuseOutside (s : State) (agent : Nat) : State := { s with answers := Tbl.put s.answers agent .refused }

/-- R228: the domain frame table of a tract admits the access of an agent outside the cores, under a domain. -/
def State.foreignFrameOk (s : State) (tract : Nat) (d : BitVec 12) (pa : Nat) (write : Bool) : Bool :=
  s.frameOk ⟨false, tract, 0, 0, 0, d, s.sealedDomain d.toNat, false⟩ pa write
/-- R276, R274, R228: the access of an agent of peer `peer mod 256` of tract `peer div 256` arrives; one that the tract's table refuses,
under its domain, which is free (log entry 9), raises DOMAIN there and changes nothing here, and neither does one outside the map of
R214; in a tract that is being torn down, whose ports have stopped, none arrives (R451). -/
def execPeerAccess (peer addr : Nat) (write : Option (BitVec 64)) (_release : Bool) (s : State) : Out :=
  let tract := peer / 256
  .next (
    if tract < 16 && s.inMap addr && s.inMap (addr + 7) && !s.teardowns.contains tract then
      let ok := s.foreignFrameOk tract ((Config.freeWord s.fresh).setWidth 12) addr write.isSome
      let s := { s with fresh := s.fresh + 1 }
      if ok then s.outside (peerAgent + peer) addr write else s.refuseOutside (peerAgent + peer)
    else s)

/-! ### Clocks and leases -/

/-- R242: the clock of a cluster advances for one multiple of 1,024 that DCLK has reached. -/
def execLogicalClockTick (cluster : Nat) (s : State) : Out :=
  .next (let c := s.cluster cluster
    if c.ticks < s.dclk.toNat / 1024 then s.setCluster cluster { c with clock := c.clock + 1, ticks := c.ticks + 1 } else s)

/-- R244: a timestamp that lags a clock by more than 2^18 rises to it. -/
def liftTo (clock t : BitVec 20) : BitVec 20 :=
  if (clock - t).toNat > 2 ^ 18 && (clock - t).toNat < 2 ^ 19 then clock else t
/-- R267: the same for the stamp registers of a cluster's cores. -/
def State.liftCores (s : State) (cluster : Nat) (clock : BitVec 20) : State :=
  ((List.range 192).filter (fun k => clusterOf k == cluster)).foldl (fun s k =>
    let c := s.core k
    s.setCore k { c with stamp := liftTo clock c.stamp }) s
/-- R244, R267: expired copies are dropped, pinned or not, and lagging timestamps and stamps rise to the clock. -/
def execLeaseSweep (cluster : Nat) (s : State) : Out :=
  .next (let c := s.cluster cluster
    let lift := liftTo c.clock
    (s.updateCluster cluster { c with
      mts := lift c.mts
      lots := (c.lots.filter (fun (p : Nat × Lot) => !p.2.expired c.clock)).map (fun (p : Nat × Lot) =>
        if p.2.copy.isSome then p else (p.1, { p.2 with wts := lift p.2.wts, rts := lift p.2.rts, stamp := lift p.2.stamp })) }).liftCores
      cluster c.clock)

end Sys2Proof.Machine
end

