-- ==== Sys2Proof/Machine/Engine.lean ====
section
/-!
DEFINITION. How an engine of a core reads and writes device memory (13 R322): as `ld` and `st` do, in the chain that the class
rules select; its access goes through its tag slot in the step that performs it, and a fill it needs arrives in that step.
-/
namespace Sys2Proof.Machine

/-- R182, R189, R194, R202: the lot at chain `k`, touched, reclaimed, or brought in as its hint and class say. -/
def State.engineAt (s : State) (a : Agent) (x : Xlat) (k lot : Nat) (store : Bool) : State :=
  let c := s.cluster k
  let S := s.sclk false
  let places := x.hint != 2 || x.cls == 2
  let stream := x.hint != 0
  match c.lot lot with
  | some l =>
    let c := if places && l.dom == a.ident then c.touch lot stream S a.core 0 else c
    s.setCluster k (if store then c.dirtied lot else c)
  | none =>
    if !places then s
    else
      let s := match c.heldWb lot with
        | some w => if w.dom = a.ident then s.reclaim k lot w a.core 0 else s
        | none => s.setCluster k (c.setLot lot ⟨.arrived stream S S a.core 0, c.subFor a.ident, false, false, none, c.mts, c.mts, c.mts, a.ident⟩)
      let s := if store then s.setCluster k ((s.cluster k).dirtied lot) else s
      if x.cls = 0 && (Tbl.find s.holders (lot / 256)).isNone then { s with holders := Tbl.put s.holders (lot / 256) k } else s

/-- Where an engine's access finds itself at a chain. -/
inductive EngineTurn where
  | goes
  | waits
  /-- its miss is rejected in this chain (R192) -/
  | rejected (chain : Nat)
  deriving DecidableEq, Repr

/-- R181, R200, R198: the chains in which an engine's access takes tag slots: the one that its class selects; for a leased lot that of
its own cluster, and the home's unless a copy there serves a load. -/
def State.engineChains (s : State) (a : Agent) (x : Xlat) (lot : Nat) (store : Bool) : List Nat :=
  let k := clusterOf a.core
  let home := s.homeOf a.tract (256 * lot) 256
  match x.cls with
  | 0 => [s.holdingChain a.tract a.core lot 0]
  | 1 => if k = home then [home] else if !store && (s.cluster k).copyNow lot != 0 then [k] else [k, home]
  | _ =>
    match Tbl.find (s.cluster home).lent lot with
    | some b => [if (s.cluster home).borrower lot = some a.core then b else home]
    | none => [home]
/-- R181, R187, R192, R499: an engine's access of a lot at chain `k`, by the age of its miss and its first tag slot.  It is ranked by
the sclk of the step that makes it (log entry 48).  It waits for its turn in the tag stage, and a store for a write of a write-back
entry that has begun; a miss is rejected, or waits when it is aged. -/
def State.engineTurn (s : State) (a : Agent) (x : Xlat) (age : Nat) (first : Option DWord) (k lot : Nat) (store : Bool) : EngineTurn :=
  let c := s.cluster k
  let S := s.sclk false
  let places := (x.hint != 2 || x.cls == 2) && !(x.cls == 1 && store && k != s.homeOf a.tract (256 * lot) 256)
  if !s.portFor k (c.subFor a.ident) (S :: tieKey k S lot S S a.core 0) then .waits
  else
    match (c.lot lot).filter (fun l => !l.expired c.clock), c.heldWb lot with
    | some _, _ => .goes
    | none, some w => if store && w.started && !(places && w.dom == a.ident) then .waits else .goes
    | none, none =>
      if !places then .goes
      else
        match s.entryAged a.ident age first k with
        | .free _ => .goes
        | .waits => .waits
        | .rejected => .rejected k
/-- R190, R257, R265: an engine's access of a leased lot waits for the fill that its own cluster has asked for, and for the stores of
its cluster that the home has still to perform: those of the lot, and for a store all that go to that home. -/
def State.engineBehind (s : State) (a : Agent) (x : Xlat) (lot : Nat) (store : Bool) : Bool :=
  let k := clusterOf a.core
  let home := s.homeOf a.tract (256 * lot) 256
  x.cls == 1 && k != home &&
  (((s.cluster k).lot lot).any (fun l => match l.place with
      | .miss .. => true
      | _ => false) ||
    ((store || (s.cluster k).copyNow lot == 0) && s.storesBefore k home s.nextOrder (if store then none else some lot)))
/-- How the lots of a list stand, each at its chains: the first that does not go. -/
def State.engineHeld (s : State) (a : Agent) (x : Xlat) (age : Nat) (first : Option DWord) (as : List Nat) (store : Bool) : EngineTurn :=
  ((((as.map (· / 256)).eraseDups).flatMap (fun lot =>
    if s.engineBehind a x lot store then [.waits]
    else (s.engineChains a x lot store).map (fun k => s.engineTurn a x age first k lot store))).find? (· != .goes)).getD .goes
/-- R187: the tag lookups that an engine's access of a lot makes. -/
def State.engineLooks (s : State) (a : Agent) (x : Xlat) (lot : Nat) (store : Bool) : State :=
  (s.engineChains a x lot store).foldl (fun s k =>
    let c := s.cluster k
    s.setCluster k (c.lookedUp (c.subFor a.ident) (s.sclk false))) s

/-- R199, R306: a coherent lot comes home before an access of another core, whose turn ends the predictor's run. -/
def State.engineHome (s : State) (a : Agent) (lot : Nat) : State × Nat :=
  let home := s.homeOf a.tract (256 * lot) 256
  let h := s.cluster home
  match Tbl.find h.lent lot with
  | some b => if h.borrower lot = some a.core then (s, b) else (s.returnLent home lot, home)
  | none =>
    match Tbl.find h.watch lot with
    | some w => if w.core = a.core then (s, home) else (s.setCluster home { h with watch := Tbl.del h.watch lot }, home)
    | none => (s, home)

/-- R322, R206: an engine's read of a lot; a valid leased copy of its own cluster serves it (R198). -/
def State.engineLoad (s : State) (a : Agent) (x : Xlat) (lot : Nat) : State × Option LeaseCopy :=
  let k := clusterOf a.core
  match x.cls with
  | 0 => (s.engineAt a x (s.holdingChain a.tract a.core lot 0) lot false, none)
  | 1 =>
    let home := s.homeOf a.tract (256 * lot) 256
    let s := if k = home then s else s.dropExpired k lot
    let copy := if k = home then none else ((s.cluster k).lot lot).bind (fun l => match l.place with
      | .miss .. => none
      | _ => l.copy)
    match copy with
    | some y => (s.engineAt a x k lot false, some y)
    | none =>
      let s := s.engineAt a x home lot false
      match s.leaseAt home lot (s.cluster k).clock x.lease true false with
      | (s, stop, clock) =>
        let s := s.raiseClock k clock
        let c := s.cluster k
        if k = home || x.hint = 2 || (c.lot lot).isSome then (s, none)
        else
          let S := s.sclk false
          let data := (List.range 256).map (fun j => s.byte (256 * lot + j))
          ({ s.setCluster k (c.setLot lot ⟨.arrived (x.hint == 1) S S a.core 0, c.subFor a.ident, false, false,
              some ⟨stop, data, s.nextOrder, []⟩, c.mts, c.mts, clock, a.ident⟩) with nextOrder := s.nextOrder + 1 }, none)
  | _ =>
    match s.engineHome a lot with
    | (s, h) => (s.engineAt a x h lot false, none)

/-- R322, R206: an engine's write of a lot; `bs` are the bytes it writes there.  A leased lot is written at its home, and a copy of
the engine's own cluster follows (R198, R243). -/
def State.engineStore (s : State) (a : Agent) (x : Xlat) (lot : Nat) (bs : List (Nat × Byte)) : State :=
  let k := clusterOf a.core
  let done (s : State) : State := (s.storeList bs).fireMonitors lot
  match x.cls with
  | 0 => done (s.engineAt a x (s.holdingChain a.tract a.core lot 0) lot true)
  | 1 =>
    let home := s.homeOf a.tract (256 * lot) 256
    let s := if k = home then s else s.dropExpired k lot
    let id := if k = home then 0 else (s.cluster k).copyNow lot
    let s := if id = 0 then s else s.touchCopy k lot a (x.hint != 2) (x.hint == 1) 0
    let s := s.engineAt a x home lot true
    match s.leaseAt home lot (s.cluster k).clock x.lease false true with
    | (s, stop, clock) =>
      let s := done (s.raiseClock k clock)
      if id = 0 then s else (s.refreshCopy k lot id 0).renewCopy k lot id stop
  | _ =>
    match s.engineHome a lot with
    | (s, h) => done (s.engineAt a x h lot true)

/-- Reads bytes of one translated frame; `none`: a poisoned granule is among them. -/
def State.engineRead (s : State) (a : Agent) (x : Xlat) (as : List Nat) : State × Option (List (Nat × Byte)) :=
  match s.consume a.core ((s.block a.block).map Block.domSlot) as with
  | (s, false) => (s, none)
  | (s, true) =>
    match ((as.map (· / 256)).eraseDups).foldl (fun (acc : State × List (Nat × Byte)) lot =>
      match (acc.1.engineLooks a x lot false).engineLoad a x lot with
      | (s, copy) =>
        let bytes := (as.filter (fun p => p / 256 == lot)).map (fun p => (p, match copy with
          | some y => y.data.getD (p % 256) 0
          | none => s.byte p))
        (s, acc.2 ++ bytes)) (s, []) with
    | (s, l) => (s, some l)

/-- Writes bytes of one translated frame. -/
def State.engineWrite (s : State) (a : Agent) (x : Xlat) (bs : List (Nat × Byte)) : State :=
  ((bs.map (fun p => p.1 / 256)).eraseDups).foldl (fun s lot =>
    (s.engineLooks a x lot true).engineStore a x lot (bs.filter (fun p => p.1 / 256 == lot))) (s.reveal (bs.map (fun p => p.1)))

/-! ### Save images -/

/-- R431: rounded up to 4 KiB. -/
def roundPage (n : Nat) : Nat := (n + 4095) / 4096 * 4096
/-- R431: the sizes of the sections of a block save image: header, barriers, sequencer, copy context, stochastic context, edge
queues, scratchpad, column, tiles, accumulators, streams. -/
def sectionSizes (sa ca tiles accs streams : Nat) : List Nat :=
  [4096, 9216, 768, 32768, 32768, 20480, sa, ca, tiles * 32768, accs * 133120, streams * 1024].map roundPage
/-- R431: the offset of a section. -/
def sectionAt (l : List Nat) (k : Nat) : Nat := (l.take k).foldl (· + ·) 0
/-- R431: the size of an image. -/
def imageSize (sa ca tiles accs streams : Nat) : Nat := sectionAt (sectionSizes sa ca tiles accs streams) 11
def Block.sectionAt (b : Block) (k : Nat) : Nat := Sys2Proof.Machine.sectionAt (sectionSizes b.sa b.ca b.tcount b.acount b.zcount) k

/-- The first cause of an access to `n` bytes under an outside space. -/
def State.vaFault (s : State) (sp : Space) (va n : Nat) (k : Access) : Option (Cause × Detail) :=
  (pieces va n).findSome? (fun p =>
    match s.translateOutside sp k p.1 with
    | some (_, .bad e d) => some (e, d)
    | some (_, .ok x) => if k.needsR && !s.clean (x.pa + p.1 % 65536) p.2.2 then some (.poisonConsumed, 0) else none
    | none => none)

end Sys2Proof.Machine
end

