-- ==== Sys2Proof/Machine/Copy.lean ====
section
/-!
DEFINITION. The copy engine (13 R315 to R336): shapes, requests and their segments, fix-up entries, multicast deposits, promises,
and the words that submit, query, wait and set shapes.
-/
namespace Sys2Proof.Machine

/-! ### The two sides of a segment -/

/-- Where the bytes of an element lie: this package's memory, a peer's, a block's local store, or a block's tiles. -/
inductive Spot where
  | hbm (pa : Nat)
  | peer (pa : Nat)
  | store (block off : Nat)
  | tile (block at_ : Nat)
  deriving DecidableEq, Repr

/-- How one side of a segment resolves. -/
inductive SideRes where
  | ok (spots : List Spot) (x : Option Xlat)
  /-- the write waits for room in the dirty ring -/
  | wait
  | fix (c : Cause) (addr lo hi : Nat) (scanner : Bool)
  | err (c : Cause)
  deriving DecidableEq, Repr

/-- The blocks of a gang, as its launch's packet gives them (R461). -/
def State.gangSize (s : State) (b : Block) : Nat :=
  match s.launch b.launch with
  | some l => bits l.packet.toNat 66 64 + 1
  | none => 1

/-- R161, R151, R153: an element of a local or gang side. -/
def State.localSpot (s : State) (k off n : Nat) (write : Bool) : Except Cause Spot :=
  match s.block k with
  | none => .error .badWindow
  | some b =>
    if !b.inRegion off n then .error .badWindow
    else if write && b.meetsStatus off n then .error .permission
    else .ok (.store k off)

/-- The spots of elements that lie outside device memory. -/
def State.nearSpot (s : State) (bk : Nat) (b : Block) (h : Shape) (write : Bool) (n : Nat) : Except Cause Spot :=
  match shTarget h with
  | 0 =>
    match s.windowOf bk (s.gangSize b) (shAddr h n) with
    | .ok (.own off) => s.localSpot bk off (shSize h) write
    | .ok (.other k off) => s.localSpot k off (shSize h) write
    | .ok (.mem _) => .error .badWindow
    | .error c => .error c
  | 1 =>
    if shAt h n < 0 || 32768 < shAt h n + (shSize h : Int) then .error .badWindow
    else .ok (.tile bk (shTile h * 32768 + (shAt h n).toNat))
  | _ =>
    if shAt h n < 0 then .error .badWindow else s.localSpot bk (shAt h n).toNat (shSize h) write

/-- An element in the store of a mate that is saved: its segment waits for it (R428). -/
def State.namesSaved (s : State) (bk : Nat) (b : Block) (h : Shape) (n : Nat) : Bool :=
  shTarget h == 0 && (match s.windowOf bk (s.gangSize b) (shAddr h n) with
    | .ok (.other k _) => (s.block k).isNone && (s.blockOrSaved k).isSome
    | _ => false)

/-- Collects spots, or the cause of the highest priority (R413, R414). -/
def collectSpots (l : List (Except Cause Spot)) : Except Cause (List Spot) :=
  let key (c : Cause) := c.priority * 256 + c.code
  l.foldr (fun x acc =>
    match x, acc with
    | .ok p, .ok r => .ok (p :: r)
    | .ok _, .error c => .error c
    | .error c, .ok _ => .error c
    | .error c, .error c' => .error (if key c ≤ key c' then c else c')) (.ok [])

/-- R322, R323, R324: one side of a segment of `len` elements from `n`. -/
def State.side (s : State) (bk : Nat) (b : Block) (a : Agent) (h : Shape) (n len : Nat) (write : Bool) : State × SideRes :=
  let va := shAddr h n
  if shTarget h = 0 && addrKind va = 0 then
    let sp := a.space false
    match s.translate a.core sp (if write then .write else .read) va with
    | none => (s, .wait)
    | some (s, .ok x) =>
      (s, .ok ((List.range len).map (fun j =>
        let pa := x.pa + shAddr h (n + j) % 65536
        if inHbm pa then Spot.hbm pa else Spot.peer pa)) (some x))
    | some (s, .bad c d) =>
      let scanner := c == .permission && d.getLsbD 510
      if c == .notPresent || c == .stage2 || scanner then
        let span := s.faultSpan (clusterOf a.core) sp c va
        (s, .fix c va span.1 span.2 scanner)
      else (s, .err c)
  else if (List.range len).any (fun j => s.namesSaved bk b h (n + j)) then (s, .wait)
  else
    match collectSpots ((List.range len).map (fun j => s.nearSpot bk b h write (n + j))) with
    | .ok l => (s, .ok l none)
    | .error c => (s, .err c)

/-- R345, R447: the tile words of `n` bytes are read: one that the code does not correct is marked; answers how many it corrects. -/
def Block.checkTiles (b : Block) (at_ n : Nat) : Block × Nat :=
  (List.range ((at_ % 4 + n + 3) / 4)).foldl (fun (acc : Block × Nat) j =>
    let w := at_ / 4 + j
    match Tbl.find acc.1.tileEcc w with
    | none => acc
    | some true => ({ acc.1 with tilePoison := (List.range 4).foldl (fun t i => Tbl.put t (4 * w + i) ()) acc.1.tilePoison,
                                 tileEcc := Tbl.del acc.1.tileEcc w }, acc.2)
    | some false => (acc.1, acc.2 + 1)) (b, 0)
/-- R158, R324, R447: bytes of an element of a near side; `none`: a poisoned one, which is counted. -/
def State.nearBytes (s : State) (p : Spot) (z : Nat) : State × Option (List Byte) :=
  let read (k : Nat) (b : Block) (x : Block × Nat) (idx unit place : Nat) (bad : Block → Bool) (out : Block → List Byte) :
      State × Option (List Byte) :=
    let s := (List.range x.2).foldl (fun s _ => s.countError (k / 8) (some b.domSlot) idx) ((s.noteColumn (k / 8) b x.1).setBlock k x.1)
    if bad x.1 then (s.countPoison (k / 8) (some b.domSlot) unit place, none) else (s, some (out x.1))
  match p with
  | .store k off =>
    match s.block k with
    | some b => read k b (b.checkWords off z) 0 (if off < 0x1000000 then 0 else 1) off (fun b => b.poisonedAt off z)
        (fun b => (List.range z).map (fun j => b.byte (off + j)))
    | none => (s, none)
  | .tile k at_ =>
    match s.block k with
    | some b => read k b (b.checkTiles at_ z) 1 2 at_ (fun b => (List.range z).any (fun j => (Tbl.find b.tilePoison (at_ + j)).isSome))
        (fun b => (List.range z).map (fun j => Tbl.get 0 b.tiles (at_ + j)))
    | none => (s, none)
  | .peer _ => (s, some ((List.range z).map (fun j => Config.freeByte (s.fresh + j))))
  | .hbm _ => (s, none)

/-- The bytes of a source side in canonical order; `none`: POISON_CONSUMED. -/
def State.readSide (s : State) (a : Agent) (l : List Spot) (x : Option Xlat) (z : Nat) : State × Option (List Byte) :=
  let pas := l.flatMap (fun p => match p with
    | .hbm pa => (List.range z).map (pa + ·)
    | _ => [])
  match x, pas.isEmpty with
  | some x, false =>
    match s.engineRead a x pas.eraseDups with
    | (s, none) => (s, none)
    | (s, some m) => (s, some (pas.map (fun p => ((m.find? (fun q => q.1 == p)).map Prod.snd).getD 0)))
  | _, _ =>
    l.foldl (fun acc p =>
      match acc with
      | (s, none) => (s, none)
      | (s, some out) =>
        match s.nearBytes p z with
        | (s, none) => (s, none)
        | (s, some bs) => ({ s with fresh := s.fresh + z }, some (out ++ bs))) (s, some [])

/-- R322: of the elements that write one byte, one gives its value; which one is free (log entry 4). -/
def settleWrites (fresh : Nat) (l : List (Nat × Byte)) : List (Nat × Byte) :=
  (l.foldl (fun (acc : Nat × List (Nat × Byte)) p =>
    if acc.2.any (fun q => q.1 == p.1) then
      (acc.1 + 1, if (Config.freeWord acc.1).getLsbD 0 then acc.2.map (fun q => if q.1 = p.1 then p else q) else acc.2)
    else (acc.1, acc.2 ++ [p])) (fresh, [])).2

/-- R447: words of a block's store that the bytes cover whole lose their marks. -/
def Block.storeBytes (b : Block) (bs : List (Nat × Byte)) : Block :=
  let b := bs.foldl (fun (b : Block) p => b.setByte p.1 p.2) b
  let whole (w : Nat) : Bool := (List.range 4).all (fun j => bs.any (fun p => p.1 == 4 * w + j))
  let ws := (bs.map (fun p => p.1 / 4)).eraseDups.filter whole
  { b with poison := ws.foldl (fun t w => Tbl.del t w) b.poison, ecc := ws.foldl (fun t w => Tbl.del t w) b.ecc }
/-- R447: bytes of a block's tiles; words that they cover whole lose their marks. -/
def Block.tileBytes (b : Block) (bs : List (Nat × Byte)) : Block :=
  let whole (w : Nat) : Bool := (List.range 4).all (fun j => bs.any (fun p => p.1 == 4 * w + j))
  let ws := (bs.map (fun p => p.1 / 4)).eraseDups.filter whole
  { b with
    tiles := bs.foldl (fun t p => Tbl.set 0 t p.1 p.2) b.tiles
    tilePoison := ws.foldl (fun t w => (List.range 4).foldl (fun t j => Tbl.del t (4 * w + j)) t) b.tilePoison
    tileEcc := ws.foldl (fun t w => Tbl.del t w) b.tileEcc }

/-- Writes the bytes of a destination side. -/
def State.writeSide (s : State) (a : Agent) (l : List Spot) (x : Option Xlat) (z : Nat) (data : List Byte) : State :=
  let at_ (f : Spot → Option Nat) : List (Nat × Byte) :=
    settleWrites s.fresh ((List.range l.length).flatMap (fun i =>
      match l[i]?.bind f with
      | some p => (List.range z).map (fun j => (p + j, data.getD (i * z + j) 0))
      | none => []))
  let s1 := { s with fresh := s.fresh + l.length * z }
  let s1 := match x with
    | some x => s1.engineWrite a x (at_ (fun p => match p with
        | .hbm pa => some pa
        | _ => none))
    | none => s1
  let ks := (l.filterMap (fun p => match p with
    | .store k _ | .tile k _ => some k
    | _ => none)).eraseDups
  ks.foldl (fun s k => s.modBlock k (fun b =>
    let b := b.storeBytes (at_ (fun p => match p with
      | .store k' off => if k' = k then some off else none
      | _ => none))
    b.tileBytes (at_ (fun p => match p with
      | .tile k' o => if k' = k then some o else none
      | _ => none)))) s1

/-! ### Requests -/

def CopyCtx.req (c : CopyCtx) (n : DWord) : Option CopyReq := c.reqs.find? (fun r => r.n == n)
def CopyCtx.setReq (c : CopyCtx) (r : CopyReq) : CopyCtx := { c with reqs := c.reqs.map (fun x => if x.n = r.n then r else x) }
def State.modCopy (s : State) (bk : Nat) (f : CopyCtx → CopyCtx) : State := s.modBlock bk (fun b => { b with copy := f b.copy })

def SegState.isFix : SegState → Bool
  | .fix .. => true
  | _ => false
def SegState.isTodo : SegState → Bool
  | .todo => true
  | _ => false
def SegState.held : SegState → Bool
  | .fix h _ _ _ _ _ _ _ _ => h
  | _ => false

/-- R277: TLC moves past every finished request. -/
def CopyCtx.advance (c : CopyCtx) : CopyCtx :=
  let tlc := (List.range c.reqs.length).foldl (fun (t : DWord) _ =>
    match c.req (t + 1) with
    | some r => if r.finished then t + 1 else t
    | none => t) c.tlc
  { c with
    tlc := tlc
    reqs := c.reqs.filter (fun r => !r.finished || tlc < r.n || (r.error.isSome && !r.raised) ||
      decide (c.submitted.toNat < r.n.toNat + 256)) }

/-- R316: requests enter the queue from the ring in ascending number. -/
def CopyCtx.enter (c : CopyCtx) : CopyCtx :=
  c.reqs.foldl (fun c r =>
    let used := (c.reqs.filter (fun x => x.inQueue && !x.finished)).length
    if used < 8 && !r.inQueue && !r.finished && !r.deposit then c.setReq { r with inQueue := true } else c) c

/-- Whether the deposit of a member that is not placed yet is held at the hub (R330). -/
inductive Member where
  | live (block : Nat)
  | saved (tag : BitVec 13) (place : Nat)
  | waiting
  | gone
  deriving DecidableEq, Repr

/-- R329, R330: where a member block of a launch stands. -/
def State.memberAt (s : State) (launch m : Nat) : Member :=
  match s.gangs.find? (fun g => g.launch == launch && g.number == m / 8) with
  | none =>
    match s.launch launch with
    | some l => if l.nextGang ≤ m / 8 then .waiting else .gone
    | none => .gone
  | some g =>
    if g.killed.isSome then .gone
    else
      match g.blocks.find? (fun k => (s.block k).any (fun b => b.index == m % 8)), g.saved.findIdx? (fun b => b.index == m % 8) with
      | some k, _ => .live k
      | none, some i => .saved g.tag i
      | none, none => .gone

/-- The deposits that request `n` of a block still has to see written (R325, R330). -/
def State.owes (s : State) (bk : Nat) (n : DWord) : Bool :=
  s.deposits.any (fun d => d.owner == bk && d.ownerN == n && s.memberAt d.launch d.member != .waiting)

/-- R277, R241: a store of the request at a peer is not acknowledged yet. -/
def State.atPeer (s : State) (bk : Nat) (n : DWord) : Bool := s.peerStores.any (fun p => p.copy == some (bk, n))
/-- R322, R241: the elements of a written segment that lie at peers are on their way there. -/
def State.peerWrites (s : State) (bk : Nat) (r : CopyReq) (l : List Spot) : State :=
  let ps := l.filterMap (fun p => match p with
    | .peer pa => some (peerOf pa)
    | _ => none)
  ps.eraseDups.foldl (fun (s : State) p =>
    { s with
      nextOrder := s.nextOrder + 1
      peerStores := s.peerStores ++ [⟨s.nextOrder, r.strand, r.agent.tract, p, ps.count p, r.agent.launch, r.agent.gang, s.nextFlight, some (bk, r.n)⟩] }) s

/-- R325: a request whose every segment has been performed or has failed completes. -/
def State.settleCopy (s : State) (bk : Nat) (n : DWord) : State :=
  match s.block bk with
  | none => s
  | some b =>
    match b.copy.req n with
    | none => s
    | some r =>
      if r.segs.all (fun g => !g.isTodo && !g.isFix) && !s.owes bk n && !s.atPeer bk n && !r.deposit then
        s.modCopy bk (fun c => ((c.setReq { r with finished := true }).advance).enter)
      else s

/-- The first error in segment order (R324). -/
def firstError (l : List SegState) : Option (Cause × Bool × DWord) :=
  l.findSome? (fun g => match g with
    | .error c d a => some (c, d, a)
    | _ => none)

/-- Records the state of a segment. -/
def State.setSeg (s : State) (bk : Nat) (n : DWord) (i : Nat) (g : SegState) : State :=
  s.modCopy bk (fun c => match c.req n with
    | some r =>
      let segs := r.segs.set i g
      c.setReq { r with segs := segs, error := firstError segs }
    | none => c)

/-- R329: a segment of a multicast has been read (`some`), or has failed: its bytes go to every deposit of the request, with the clock of
the cluster that has read them (10 R279). -/
def State.feed (s : State) (bk : Nat) (n : DWord) (first z : Nat) (data : Option (List Byte)) : State :=
  { s with deposits := s.deposits.map (fun d =>
      if d.owner = bk && d.ownerN = n then
        { d with
          left := d.left - 1
          stamp := if bk < 1536 then clockMax d.stamp (s.cluster (clusterOf (bk / 8))).clock else d.stamp
          data := match data with
            | some bs => (List.range bs.length).foldl (fun t j => Tbl.put t (first * z + j) (bs.getD j 0)) d.data
            | none => d.data }
      else d) }

/-- R181, R192, R193: how a side's device memory stands for a request. -/
def State.sideTurn (s : State) (r : CopyReq) (l : List Spot) (x : Option Xlat) (z : Nat) (store : Bool) : EngineTurn :=
  match x with
  | none => .goes
  | some x => s.engineHeld r.agent x ((r.miss.map (fun m => m.1)).getD 0) (r.miss.map (fun m => m.2.1)) (l.flatMap (fun p => match p with
    | .hbm pa => [pa, pa + z - 1]
    | _ => [])) store
/-- R192: a segment of a request is tried: a rejected miss makes the request one older, one that waits leaves it as it is, and one that
is served makes it young again. -/
def State.noteTurn (s : State) (bk : Nat) (r : CopyReq) (t : EngineTurn) : State :=
  match t with
  | .waits => s
  | .goes => if r.miss.isNone then s else s.modCopy bk (fun c => match c.req r.n with
    | some q => c.setReq { q with miss := none }
    | none => c)
  | .rejected k => s.modCopy bk (fun c => match c.req r.n with
    | some q => c.setReq { q with miss := some (match q.miss with
        | some (age, t, h) => if h = k then (age + 1, t, k) else (1, s.dclk, k)
        | none => (1, s.dclk, k)) }
    | none => c)

/-- R321 to R324: attempts segment `i` of a request; the answer is its new state. -/
def State.attempt (s : State) (bk : Nat) (b : Block) (r : CopyReq) (i : Nat) : State × SegState :=
  match (segments r.src r.dst)[i]? with
  | none => (s, .done)
  | some (n, len) =>
    let z := shSize r.src
    let bad (s : State) (c : Cause) (dst : Bool) : State × SegState :=
      ((if r.group.isSome then s.feed bk r.n n z none else s),
        .error c dst (BitVec.ofInt 64 (shAt (if dst then r.dst else r.src) n)))
    let hold (c : Cause) (dst : Bool) (addr lo hi : Nat) (scanner : Bool) : SegState :=
      .fix false c dst (BitVec.ofNat 64 addr) lo hi r.agent.asid r.agent.vmid scanner
    match s.side bk b r.agent r.src n len false with
    | (s, .wait) => (s, .todo)
    | (s, .fix c a lo hi w) => (s, hold c false a lo hi w)
    | (s, .err c) => bad s c false
    | (s, .ok from_ x) =>
      let turn := s.sideTurn r from_ x z false
      if turn ≠ .goes then (s.noteTurn bk r turn, .todo)
      else if r.group.isSome then
        match s.readSide r.agent from_ x z with
        | (s, none) => bad s .poisonConsumed false
        | (s, some data) => ((s.noteTurn bk r .goes).feed bk r.n n z (some data), .done)
      else
        match s.side bk b r.agent r.dst n len true with
        | (s, .wait) => (s, .todo)
        | (s, .fix c a lo hi w) => (s, hold c true a lo hi w)
        | (s, .err c) => bad s c true
        | (s, .ok spots x') =>
          let turn := s.sideTurn r spots x' z true
          if turn ≠ .goes then (s.noteTurn bk r turn, .todo)
          else
            match s.readSide r.agent from_ x z with
            | (s, none) => bad s .poisonConsumed false
            | (s, some data) => (((s.noteTurn bk r .goes).writeSide r.agent spots x' z data).peerWrites bk r spots, .done)

/-- R323: fix-up entries of a context. -/
def CopyCtx.fixups (c : CopyCtx) : Nat := c.reqs.foldl (fun n r => n + (r.segs.filter SegState.isFix).length) 0

/-- R316: the engine may start the request. -/
def CopyCtx.mayStart (c : CopyCtx) (r : CopyReq) : Bool :=
  r.inQueue && !r.finished && c.reqs.all (fun x => r.n ≤ x.n || x.deposit || x.inQueue || x.finished)

/-- R321, R324: some of a request's segments have been performed or have failed, and it is not complete. -/
def CopyReq.inProgress (r : CopyReq) : Bool := !r.finished && !r.deposit && r.segs.any (fun g => !g.isTodo)
/-- R326, R426: a pre-emption lets no new segment of the request start, unless it drains. -/
def State.copyGoesOn (s : State) (bk : Nat) (r : CopyReq) : Bool :=
  match s.preemptOf bk with
  | none => true
  | some p => p.course == 0 && r.inProgress

/-- R321. -/
def execCopySegment (block request segment : Nat) (s : State) : Out :=
  .next (match s.block block with
    | none => s
    | some b =>
      match b.copy.req (BitVec.ofNat 64 request) with
      | none => s
      | some r =>
        if !b.copy.mayStart r || !s.copyGoesOn block r || 32 ≤ b.copy.fixups || !(r.segs[segment]?.any SegState.isTodo) then s
        else
          match s.attempt block b r segment with
          | (t, g) => s.unlessFull ((t.setSeg block r.n segment g).settleCopy block r.n))

/-- R323, R472, R225: the kernel hears of a held entry, and of a STAGE2 the tract's hypervisor, with the detail of its walk.  The context
is that of the submitting strand, ended or not. -/
def State.postCopyFault (s : State) (r : CopyReq) (c : Cause) (dst : Bool) (addr : DWord) : State :=
  let who : Word × DWord := match s.strand r.strand with
    | some st => (if st.ctxBase = r.ctx then st.strandId else r.who, r.ctx)
    | none => (r.who, r.ctx)
  if c == .stage2 then
    let d : Detail := match s.walkOnly (clusterOf r.agent.core) (r.agent.space false) (if dst then .write else .read) addr.toNat with
      | .error (_, d) => d
      | .ok _ => 0
    { s with hyper := s.hyper ++ [⟨r.agent.tract, who.1, who.2, r.n, addr, d⟩] }
  else s.post 2 c.code who.1.toNat who.2.toNat (r.n.toNat + addr.toNat * 2 ^ 64)

/-- R323: replays one fix-up entry; one that faults again is held, with an event but for the scanner's; one that cannot go now stays
to be replayed. -/
def State.replayFix (s : State) (bk : Nat) (n : DWord) (i : Nat) : State :=
  match s.block bk with
  | none => s
  | some b =>
    match b.copy.req n with
    | none => s
    | some r =>
      match s.attempt bk b r i with
      | (s, .fix _ c d a lo hi as vm scanner) =>
        let s := s.setSeg bk n i (.fix true c d a lo hi as vm scanner)
        if scanner then s else s.postCopyFault r c d a
      | (s, .todo) => match r.segs[i]? with
        | some (.fix _ c d a lo hi as vm scanner) => s.setSeg bk n i (.fix false c d a lo hi as vm scanner)
        | _ => s
      | (s, g) => s.setSeg bk n i g

/-- R335: an entry under a tag and at an address is still to be replayed. -/
def SegState.awaits (g : SegState) (addr tag : Nat) : Bool :=
  match g with
  | .fix false _ _ _ lo hi as vm _ => as.toNat == bits tag 15 0 && vm.toNat == bits tag 23 16 && lo ≤ addr && decide (addr < hi)
  | _ => false
/-- R335: how many such entries a context holds. -/
def CopyCtx.awaiting (c : CopyCtx) (addr tag : Nat) : Nat :=
  c.reqs.foldl (fun n r => n + (r.segs.filter (fun g => g.awaits addr tag)).length) 0
/-- R335, R326: how many every context holds, with those of the saved blocks. -/
def State.fixqLeft (s : State) (addr tag : Nat) : Nat :=
  s.blocks.foldl (fun n p => n + p.2.copy.awaiting addr tag) 0 +
  s.gangs.foldl (fun n g => g.saved.foldl (fun n b => n + b.copy.awaiting addr tag) n) 0
/-- R335: a `fixq` in flight has nothing left to wait for. -/
def State.fixqOver (s : State) (f : Flight) : Bool :=
  match f.op with
  | .fixq addr tag => s.fixqLeft addr tag == 0
  | _ => false
/-- R335: every `fixq` whose entries have been replayed completes. -/
def State.endFixqs (s : State) : State := (s.flights.filter s.fixqOver).foldl State.completeFlight s

/-- R323: the fix-up entries of a request in segment order, once its other segments have been performed; R335: the `fixq` that waited
for them completes. -/
def execFixupReplay (block request : Nat) (s : State) : Out :=
  .next (State.endFixqs (match s.block block with
    | none => s
    | some b =>
      match b.copy.req (BitVec.ofNat 64 request) with
      | none => s
      | some r =>
        if r.segs.any SegState.isTodo || !s.copyGoesOn block r then s
        else
          let is_ := (List.range r.segs.length).filter (fun i => r.segs[i]?.any (fun g => g.isFix && !g.held))
          s.unlessFull ((is_.foldl (fun s i => s.replayFix block r.n i) s).settleCopy block r.n)))

/-- R323: an entry held by the scanner is tried again. -/
def execScannerHoldRetry (block request segment : Nat) (s : State) : Out :=
  .next (match (s.block block).bind (fun b => b.copy.req (BitVec.ofNat 64 request)) with
    | none => s
    | some r =>
      if !s.copyGoesOn block r then s
      else
      match r.segs[segment]? with
      | some (.fix true _ _ _ _ _ _ _ true) => s.unlessFull ((s.replayFix block r.n segment).settleCopy block r.n)
      | _ => s)

/-! ### Multicast deposits -/

/-- R329: a number is reserved in a member's context. -/
def CopyCtx.reserve (c : CopyCtx) (a : Agent) : CopyCtx :=
  { c with
    submitted := c.submitted + 1
    reqs := c.reqs ++ [⟨c.submitted + 1, noStrand, a, 0, 0, 0, 0, none, true, false, [], false, none, false, none, 0, 0⟩] }
/-- A reserved number is complete, with the error of its own bounds (R330), and the submitter's clock for those who acquire it
(10 R279). -/
def CopyCtx.deposited (c : CopyCtx) (n : DWord) (e : Option (Cause × Bool × DWord)) (stamp : BitVec 20) : CopyCtx :=
  let c := { c with clocks := c.clocks ++ [(n, stamp)] }
  match c.req n with
  | some r =>
    if r.deposit then (c.setReq { r with finished := true, error := e }).advance
    else c.setReq { r with error := r.error.orElse (fun _ => e) }
  | none => c

/-- The segments of a deposit that were read and lie inside the member, with where their elements go, and the first error. -/
def Deposit.parts (d : Deposit) (spot : Nat → Except Cause Spot) : List (Nat × List Spot) × Option (Cause × Bool × DWord) :=
  (segments d.src d.dst).foldl (fun acc g =>
    if (Tbl.find d.data (g.1 * shSize d.src)).isNone then acc
    else
      match collectSpots ((List.range g.2).map (fun j => spot (g.1 + j))) with
      | .ok l => (acc.1 ++ [(g.1, l)], acc.2)
      | .error c => (acc.1, acc.2.orElse (fun _ => some (c, true, BitVec.ofInt 64 (shAt d.dst g.1))))) ([], none)
def Deposit.bytes (d : Deposit) (n len : Nat) : List Byte :=
  (List.range (len * shSize d.src)).map (fun j => Tbl.get 0 d.data (n * shSize d.src + j))

/-- R330: the deposit is written into a live member. -/
def State.depositLive (s : State) (d : Deposit) (k : Nat) (b : Block) (a : Agent) : State :=
  match d.parts (s.nearSpot k b d.dst true) with
  | (l, e) =>
    let s := l.foldl (fun s p => s.writeSide a p.2 none (shSize d.src) (d.bytes p.1 p.2.length)) s
    s.modCopy k (fun c => c.deposited d.n e d.stamp)

/-- R282, R330: the deposit is written into a saved member's image, and its saved context. -/
def State.depositSaved (s : State) (d : Deposit) (g : Gang) (i : Nat) (b : Block) : State :=
  let spot (n : Nat) : Except Cause Spot :=
    if shTarget d.dst = 1 then
      if shAt d.dst n < 0 || 32768 < shAt d.dst n + (shSize d.dst : Int) then .error .badWindow
      else .ok (.tile 0 (shTile d.dst * 32768 + (shAt d.dst n).toNat))
    else if shAt d.dst n < 0 || !b.inRegion (shAt d.dst n).toNat (shSize d.dst) then .error .badWindow
    else if b.meetsStatus (shAt d.dst n).toNat (shSize d.dst) then .error .permission
    else .ok (.store 0 (shAt d.dst n).toNat)
  match d.parts spot with
  | (l, e) =>
    let at_ (p : Spot) : Nat := match p with
      | .tile _ o => b.sectionAt 8 + o
      | .store _ off => if off < 0x1000000 then b.sectionAt 6 + off else b.sectionAt 7 + (off - 0x1000000)
      | _ => 0
    let s := l.foldl (fun s p => (List.range p.2.length).foldl (fun s j =>
      match p.2[j]? with
      | some q => s.writeVa (s.gangSpace g) (b.saveSlot.toNat + at_ q) (shSize d.src) (bytesValue (d.bytes (p.1 + j) 1))
      | none => s) s) s
    let bytes (f : Spot → Option Nat) : List (Nat × Byte) := l.flatMap (fun p => (List.range p.2.length).flatMap (fun j =>
      match p.2[j]?.bind f with
      | some o => (List.range (shSize d.src)).map (fun i => (o + i, (d.bytes (p.1 + j) 1).getD i 0))
      | none => []))
    let b' := (b.storeBytes (bytes (fun q => match q with
        | .store _ off => some off
        | _ => none))).tileBytes (bytes (fun q => match q with
        | .tile _ o => some o
        | _ => none))
    { s with gangs := s.gangs.map (fun (x : Gang) => if x.tag = g.tag then { x with
        saved := x.saved.set i { b' with copy := b.copy.deposited d.n e d.stamp } } else x) }

def State.dropDeposit (s : State) (d : Deposit) : State := { s with deposits := s.deposits.filter (fun x => x.id != d.id) }

/-- R330: a deposit whose source has been read reaches its member. -/
def State.deliverDeposit (s : State) (d : Deposit) (a : Agent) : State :=
  if d.left ≠ 0 then s
  else
    match s.memberAt d.launch d.member with
    | .live k =>
      match s.block k with
      | some b => ((s.depositLive d k b a).dropDeposit d).settleCopy d.owner d.ownerN
      | none => s
    | .saved tag i =>
      match s.gang tag with
      | some g =>
        match g.saved[i]? with
        | some b => ((s.depositSaved d g i b).dropDeposit d).settleCopy d.owner d.ownerN
        | none => s
      | none => s
    | .waiting => s
    | .gone => (s.dropDeposit d).settleCopy d.owner d.ownerN

/-- An agent of no strand, for deposits, which reach no device memory. -/
def Agent.none : Agent := ⟨0, 0, 0, 0, 0, 0, 0, 0, false, 0, 0, 0⟩

/-- R330. -/
def execMulticastDeposit (deposit : Nat) (s : State) : Out :=
  .next (match s.deposits.find? (fun d => d.id == deposit) with
    | some d => s.deliverDeposit d Agent.none
    | none => s)

/-- R329, R330: a member that is placed takes the numbers reserved for it, those of deposits that have been dropped among them, and the
deposits held at the hub are written. -/
def State.adoptDeposits (s : State) (k : Nat) : State :=
  match s.block k with
  | none => s
  | some b =>
    let m := s.memberOf b
    let ds := s.deposits.filter (fun d => d.launch == b.launch && d.member == m)
    let count := ((s.launch b.launch).map (fun l => Tbl.get 0 l.reserved m)).getD 0
    let s := s.modCopy k (fun c => (List.range count).foldl (fun c _ => c.reserve Agent.none) c)
    let s := s.modLaunch b.launch (fun l => { l with reserved := Tbl.del l.reserved m })
    ds.foldl (fun s d => s.deliverDeposit d Agent.none) s

/-! ### The words -/

/-- R395: RATE of a slot. -/
def State.copyRate (s : State) (core slot : Nat) : Nat := bits (s.dpr core slot) 123 120 + 1

/-- R327: bytes not yet moved of a request. -/
def CopyReq.unmoved (r : CopyReq) : Nat :=
  ((segments r.src r.dst).zip r.segs).foldl (fun n p => if p.2.isTodo || p.2.isFix then n + p.1.2 * shSize r.src else n) 0

/-- R327. -/
def State.promise (s : State) (b : Block) (core bytes members : Nat) (src dst : Shape) : DWord :=
  let dev (h : Shape) : Bool := shTarget h == 0 && addrKind (shBase h) == 0
  let q := b.copy.reqs.foldl (fun n r => if r.finished || r.deposit then n else n + r.unmoved) 0
  let rate := 8 * s.copyRate core b.domSlot
  s.dclk + BitVec.ofNat 64 ((if dev src || dev dst then 256 else 32) + (q + bytes + 16 * members + rate - 1) / rate)

/-- R332 check 3: a window that an address side may not name. -/
def State.sideWindow (s : State) (bk : Nat) (b : Block) (h : Shape) : Option Cause :=
  if shTarget h ≠ 0 then none
  else
    match s.windowOf bk (s.gangSize b) (shBase h) with
    | .ok (.mem true) => some .badWindow
    | .ok _ => none
    | .error c => some c

/-- R316: writes a request to the overflow ring: 256 bytes in the part's own form (log entry 4). -/
def State.ringWrite (s : State) (b : Block) (q : Nat) (n : DWord) : State × Option (Cause × Detail) :=
  let slots := b.copy.quota - 8
  let d := s.launchDesc b.launch q
  let stride := bits d 511 448
  let at_ := b.saveSlot.toNat + stride - 256 * slots + 256 * (n.toNat % max 1 slots)
  match s.vaFault (spaceOfDesc d) at_ 256 .write with
  | some e => (s, some e)
  | none =>
    ((List.range 32).foldl (fun s j =>
      ({ s with fresh := s.fresh + 1 }).writeVa (spaceOfDesc d) (at_ + 8 * j) 8 (Config.freeDWord s.fresh).toNat) s, none)

/-- R329: one member's number is reserved, and its deposit waits for the source. -/
def State.reserveMember (s : State) (bk : Nat) (b : Block) (r : CopyReq) (m : Nat) : State :=
  let mk (n : DWord) : Deposit := ⟨s.nextOrder, b.launch, m, r.src, r.dst, n, [], r.segs.length, bk, r.n, (s.cluster (clusterOf r.agent.core)).clock⟩
  let put (s : State) (d : Deposit) : State := { s with deposits := s.deposits ++ [d], nextOrder := s.nextOrder + 1 }
  match s.memberAt b.launch m with
  | .live k =>
    if k = bk then put s (mk r.n)
    else
      match s.block k with
      | some x => put (s.modCopy k (fun c => c.reserve r.agent)) (mk (x.copy.submitted + 1))
      | none => s
  | .saved tag i =>
    match (s.gang tag).bind (fun g => g.saved[i]?) with
    | some x =>
      put { s with gangs := s.gangs.map (fun (g : Gang) => if g.tag = tag then { g with
        saved := g.saved.set i { x with copy := x.copy.reserve r.agent } } else g) } (mk (x.copy.submitted + 1))
    | none => s
  | .waiting =>
    let n := ((s.launch b.launch).map (fun l => Tbl.get 0 l.reserved m)).getD 0 + 1
    put (s.modLaunch b.launch (fun l => { l with reserved := Tbl.set 0 l.reserved m n })) (mk (BitVec.ofNat 64 n))
  | .gone => s

/-- R332: `cpy` (`group` none) and `cpym`. -/
def Ctx.submitCopy (c : Ctx) (d : BitVec 8) (t sr : BitVec 4) (group : Option Nat) : State :=
  match c.block with
  | none => c.s
  | some b =>
    if c.act = 0 then c.over c.s
    else
      let src := Tbl.get 0 b.shapes sr.toNat
      let dst := Tbl.get 0 b.shapes t.toNat
      let members := match group with
        | some g => (c.s.launch b.launch).elim [] (fun l => Tbl.get [] l.groups g)
        | none => []
      let bytes := shCount src * shSize src
      if !shValid src || !shValid dst || shSize src != shSize dst || shCount src != shCount dst || 2 ^ 32 < bytes ||
          (shTarget src == 1 && b.tcount ≤ shTile src) || (shTarget dst == 1 && b.tcount ≤ shTile dst) ||
          (group.isSome && (shTarget dst == 0 || members.isEmpty)) then c.raiseWide .illegalOperand 0
      else if !shAligned src || !shAligned dst then c.raiseWide .misaligned 0
      else
        match (c.s.sideWindow c.st.block b src).orElse (fun _ => c.s.sideWindow c.st.block b dst) with
        | some e => c.raiseWide e 0
        | none =>
          let open_ := (b.copy.reqs.filter (fun r => !r.finished && !r.deposit)).length
          if b.copy.quota ≤ open_ then c.raiseWide .queueQuota 0
          else
            let n := b.copy.submitted + 1
            let full := 8 ≤ (b.copy.reqs.filter (fun r => r.inQueue && !r.finished)).length
            match (if full then c.s.ringWrite b c.st.queue n else (c.s, none)) with
            | (_, some (e, dt)) => c.raiseWide e dt
            | (s, none) =>
              let p := s.promise b c.core bytes members.length src dst
              let r : CopyReq := ⟨n, c.sid, c.st.agent c.s c.sid, src, dst, bytes, p, group, false, !full,
                List.replicate (segments src dst).length .todo, false, none, false, none, c.st.strandId, c.st.ctxBase⟩
              let far := s.copyScope r.agent src dst == 5
              let s := s.modCopy c.st.block (fun x => { x with
                submitted := n, reqs := x.reqs ++ [r], far := x.far.orElse (fun _ => if far then some n else none) })
              let s := members.foldl (fun s m => s.reserveMember c.st.block b r m) s
              let run (st : Strand) (k v : Nat) : Strand := st.setRegs true (d.toNat + k) c.act (Vals.gen (fun _ => v))
              c.over (s.modStrand c.sid (fun st => run (run st 0 n.toNat) 2 p.toNat))

/-- R332. -/
def execCpy (d : BitVec 8) (t sg : BitVec 4) (s : State) : Out := strandWord (.cpy d t sg) (fun c => c.submitCopy d t sg none) s
/-- R329, R332. -/
def execCpym (d : BitVec 8) (t sg : BitVec 4) (g : BitVec 8) (s : State) : Out :=
  strandWord (.cpym d t sg g) (fun c => c.submitCopy d t sg (some g.toNat)) s

/-- R328: the estimate of a request: all ones while an entry of it is held, else a value the spec does not give (log entry 4). -/
def State.estimate (s : State) (r : Option CopyReq) : Nat :=
  match r with
  | some r => if r.segs.any SegState.held then 2 ^ 64 - 1 else (Config.freeDWord s.fresh).toNat
  | none => (Config.freeDWord s.fresh).toNat

/-- R333: the status of request `n`. -/
def State.copyStatus (s : State) (b : Block) (n : DWord) : Nat :=
  match b.copy.req n with
  | none => 2 * 2 ^ 62
  | some r =>
    if r.n.toNat + 256 ≤ b.copy.submitted.toNat then 2 * 2 ^ 62
    else if r.finished then
      match r.error with
      | some (c, _, _) => 3 * 2 ^ 62 + c.code * 2 ^ 48
      | none => 2 * 2 ^ 62
    else
      (if r.segs.any (fun g => !g.isTodo) then 2 ^ 62 else 0) + (if r.segs.any SegState.held then 2 ^ 61 else 0) +
        s.estimate (some r) % 2 ^ 48

/-- R333. -/
def execCpyq (d a : BitVec 8) (s : State) : Out :=
  strandWord (.cpyq d a) (fun c =>
    match c.block with
    | none => c.s
    | some b =>
      let v := c.plain true a
      if (Mask.lanes c.act).any (fun L => v.at L == 0 || b.copy.submitted.toNat < v.at L) then c.raiseWide .illegalOperand 0
      else
        let x := Vals.gen (fun L => ({ c.s with fresh := c.s.fresh + L }).copyStatus b (BitVec.ofNat 64 (v.at L)))
        let s := { c.s with fresh := c.s.fresh + 32 }
        c.over (s.setStrand c.sid (c.st.setRegs true d.toNat c.act x))) s

/-- R334. -/
def execSleepu (a : BitVec 8) (q : BitVec 1) (s : State) : Out :=
  strandWord (.sleepu a q) (fun c =>
    match c.act.lowest with
    | none => c.done c.st
    | some L =>
      c.hold c.s (.promise (BitVec.ofNat 64 ((c.plain true a).at L)) (BitVec.ofNat 64 ((c.plain true (a + 2)).at L)) (q == 1))) s

/-- R334: DCLK has reached the promise of a sleeping strand, and its request is looked at. -/
def execPromiseDue (strand : Nat) (slot : Bool) (s : State) : Out :=
  .next (match (s.strand strand).bind (fun st => (st.frag slot).map (fun f => (st, f))) with
    | none => s
    | some (st, f) =>
      match f.hold, s.block st.block, decode f.word with
      | .promise n t quiet, some b, .ok (.sleepu a _) =>
        if s.dclk < t || st.stopped || st.halted || st.spilled || st.openFault.isSome then s
        else
          let m := activeMask st f (opcodeOf f.word)
          if n ≤ b.copy.tlc then ((s.endHold strand slot).acquireCounter (coreOf strand) st.block 0 n).raiseEngine strand slot f.pc 0 n m
          else
            let e := s.estimate (b.copy.req n)
            let s := { s with fresh := s.fresh + 1 }
            let s := s.modStrand strand (fun st => st.setRegs true (a.toNat + 2) m (Vals.gen (fun _ => e)))
            let s := s.endHold strand slot
            if quiet then s
            else
              s.raiseEnded strand slot f.pc
                (Raised.wide .promiseMiss m (BitVec.ofNat 512 (n.toNat + t.toNat * 2 ^ 64 + e * 2 ^ 128)))
      | _, _, _ => s)

/-- R335: a held entry is named by a tag and an address. -/
def SegState.named (g : SegState) (addr tag : Nat) : Bool :=
  match g with
  | .fix true _ _ _ lo hi as vm _ => as.toNat == bits tag 15 0 && vm.toNat == bits tag 23 16 && lo ≤ addr && decide (addr < hi)
  | _ => false

/-- R335: every matching held entry of every context is replayed once, or fails with its own cause. -/
def State.fixq (s : State) (fail : Bool) (addr tag : Nat) : State :=
  (s.blocks.map Prod.fst).foldl (fun s bk =>
    match s.block bk with
    | none => s
    | some b =>
      b.copy.reqs.foldl (fun s r =>
        let is_ := (List.range r.segs.length).filter (fun i => r.segs[i]?.any (fun g => g.named addr tag))
        (is_.foldl (fun s i =>
          if fail then
            match r.segs[i]? with
            | some (.fix _ c d a _ _ _ _ _) =>
              let s := if r.group.isSome then s.feed bk r.n 0 0 none else s
              s.setSeg bk r.n i (.error c d a)
            | _ => s
          else s.replayFix bk r.n i) s).settleCopy bk r.n) s) s

/-- R335, R326: the same for the contexts saved with a gang: an entry to be retried is replayed when its block has come back, one
that fails does so at once (log entry 50). -/
def State.fixqSaved (s : State) (fail : Bool) (addr tag : Nat) : State :=
  let hit (g : SegState) : Bool := g.named addr tag
  let entry (g : SegState) : SegState := match g with
    | .fix _ c d a lo hi as vm w => if !hit g then g else if fail then .error c d a else .fix false c d a lo hi as vm w
    | _ => g
  let req (r : CopyReq) : CopyReq :=
    let segs := r.segs.map entry
    { r with segs := segs, error := firstError segs }
  let fed := if fail then s.gangs.foldl (fun s g => g.saved.foldl (fun s b => b.copy.reqs.foldl (fun s r =>
      if r.group.isSome then
        (r.segs.filter hit).foldl (fun s _ => s.feed (memberKey g.tag b.index) r.n 0 0 none) s
      else s) s) s) s
    else s
  { fed with gangs := fed.gangs.map (fun (g : Gang) =>
      { g with saved := g.saved.map (fun (b : Block) => { b with copy := { b.copy with reqs := b.copy.reqs.map (fun r =>
        if r.segs.any hit then req r else r) } }) }) }

/-- R335: the shared part of the two kinds.  A word that leaves entries to be replayed is in flight until they have been (log entry
50). -/
def Ctx.fixqWord (c : Ctx) (fail : Bool) (a b : BitVec 8) : State :=
  match c.act.lowest with
  | none => c.over c.s
  | some L =>
    if !c.st.rightKernel then c.raiseWide .permission 0
    else
      let addr := (c.plain true a).at L
      let tag := (c.plain false b).at L
      let s := (c.s.fixq fail addr tag).fixqSaved fail addr tag
      if s.fixqLeft addr tag ≤ c.s.fixqLeft addr tag then c.over s
      else c.launch s false ({ c with s := s }.flight (.fixq addr tag))
/-- R335. -/
def execFixqRetry (a b : BitVec 8) (s : State) : Out := strandWord (.fixqRetry a b) (fun c => c.fixqWord false a b) s
/-- R335. -/
def execFixqFail (a b : BitVec 8) (s : State) : Out := strandWord (.fixqFail a b) (fun c => c.fixqWord true a b) s

/-- R336. -/
def execShld (sg : BitVec 4) (a : BitVec 8) (s : State) : Out := accessWord (.shld sg a) s
/-- R336: the register's 64 bytes, as they stand at issue. -/
def execShst (sg : BitVec 4) (a : BitVec 8) (s : State) : Out :=
  strandWord (.shst sg a) (fun c =>
    match askOf (.shst sg a) c.type, c.block with
    | some x, some b =>
      let h := Tbl.get 0 b.shapes sg.toNat
      c.access { x with image := h.toNat } false
    | _, _ => c.s) s
/-- R336: one word of a shape register. -/
def execShset (w sg : BitVec 4) (a : BitVec 8) (s : State) : Out :=
  strandWord (.shset w sg a) (fun c =>
    match c.act.lowest with
    | none => c.done c.st
    | some L =>
      let x := (c.source 1 false a).at L
      c.doneIn (c.s.modBlock c.st.block (fun b =>
        let h := (Tbl.get 0 b.shapes sg.toNat).toNat
        let new := h - bits h (32 * w.toNat + 31) (32 * w.toNat) * 2 ^ (32 * w.toNat) + x * 2 ^ (32 * w.toNat)
        { b with shapes := Tbl.set 0 b.shapes sg.toNat (shKept new) }))) s

/-! ### Stores at peers -/

/-- R241, R277: a store at a peer is over, and the copy request that made it may be. -/
def State.endPeerStore (s : State) (p : PeerStore) : State :=
  let s := { s with peerStores := s.peerStores.filter (fun q => q.id != p.id) }
  match p.copy with
  | some (bk, n) => s.settleCopy bk n
  | none => s

/-- R240, R241: the hub marks a peer gone. -/
def execPeerGone (tract peer : Nat) (s : State) : Out :=
  .next (if 16 ≤ tract || 256 ≤ peer then s
    else
      let at_ := s.peerAt tract peer
      let e := s.readN at_ 2
      let s := s.writeN at_ 2 (e / 2 % 128 * 2 + (e / 256 + 1) % 256 * 256)
      let mine (k : Nat) : Bool := (s.tractField tract 23 0).testBit k
      let keep (x : TlbEntry) : Bool := !(inPeer x.x.pa && peerOf x.x.pa == peer)
      let s := (s.clusters.map Prod.fst).foldl (fun s k =>
        let c := s.cluster k
        if mine k then s.setCluster k { c with tlb := c.tlb.filter keep } else s) s
      let s := (s.cores.map Prod.fst).foldl (fun s k =>
        let c := s.core k
        if mine (clusterOf k) then s.setCore k { c with tlb := c.tlb.filter keep } else s) s
      let gone := s.peerStores.filter (fun p => p.tract == tract && p.peer == peer)
      let s := gone.foldl State.loseStore s
      gone.foldl State.endPeerStore s)

/-- R241, R276: the peer has performed a store. -/
def execPeerStoreAck (store : Nat) (s : State) : Out :=
  .next ((s.peerStores.filter (fun p => p.id == store)).foldl State.endPeerStore s)

end Sys2Proof.Machine
end

