-- ==== Sys2Proof/Machine/Matrix.lean ====
section
/-!
DEFINITION. The arithmetic and the operand layout of the matrix array (14 R338 to R341, R360 to R364; 03 R55 to R59).
-/
namespace Sys2Proof.Machine

/-! ### Formats -/

/-- R338: the width class of an input format code. -/
def Stream.width (r : Stream) (code : Nat) : Nat := if code < 4 then (if qWidth (r.sq.getD code 0) ≤ 4 then 4 else 8) else 16
/-- R338: elements in a row of a tile. -/
def perRow (E : Nat) : Nat := 2048 / E
/-- R360: the value of an input element. -/
def Stream.decode (r : Stream) (code x : Nat) : Exact :=
  if code < 4 then narrowValue (r.sq.getD code 0) x else if code = 4 then Fmt.f16.decode x else Fmt.bf16.decode x
/-- R341: the kind of block scale that an input takes, 0 for none. -/
def Stream.scaleKind (r : Stream) (code : Nat) : Nat :=
  let k := if code < 4 then qScale (r.sq.getD code 0) else 0
  if k = 1 || k = 2 then k else 0
/-- R341: elements that share a scale. -/
def scaleGroup (kind : Nat) : Nat := if kind = 1 then 32 else 16
/-- R55: the value of a scale byte. -/
def scaleValue (kind x : Nat) : Exact :=
  if kind = 1 then (if x = 255 then .nan else .fin false 1 ((x : Int) - 127) false)
  else if kind = 2 then (if 128 ≤ x then .nan else narrowValue 0x00010739#32 x)
  else .int 1
/-- Fields of FMT (R358). -/
def Stream.af (r : Stream) : Nat := bits r.fmt.toNat 23 21
def Stream.bf (r : Stream) : Nat := bits r.fmt.toNat 20 18
def Stream.rnd (r : Stream) : Nat := bits r.fmt.toNat 17 15
def Stream.sat (r : Stream) : Bool := bits r.fmt.toNat 14 14 == 1
/-- R358: the tile run that is bound: first tile and length. -/
def Stream.run (r : Stream) : Option (Nat × Nat) := r.tiles.map (fun t => (bits t.toNat 23 20, bits t.toNat 19 16 + 1))

/-! ### Operands -/

def Block.tileByte (b : Block) (i : Nat) : Nat := (Tbl.get 0 b.tiles i).toNat
/-- R339: element `k` of row `y`, of width class `E`, in a run that begins at tile `t`. -/
def Block.tileElem (b : Block) (t y E k : Nat) : Nat :=
  let base := (t + k / perRow E) * 32768 + 256 * y
  let bit := k % perRow E * E
  let x := b.tileByte (base + bit / 8)
  if E = 4 then x / 2 ^ (bit % 8) % 16 else if E = 8 then x else x + 256 * b.tileByte (base + bit / 8 + 1)
/-- The tile word that holds a byte is poisoned. -/
def Block.tileWordBad (b : Block) (at_ : Nat) : Bool :=
  (List.range 4).any (fun j => (Tbl.find b.tilePoison (at_ / 4 * 4 + j)).isSome)
/-- A tile word that holds element `k` is poisoned. -/
def Block.tileBad (b : Block) (t y E k : Nat) : Bool :=
  b.tileWordBad ((t + k / perRow E) * 32768 + 256 * y + k % perRow E * E / 8)
/-- R340: the offset of the word of element `k` of column `j`. -/
def colWord (base E k j : Nat) : Nat := base + 512 * (k * E / 32) + 4 * j
def Block.colElem (b : Block) (base E k j : Nat) : Nat := b.readN (colWord base E k j) 4 / 2 ^ (k * E % 32) % 2 ^ E
/-- R341: the byte of the A scale of row `y`, element `k`. -/
def scaleByte (r : Stream) (kind y k : Nat) : Nat := r.ascale.getD 0 * 32768 + 256 * y + k / scaleGroup kind
/-- R341: the block scales. -/
def Block.ascale (b : Block) (r : Stream) (kind y k : Nat) : Exact :=
  if kind = 0 then .int 1 else scaleValue kind (b.tileByte (scaleByte r kind y k))
def scaleOffset (base g j : Nat) : Nat := base + 512 * (g / 4) + 4 * j + g % 4
def Block.bscale (b : Block) (r : Stream) (kind k j : Nat) : Exact :=
  if kind = 0 then .int 1 else scaleValue kind (b.readN (scaleOffset ((r.bsbase.getD 0).toNat) (k / scaleGroup kind) j) 1)

/-! ### Sums -/

/-- floor(log₂ |x|) of a non-zero finite value. -/
def Exact.top : Exact → Option Int
  | .fin _ m e _ => if m = 0 then none else some (e + (bitLen m : Int) - 1)
  | _ => none
def Exact.isNan : Exact → Bool
  | .nan => true
  | _ => false
/-- R59: the truncated sum of a beat's products. -/
def beatProducts (ps : List Exact) : Exact :=
  let pos := ps.any (fun p => p == .inf false)
  let neg := ps.any (fun p => p == .inf true)
  if ps.any Exact.isNan || (pos && neg) then .nan
  else if pos then .inf false
  else if neg then .inf true
  else
    match (ps.filterMap Exact.top).foldl (fun (acc : Option Int) x => some (match acc with | none => x | some y => max x y)) none with
    | none => .zero (ps.all (fun p => match p with | .fin n _ _ _ => n | _ => false))
    | some top =>
      let q := top - 35
      let part (p : Exact) : Int := match p with
        | .fin n m e _ =>
          let t : Nat := if q ≤ e then m * 2 ^ (e - q).toNat else m / 2 ^ (q - e).toNat
          if n then -(t : Int) else t
        | _ => 0
      let sum := ps.foldl (fun a p => a + part p) 0
      .fin (decide (sum < 0)) sum.natAbs q false
/-- R59 step 4: an accumulator plus a value, rounded once. -/
def accAdd (code : BitVec 34) (x : Exact) : BitVec 34 :=
  BitVec.ofNat 34 (Fmt.f32x.round 0 false 0 (Exact.add false (Fmt.f32x.decode code.toNat) x))

/-- The key of an element of an accumulator. -/
def accKey (j y x : Nat) : Nat := j * 16384 + 128 * y + x
def accZero : Acc := ⟨0, false⟩
def Block.acc_ (b : Block) (j y x : Nat) : Acc := Tbl.get accZero b.acc (accKey j y x)
def Block.setAcc (b : Block) (j y x : Nat) (a : Acc) : Block := { b with acc := Tbl.set accZero b.acc (accKey j y x) a }

/-- The rows and columns of the array. -/
def side128 : List Nat := List.range 128

/-- R345: a report: its UNIT, whether it is of UE, and where. -/
abbrev Report := Nat × Bool × Nat
/-- What one unit of an operation word leaves: the block, the row generators, its reports, and how many reads were corrected
(R345): of tiles, array cells and accumulators, and of column words. -/
abbrev Unit_ := Block × List Word × List Report × Nat × Nat

/-- R345, R447: an operation reads the tile words, column words, accumulator elements and array cells of its bank `j` that the
predicates name.  What the codes do not correct is marked poisoned and reported; answers how many reads they correct. -/
def Block.scan (b : Block) (j : Nat) (tile col acc cell : Nat → Bool) : Block × List Report × Nat × Nat :=
  let wrong (t : Tbl Bool) (p : Nat → Bool) : List Nat := (t.filter (fun e => e.2 && p e.1)).map Prod.fst
  let left (t : Tbl Bool) (p : Nat → Bool) : Tbl Bool := t.filter (fun e => !(e.2 && p e.1))
  let fixed (t : Tbl Bool) (p : Nat → Bool) : Nat := (t.filter (fun e => !e.2 && p e.1)).length
  let ts := wrong b.tileEcc tile
  let cs := wrong b.ecc col
  let as := wrong b.accEcc acc
  let xs := wrong b.cellEcc cell
  let markAcc (t : Tbl Acc) (k : Nat) : Tbl Acc := Tbl.set accZero t k { Tbl.get accZero t k with poison := true }
  ({ b with
      tilePoison := ts.foldl (fun t w => (List.range 4).foldl (fun t i => Tbl.put t (4 * w + i) ()) t) b.tilePoison
      tileEcc := left b.tileEcc tile
      poison := cs.foldl (fun t w => Tbl.put t w ()) b.poison
      ecc := left b.ecc col
      acc := (as ++ xs.map (accKey j 0 0 + ·)).foldl markAcc b.acc
      accEcc := left b.accEcc acc
      cellEcc := left b.cellEcc cell },
    ts.map (fun w => (0, true, 4 * w)) ++ cs.map (fun w => (1, true, 4 * w)) ++ xs.map (fun k => (2, true, k)) ++
      as.map (fun k => (3, true, k)),
    fixed b.tileEcc tile + fixed b.accEcc acc + fixed b.cellEcc cell, fixed b.ecc col)
/-- R345: a report of PSN, where a poison mark is read. -/
def marked (unit : Nat) (place : Option Nat) : List Report := place.toList.map (fun p => (unit, false, p))
def nothing (_ : Nat) : Bool := false
/-- The elements of row `y` of bank `j`, by key. -/
def rowKeys (j y k : Nat) : Bool := decide (accKey j y 0 ≤ k) && decide (k < accKey j (y + 1) 0)
/-- R345: the first poisoned element of a row. -/
def Block.markIn (b : Block) (j y : Nat) : Option Nat := (side128.map (accKey j y)).find? (fun k => (Tbl.get accZero b.acc k).poison)

/-- R360: one depth beat of `mmul`. -/
def Block.mulBeat (b : Block) (r : Stream) (j K beat : Nat) : Unit_ :=
  let ea := r.width r.af
  let eb := r.width r.bf
  let ka := r.scaleKind r.af
  let kb := r.scaleKind r.bf
  let t := (r.run.getD (0, 1)).1
  let base := (r.bbase.getD 0).toNat
  let ks := ((List.range 16).map (fun i => 16 * beat + i)).filter (fun k => decide (k < K))
  let tileAt (y k : Nat) : Nat := (t + k / perRow ea) * 32768 + 256 * y + k % perRow ea * ea / 8
  let scaleAt (x k : Nat) : Nat := scaleOffset ((r.bsbase.getD 0).toNat) (k / scaleGroup kb) x
  let psn := marked 0 (side128.findSome? (fun y => ks.findSome? (fun k =>
      if b.tileBad t y ea k then some (tileAt y k)
      else if ka != 0 && b.tileWordBad (scaleByte r ka y k) then some (scaleByte r ka y k) else none))) ++
    marked 1 (side128.findSome? (fun x => ks.findSome? (fun k =>
      if b.poisonedAt (colWord base eb k x) 4 then some (colWord base eb k x)
      else if kb != 0 && b.poisonedAt (scaleAt x k) 1 then some (scaleAt x k) else none))) ++
    marked 3 (side128.findSome? (fun y => b.markIn j y))
  let sc := b.scan j
    (fun w => side128.any (fun y => ks.any (fun k => tileAt y k / 4 == w || (ka != 0 && scaleByte r ka y k / 4 == w))))
    (fun w => side128.any (fun x => ks.any (fun k => colWord base eb k x / 4 == w || (kb != 0 && scaleAt x k / 4 == w))))
    (fun k => k / 16384 == j) (fun _ => true)
  let b := sc.1
  let xs := side128.map (fun y => ks.map (fun k => Exact.mul (r.decode r.af (b.tileElem t y ea k)) (b.ascale r ka y k)))
  let ws := side128.map (fun x => ks.map (fun k => Exact.mul (r.decode r.bf (b.colElem base eb k x)) (b.bscale r kb k x)))
  let rowBad := side128.map (fun y => ks.any (fun k => b.tileBad t y ea k || (ka != 0 && b.tileWordBad (scaleByte r ka y k))))
  let colBad := side128.map (fun x => ks.any (fun k => b.poisonedAt (colWord base eb k x) 4 ||
    (kb != 0 && b.poisonedAt (scaleAt x k) 1)))
  let pad := List.replicate (16 - ks.length) (Exact.zero false)
  let b1 := side128.foldl (fun b y =>
    side128.foldl (fun b x =>
      let a := b.acc_ j y x
      let ps := List.zipWith Exact.mul (xs.getD y []) (ws.getD x []) ++ pad
      b.setAcc j y x ⟨accAdd a.code (beatProducts ps), a.poison || rowBad.getD y false || colBad.getD x false⟩) b) b
  (b1, r.sg, psn ++ sc.2.1, sc.2.2)

/-- R361: every element +0, no mark. -/
def Block.zeroAcc (b : Block) (j : Nat) : Block :=
  let other (k : Nat) : Bool := !(accKey j 0 0 ≤ k && k < accKey (j + 1) 0 0)
  { b with acc := b.acc.filter (fun p => other p.1), accEcc := b.accEcc.filter (fun p => other p.1) }

/-- R361: one row of `maddt`. -/
def Block.addRow (b : Block) (r : Stream) (j t y : Nat) : Unit_ :=
  let ea := r.width r.af
  let tileAt (x : Nat) : Nat := (t + x / perRow ea) * 32768 + 256 * y + x % perRow ea * ea / 8
  let psn := marked 0 ((side128.find? (fun x => b.tileBad t y ea x)).map tileAt) ++ marked 3 (b.markIn j y)
  let sc := b.scan j (fun w => side128.any (fun x => tileAt x / 4 == w)) nothing (rowKeys j y) nothing
  let b := sc.1
  let bad := side128.any (fun x => b.tileBad t y ea x)
  let b1 := side128.foldl (fun b x =>
    let a := b.acc_ j y x
    b.setAcc j y x ⟨accAdd a.code (r.decode r.af (b.tileElem t y ea x)), a.poison || bad⟩) b
  (b1, r.sg, psn ++ sc.2.1, sc.2.2)

/-- aJ[y][j] × TSA × TSB, exact (R362). -/
def Stream.scaled (r : Stream) (a : Acc) : Exact :=
  Exact.mul (Exact.mul (Fmt.f32x.decode a.code.toNat) (Fmt.f32.decode r.tsa.toNat)) (Fmt.f32.decode r.tsb.toNat)

/-- R362: the bytes of one output element. -/
def outBytes (F : Nat) : Nat := if F = 0 || F = 3 then 4 else if F ≤ 2 then 2 else 1
/-- R362: round_into of an output code. -/
def Stream.outRound (r : Stream) (F draw : Nat) (x : Exact) : Nat :=
  match F with
  | 0 => Fmt.f32.round r.rnd r.sat draw x
  | 1 => Fmt.f16.round r.rnd r.sat draw x
  | 2 => Fmt.bf16.round r.rnd r.sat draw x
  | 3 => ofInt 32 (roundInt 32 true r.rnd draw x)
  | n => narrowRound (r.sq.getD (n - 4) 0) r.rnd r.sat draw x
/-- R345: the words from an offset on whose output path is wrong: each is a report of UNIT 4. -/
def Block.pathReports (b : Block) (off n : Nat) : List Report :=
  (b.pathEcc.filter (fun p => decide (off / 4 ≤ p.1) && decide (p.1 < off / 4 + n / 4))).map (fun p => (4, true, 4 * p.1))
/-- The words of a value stored from an offset on, some of them marked, as those whose output path is wrong are (R345). -/
def Block.storeWords (b : Block) (off n v : Nat) (bad : Nat → Bool) : Block :=
  (List.range (n / 4)).foldl (fun b i =>
    let w := off / 4 + i
    let b1 := b.storeAt (off + 4 * i) 4 (v / 2 ^ (32 * i) % 2 ^ 32)
    if bad i || (Tbl.find b.pathEcc w).isSome then { b1 with poison := Tbl.put b1.poison w (), pathEcc := Tbl.del b1.pathEcc w }
    else b1) b

/-- R362: one row of `mout`. -/
def Block.outRow (b : Block) (r : Stream) (j F base pitch y : Nat) : Unit_ :=
  let S := outBytes F
  let psn := marked 3 (b.markIn j y)
  let sc := b.scan j nothing nothing (rowKeys j y) nothing
  let b := sc.1
  let as := side128.map (fun x => b.acc_ j y x)
  let p := roundElems (8 * S) 128 (fun draw x => r.outRound F draw x) r.rnd (r.sg.getD y 0) (fun x _ => r.scaled (as.getD x accZero))
  let bad (i : Nat) : Bool := (List.range (4 / S)).any (fun e => (as.getD (i * (4 / S) + e) accZero).poison)
  let at_ := base + 64 * pitch * y
  (b.storeWords at_ (128 * S) p.1 bad, r.sg.set y p.2, psn ++ sc.2.1 ++ b.pathReports at_ (128 * S), sc.2.2)

/-- R363: maximumNumber, −0 below +0. -/
def maxNumber (l : List Exact) : Exact :=
  l.foldl (fun m x => match m, x with
    | .nan, x => x
    | m, .nan => m
    | m, x => if Exact.lt m x then x else m) .nan
/-- R363: one row of `mmax`. -/
def Block.maxRow (b : Block) (r : Stream) (j base y : Nat) : Unit_ :=
  let psn := marked 3 (b.markIn j y)
  let sc := b.scan j nothing nothing (rowKeys j y) nothing
  let b := sc.1
  let as := side128.map (fun x => b.acc_ j y x)
  let bad := as.any (fun a => a.poison)
  let v := Fmt.f32.round 0 false 0 (maxNumber (as.map r.scaled))
  (b.storeWords (base + 4 * y) 4 v (fun _ => bad), r.sg, psn ++ sc.2.1 ++ b.pathReports (base + 4 * y) 4, sc.2.2)

/-- R364: one line of `mtrn`: the word of each row that holds the line's elements. -/
def Block.trnLine (b : Block) (r : Stream) (t base line : Nat) : Unit_ :=
  let at_ (y : Nat) : Nat := t * 32768 + 256 * y + 4 * line
  let psn := marked 0 ((side128.find? (fun y => b.tileWordBad (at_ y))).map at_)
  let sc := b.scan 0 (fun w => side128.any (fun y => at_ y / 4 == w)) nothing nothing nothing
  let b := sc.1
  let bad (y : Nat) : Bool := b.tileWordBad (at_ y)
  let v := side128.foldl (fun v y =>
    v + (List.range 4).foldl (fun w j => w + b.tileByte (at_ y + j) * 256 ^ j) 0 * 2 ^ (32 * y)) 0
  (b.storeWords (base + 512 * line) 512 v bad, r.sg, psn ++ sc.2.1 ++ b.pathReports (base + 512 * line) 512, sc.2.2)

end Sys2Proof.Machine
end

