-- ==== Sys2Proof/Machine/Sequencer.lean ====
section
/-!
DEFINITION. The block sequencer (14 R337 to R364, 02 R40, R41): fetch, frame slots, halts, its seventeen words, and the strand words
that start, query, stop and resume it.
-/
namespace Sys2Proof.Machine

def State.modSeq (s : State) (bk : Nat) (f : Seq → Seq) : State := s.modBlock bk (fun b => { b with seq := f b.seq })

/-! ### Causes -/

/-- R41: the strand that a cause of the sequencer is raised on: the one that started the stream, or else the lowest-numbered live
strand of the block. -/
def State.seqTarget (s : State) (bk sid : Nat) : Option Nat :=
  let live (k : Nat) : Bool := match s.strand k with
    | some st => st.block == bk && !st.ended
    | none => false
  if live sid then some sid
  else leastBy (fun k => match s.strand k with
    | some st => st.number
    | none => 0) ((s.strandsOf bk).filter live)

/-- The strand is at an instruction boundary where it can take a cause. -/
def Strand.atBoundary (st : Strand) : Bool := st.openFault.isNone && !st.stopped && (!st.recordValid || st.inHandler)

/-- R41, R348: a cause of the sequencer word at `addr`; it waits while its strand has another or no fragment in a slot, and with no live
strand it goes to the resident kernel as a fault of the block.  ADDR of a STAGE2 is the address that was fetched (R225, R418). -/
def State.raiseSeq (s : State) (bk sid : Nat) (c : Cause) (addr : DWord) (d : Detail) : State :=
  match s.seqTarget bk sid with
  | none => s.post 1 c.code 0 0 0
  | some k =>
    match s.strand k with
    | none => s
    | some st =>
      let later := s.modSeq bk (fun q => { q with pend := some (sid, c, addr, d) })
      if st.atBoundary then
        let slot := st.fragA.isNone
        match st.frag slot with
        | some f => s.raise k slot f.pc { Raised.wide c 0 d with addr := if c == .stage2 then addr else 0 } (some addr) false
        | none => later
      else later

/-- R419: DETAIL of a halt. -/
def haltDetail (n : Nat) : Detail := BitVec.ofNat 512 n

/-- A sequencer word in hand: its block, as it stood, and the running stream. -/
structure SeqCtx where
  s  : State
  bk : Nat
  b  : Block
  r  : Stream

/-- R41: the sequencer halts at the word with a detail code of R348. -/
def State.haltSeq (s : State) (bk : Nat) (r : Stream) (n : Nat) : State :=
  (s.modSeq bk (fun q => { q with halt := some n, wait := none })).raiseSeq bk r.strand .seqIllegal r.spc (haltDetail n)
def SeqCtx.halt (c : SeqCtx) (n : Nat) : State := c.s.haltSeq c.bk c.r n

/-! ### The end of a word -/

/-- R344: SEQNO of the next word performed. -/
def nextSeqno (n : Word) : Word := if n = 0xFFFFFFFF#32 then 1 else n + 1

/-- R347: a TLM request completes. -/
def Seq.finishTlm (q : Seq) (n : DWord) : Seq :=
  let f := q.finished ++ [n]
  let t := f.foldl (fun t _ => if f.contains (t + 1) then t + 1 else t) q.tlm
  { q with tlm := t, finished := f.filter (fun x => t < x) }

/-- The word in hand ends: the stream goes on as `r`, and the word takes its sequence number. -/
def SeqCtx.finish (c : SeqCtx) (s : State) (r : Stream) : State :=
  s.modSeq c.bk (fun q =>
    { q with
      seqno := nextSeqno q.seqno
      running := some { r with ready := none, busy := false, depth := 0, row := 0, col := 0, reported := [], arrived := none, waiting := false } })
/-- The word ends and the next one follows it. -/
def SeqCtx.next (c : SeqCtx) (r : Stream) : State := c.finish c.s { r with spc := r.spc + 4 }

/-- R280, R346: the word just ended arrives on a barrier with CARRY, which is cleared. -/
def State.seqArrival (s : State) (bk k : Nat) : State :=
  match s.block bk with
  | none => s
  | some b =>
    match b.seq.running with
    | none => s
    | some r =>
      let report : DWord := BitVec.ofNat 64 (b.seq.seqno.toNat * 2 ^ 32 + r.carry.toNat)
      let s := s.modSeq bk (fun q => { q with running := some { r with carry := 0, arrived := some k, stok := Tbl.put r.stok k (b.barrier k).phase } })
      s.seqArrive bk k report

/-- R346: an operation's reports go into CARRY; an operation counts once, and the first of all leaves UNIT, ACC and FIRST_SEQ. -/
def Stream.report (r : Stream) (seqno : Word) (acc : Nat) (us : List Report) : Stream :=
  match us with
  | [] => r
  | u :: _ =>
    let c := r.carry.toNat
    let kinds := (if us.any (fun v => v.2.1) then 2 ^ 31 else 0) + (if us.any (fun v => !v.2.1) then 2 ^ 30 else 0)
    let c := if c / 2 ^ 30 = 0 then u.1 % 8 * 2 ^ 27 + acc % 8 * 2 ^ 24 + seqno.toNat % 65536 else c
    let c := if r.reported.isEmpty then c - bits c 23 16 * 2 ^ 16 + min 255 (bits c 23 16 + 1) * 2 ^ 16 else c
    { r with carry := BitVec.ofNat 32 (c ||| kinds), reported := [u.1] }

/-- R456: UNIT of LAST_UE for a report. -/
def Report.logUnit (u : Report) : Nat :=
  match u.1 with
  | 0 => 2
  | 2 => 3
  | 3 => 4
  | _ => if u.2.2 < 0x1000000 then 0 else 1
/-- R345, R456: the core's error log after a unit of an operation: the reads that were corrected, and the marks made or found. -/
def State.countUnit (s : State) (core slot : Nat) (us : List Report) (fixed : Nat × Nat) : State :=
  let s := (List.range fixed.1).foldl (fun s _ => s.countError core (some slot) 1) s
  let s := (List.range fixed.2).foldl (fun s _ => s.countError core (some slot) 0) s
  let s := s.columnErrors core (us.filter (fun u => u.1 == 1 && u.2.1 && decide (0x1000000 ≤ u.2.2))).length
  us.foldl (fun s u => s.countPoison core (some slot) u.logUnit u.2.2) s

/-! ### Words -/

/-- R425, R426: a pre-emption lets the stream go on only to drain the word in progress. -/
def State.seqGoesOn (s : State) (bk : Nat) (r : Stream) : Bool :=
  match s.preemptOf bk with
  | none => true
  | some p => p.course == 0 && r.busy

/-- A sequencer word runs where a stream runs that is neither halted nor stopped. -/
def seqWord (i : Instr) (body : SeqCtx → State) (s : State) : Out :=
  .next (match s.block s.cur with
    | none => s
    | some b =>
      match b.seq.running with
      | none => s
      | some r =>
        let c : SeqCtx := ⟨s, s.cur, b, r⟩
        if b.seq.halt.isSome || b.seq.aborting.isSome || s.board.stopped || !s.seqGoesOn s.cur r then s
        else if !seqFieldsOk i then c.halt 2
        else body c)

/-- x[R] (R357). -/
def SeqCtx.x (c : SeqCtx) (n : BitVec 3) : Word := c.r.x.getD n.toNat 0
def Stream.setX (r : Stream) (n : BitVec 3) (v : Word) : Stream := if n = 0 then r else { r with x := r.x.set n.toNat v }

/-- R343, R355: one unit of an operation word of `total` units, in a granted frame slot; the arrival follows the last. -/
def SeqCtx.operate (c : SeqCtx) (e : BitVec 1) (bar : BitVec 4) (acc pos total : Nat) (count : Stream → Nat → Stream)
    (unit : Unit_) : State :=
  let s := c.s.grantArray (c.bk / 8)
  if !s.granted c.bk then s
  else
    let n := nextSeqno c.b.seq.seqno
    let b := if pos < total then unit.1 else c.b
    let r := if pos < total then
        let r := { c.r with sg := unit.2.1, busy := true }
        r.report n acc unit.2.2.1
      else c.r
    let s := if pos < total then s.countUnit (c.bk / 8) c.b.domSlot unit.2.2.1 unit.2.2.2 else s
    let s := s.setBlock c.bk { b with seq := { b.seq with running := some (count r (pos + 1)) } }
    if pos + 1 < total then s
    else
      let s := c.finish s { r with spc := r.spc + 4 }
      if e = 1 then s.seqArrival c.bk bar.toNat else s

/-- R151: `n` bytes at an offset lie in the column region of a block. -/
def Block.inColumn (b : Block) (off n : Nat) : Bool := 0x1000000 ≤ off && off + n ≤ 0x1000000 + b.ca
/-- R362, R363: an output range. -/
def Block.outOk (b : Block) (off n : Nat) : Bool := b.inRegion off n && !b.meetsStatus off n

/-- The first detail code whose condition holds. -/
def firstHalt (l : List (Bool × Nat)) : Option Nat := (l.find? (fun p => p.1)).map Prod.snd
/-- R348: a word whose checks pass is performed. -/
def SeqCtx.checked (c : SeqCtx) (l : List (Bool × Nat)) (body : State) : State :=
  match firstHalt l with
  | some n => c.halt n
  | none => body

/-- R358. -/
def execMta (im n : BitVec 4) (s : State) : Out :=
  seqWord (.mta im n) (fun c =>
    c.checked [(c.b.tcount < im.toNat + n.toNat + 1, 3)]
      (c.next { c.r with tiles := some (BitVec.ofNat 24 (im.toNat * 2 ^ 20 + n.toNat * 2 ^ 16)) })) s
/-- R358. -/
def execMbind (r : BitVec 3) (u : BitVec 16) (s : State) : Out :=
  seqWord (.mbind r u) (fun c =>
    let base : Word := c.x r + BitVec.ofNat 32 (512 * u.toNat)
    c.checked [(base.toNat % 512 != 0, 5)] (c.next { c.r with bbase := some base })) s
/-- R358. -/
def execMfmt (a b r : BitVec 3) (sg : BitVec 1) (s : State) : Out :=
  seqWord (.mfmt a b r sg) (fun c =>
    c.checked [(6 ≤ a.toNat || 6 ≤ b.toNat || 6 ≤ r.toNat, 4)]
      (c.next { c.r with fmt := BitVec.ofNat 24 (a.toNat * 2 ^ 21 + b.toNat * 2 ^ 18 + r.toNat * 2 ^ 15 + sg.toNat * 2 ^ 14) })) s
/-- R358. -/
def execMscl (k : BitVec 2) (im : BitVec 4) (r : BitVec 3) (s : State) : Out :=
  seqWord (.mscl k im r) (fun c =>
    match k.toNat with
    | 0 => c.checked [(c.b.tcount ≤ im.toNat, 3)] (c.next { c.r with ascale := some im.toNat })
    | 1 => c.checked [((c.x r).toNat % 512 != 0, 5)] (c.next { c.r with bsbase := some (c.x r) })
    | 2 => c.next { c.r with tsa := c.x r }
    | _ => c.next { c.r with tsb := c.x r }) s
/-- R358. -/
def execMset (r : BitVec 3) (o : BitVec 2) (im : BitVec 19) (s : State) : Out :=
  seqWord (.mset r o im) (fun c =>
    let n : Word := im.signExtend 32
    let v := match o.toNat with
      | 0 => n
      | 1 => c.x r + n
      | 2 => BitVec.ofNat 32 (im.toNat * 2 ^ 13)
      | _ => c.x r + 512 * n
    c.next (c.r.setX r v)) s
/-- R359. -/
def execMloop (sg : BitVec 1) (r : BitVec 3) (n : BitVec 16) (s : State) : Out :=
  seqWord (.mloop sg r n) (fun c =>
    let count : Word := if sg = 1 then c.x r else BitVec.ofNat 32 (n.toNat + 1)
    c.checked [(4 ≤ c.r.loops.length || count == 0, 6)]
      (c.next { c.r with loops := c.r.loops ++ [⟨c.r.spc + 4, count⟩] })) s
/-- R359. -/
def execMendl (s : State) : Out :=
  seqWord .mendl (fun c =>
    match c.r.loops.getLast? with
    | none => c.halt 6
    | some l =>
      if l.count = 1 then c.next { c.r with loops := c.r.loops.dropLast }
      else c.finish c.s { c.r with loops := c.r.loops.dropLast ++ [{ l with count := l.count - 1 }], spc := l.start }) s
/-- R359. -/
def execMjmp (o : BitVec 24) (s : State) : Out :=
  seqWord (.mjmp o) (fun c => c.finish c.s { c.r with spc := c.r.spc + (o.signExtend 64 <<< 2) }) s
/-- R359, R346. -/
def execMarr (k : BitVec 4) (s : State) : Out := seqWord (.marr k) (fun c => (c.next c.r).seqArrival c.bk k.toNat) s

/-- R359, R295: the phase that `mwb` waits for.  An `mwb` right after the word that arrived starts before the flip of R288, two
clk after the arrival, so it takes the phase of that arrival (log entry 15); one that waited when its image was written goes on with
the phase that STOK then held (R356, log entry 61). -/
def Stream.waitPhase (r : Stream) (x : Barrier) (k : Nat) : Word :=
  match Tbl.find r.stok k with
  | some t => if phasePassed x.phase t && r.arrived != some k && !r.waiting then x.phase else t
  | none => x.phase
/-- R359. -/
def execMwb (k : BitVec 4) (s : State) : Out :=
  seqWord (.mwb k) (fun c =>
    let x := c.b.barrier k.toNat
    match c.b.seq.wait with
    | some w =>
      if phasePassed x.phase w.phase then ({ c with s := c.s.modSeq c.bk (fun q => { q with wait := none }) } : SeqCtx).next c.r else c.s
    | none =>
      let p := c.r.waitPhase x k.toNat
      if phasePassed x.phase p then c.next c.r
      else c.s.modSeq c.bk (fun q => { q with wait := some ⟨k.toNat, p, c.s.dclk⟩ })) s
/-- R359, R347. -/
def execMstop (s : State) : Out :=
  seqWord .mstop (fun c =>
    c.s.modSeq c.bk (fun q =>
      { (q.finishTlm c.r.n) with
        seqno := nextSeqno q.seqno
        running := none
        causes := if c.r.carry = 0 then q.causes else q.causes ++ [c.r.n] })) s

/-- R360: what is checked before the first beat. -/
def SeqCtx.mulChecks (c : SeqCtx) (j K : Nat) : List (Bool × Nat) :=
  let r := c.r
  let ka := r.scaleKind r.af
  let kb := r.scaleKind r.bf
  let base := (r.bbase.getD 0).toNat
  let groups (kind : Nat) : Nat := (K + scaleGroup kind - 1) / scaleGroup kind
  [(c.b.acount ≤ j || (match r.run with
      | some (t, n) => decide (c.b.tcount < t + n)
      | none => true), 3),
   (decide ((r.run.getD (0, 0)).2 * perRow (r.width r.af) < K), 7),
   (r.bbase.isNone || !c.b.inColumn base (512 * ((K * r.width r.bf + 31) / 32)), 5),
   ((ka != 0 && r.ascale.isNone) || (kb != 0 && r.bsbase.isNone), 8),
   ((ka != 0 && decide (256 < groups ka)) || (kb != 0 && decide (256 < groups kb)), 7),
   (ka != 0 && decide (c.b.tcount ≤ r.ascale.getD 0), 3),
   (kb != 0 && !c.b.inColumn (r.bsbase.getD 0).toNat (512 * ((groups kb + 3) / 4)), 5)]
/-- R360. -/
def execMmul (e : BitVec 1) (b : BitVec 4) (j : BitVec 3) (k : BitVec 16) (s : State) : Out :=
  seqWord (.mmul e b j k) (fun c =>
    let K := k.toNat + 1
    c.checked (c.mulChecks j.toNat K)
      (c.operate e b j.toNat c.r.depth ((K + 15) / 16) (fun r n => { r with depth := n })
        (c.b.mulBeat c.r j.toNat K c.r.depth))) s
/-- R361. -/
def execMzero (e : BitVec 1) (b : BitVec 4) (j : BitVec 3) (s : State) : Out :=
  seqWord (.mzero e b j) (fun c =>
    c.checked [(c.b.acount ≤ j.toNat, 3)]
      (c.operate e b j.toNat 0 1 (fun r _ => r) (c.b.zeroAcc j.toNat, c.r.sg, [], 0, 0))) s
/-- R361. -/
def execMaddt (e : BitVec 1) (b : BitVec 4) (j : BitVec 3) (im : BitVec 4) (s : State) : Out :=
  seqWord (.maddt e b j im) (fun c =>
    c.checked [(c.b.acount ≤ j.toNat || c.b.tcount ≤ im.toNat, 3)]
      (c.operate e b j.toNat c.r.row 128 (fun r n => { r with row := n }) (c.b.addRow c.r j.toNat im.toNat c.r.row))) s
/-- R362. -/
def execMout (e : BitVec 1) (b : BitVec 4) (j r f : BitVec 3) (p : BitVec 10) (s : State) : Out :=
  seqWord (.mout e b j r f p) (fun c =>
    let base := (c.x r).toNat
    let S := outBytes f.toNat
    c.checked
      [(c.b.acount ≤ j.toNat, 3),
       (base % 64 != 0 || decide (64 * p.toNat < 128 * S) || !c.b.outOk base (64 * p.toNat * 127 + 128 * S), 5)]
      (c.operate e b j.toNat c.r.row 128 (fun r n => { r with row := n })
        (c.b.outRow c.r j.toNat f.toNat base p.toNat c.r.row))) s
/-- R363. -/
def execMmax (e : BitVec 1) (b : BitVec 4) (j r : BitVec 3) (s : State) : Out :=
  seqWord (.mmax e b j r) (fun c =>
    let base := (c.x r).toNat
    c.checked [(c.b.acount ≤ j.toNat, 3), (base % 64 != 0 || !c.b.outOk base 512, 5)]
      (c.operate e b j.toNat c.r.row 128 (fun r n => { r with row := n }) (c.b.maxRow c.r j.toNat base c.r.row))) s
/-- R364. -/
def execMtrn (e : BitVec 1) (b im : BitVec 4) (r : BitVec 3) (s : State) : Out :=
  seqWord (.mtrn e b im r) (fun c =>
    let base := (c.x r).toNat
    c.checked [(c.b.tcount ≤ im.toNat, 3), (base % 512 != 0 || !c.b.inColumn base 32768, 5)]
      (c.operate e b 0 c.r.col 64 (fun r n => { r with col := n }) (c.b.trnLine c.r im.toNat base c.r.col))) s

/-! ### Frame slots, starts and fetches -/

/-- R342: the frame slot of now is given to a sequencer with work. -/
def execArraySlotGrant (core : Nat) (s : State) : Out := .next (s.grantArray core)

/-- R352, R356: the next stream starts; a malformed image halts it. -/
def execSeqStreamStart (block : Nat) (s : State) : Out :=
  .next (match s.block block with
    | none => s
    | some b =>
      match b.seq.running, b.seq.queued with
      | none, r :: rest =>
        if r.loading || b.seq.aborting.isSome || s.preempting block then s
        else
          let s := s.modSeq block (fun q =>
            { q with running := some r, queued := rest, halt := none, wait := none, seqno := r.seqno.getD q.seqno })
          if r.malformed then s.haltSeq block r 9 else s
      | _, _ => s)

/-- R348, R41: the stream word at SPC; a cause that waits for its strand goes first. -/
def execSeqFetch (block : Nat) (s : State) : Out :=
  .next (match s.block block with
    | none => s
    | some b =>
      match b.seq.pend, b.seq.running with
      | some (sid, c, addr, d), _ =>
        (s.modSeq block (fun q => { q with pend := none })).raiseSeq block sid c addr d
      | none, none => s
      | none, some r =>
        if b.seq.halt.isSome || b.seq.aborting.isSome || r.ready.isSome || s.board.stopped || !s.seqGoesOn block r then s
        else
          let fail (s : State) (c : Cause) (d : Detail) : State :=
            (s.modSeq block (fun q => { q with halt := some 0 })).raiseSeq block r.strand c r.spc d
          if 2 ^ 57 ≤ r.spc.toNat then fail s .badWindow 0
          else
            match s.fetchWord r.agent r.spc with
            | (s, .error (c, d)) => fail s c d
            | (s, .ok w) =>
              match decodeSeq w with
              | .ok _ => s.modSeq block (fun q => { q with running := some { r with ready := some w } })
              | .bad _ => s.haltSeq block r (if 1 ≤ w.toNat / 2 ^ 24 && w.toNat / 2 ^ 24 ≤ 0x11 then 2 else 1))

/-- R348, R291: an `mwb` that passes the barrier limit. -/
def execMwbTimeout (block : Nat) (s : State) : Out :=
  .next (match s.block block with
    | none => s
    | some b =>
      match b.seq.running, b.seq.wait with
      | some r, some w =>
        let x := b.barrier w.k
        if b.seq.halt.isSome || b.seq.aborting.isSome || phasePassed x.phase w.phase || s.dclk.toNat < w.since.toNat + b.limitTicks then s
        else
          (s.modSeq block (fun q => { q with halt := some 0 })).raiseSeq block r.strand .barrierTimeout r.spc
            (s.barrierDetail block w.k x w.phase w.since)
      | _, _ => s)

/-! ### The strand words -/

/-- R351: the checks of an address in the lowest active lane, word-wide; then the word. -/
def Ctx.seqAddr (c : Ctx) (a : BitVec 8) (align : Nat) (body : Nat → State) : State :=
  match c.act.lowest with
  | none => c.over c.s
  | some L =>
    let x := (c.plain true a).at L
    let bad (e : Cause) : State := c.raise c.s { Raised.wide e c.act 0 with addr := BitVec.ofNat 64 x }
    if x % align ≠ 0 then bad .misaligned else if addrKind x ≠ 0 then bad .badWindow else body x

/-- R344: a stream as a start leaves it. -/
def Ctx.stream (c : Ctx) (n : DWord) (spc : Nat) : Stream where
  n := n
  seqno := none
  strand := c.sid
  agent := c.st.agent c.s c.sid
  spc := BitVec.ofNat 64 spc
  ready := none
  busy := false
  depth := 0
  row := 0
  col := 0
  sq := c.f.q
  fmt := 0
  tiles := none
  bbase := none
  ascale := none
  bsbase := none
  tsa := 0x3F800000#32
  tsb := 0x3F800000#32
  x := List.replicate 8 0
  loops := []
  carry := 0
  stok := []
  sg := List.replicate 128 0
  malformed := false
  loading := false
  reported := []
  arrived := none
  waiting := false

/-- R352: the seeds of the row generators. -/
def rowSeed (sd : Word) (y : Nat) : Word :=
  let g := sd ^^^ BitVec.ofNat 32 (y * 0x01010101) ^^^ 0x9E3779B9#32
  if g = 0 then 0x9E3779B9#32 ^^^ BitVec.ofNat 32 y else g

/-- R351: no fifth stream may be queued. -/
def Seq.full (q : Seq) : Bool := q.queued.length ≥ (if q.running.isSome then 4 else 5)

/-- Writes a number to the D pair in every active lane. -/
def Ctx.withPair (c : Ctx) (d : BitVec 8) (x : DWord) : Strand := c.st.setRegs true d.toNat c.act (Vals.gen (fun _ => x.toNat))

/-- R352. -/
def execMgo (d a b : BitVec 8) (s : State) : Out :=
  strandWord (.mgo d a b) (fun c =>
    c.seqAddr a 4 (fun x =>
      match c.block with
      | none => c.s
      | some bl =>
        if bl.seq.full then c.raiseWide .queueQuota 0
        else
          let n := bl.seq.submitted + 1
          let sd : Word := BitVec.ofNat 32 ((c.plain false b).at (c.act.lowest.getD 0))
          let r := { c.stream n x with sg := (List.range 128).map (rowSeed sd) }
          let s := c.s.modSeq c.st.block (fun q => { q with submitted := n, queued := q.queued ++ [r] })
          c.over (s.setStrand c.sid (c.withPair d n)))) s

/-- R353. -/
def State.seqStatus (s : State) (bk : Nat) (q : Seq) : Nat :=
  match q.running with
  | some r =>
    let st := if q.halt.isSome then 3
      else if s.seqWaits bk q then 2 else 1
    st * 2 ^ 62 + q.queued.length % 8 * 2 ^ 59 + r.spc.toNat % 2 ^ 57
  | none =>
    match q.queued with
    | [] => 0
    | r :: rest => 2 ^ 62 + rest.length % 8 * 2 ^ 59 + r.spc.toNat % 2 ^ 57
/-- R353. -/
def execMq (d : BitVec 8) (s : State) : Out :=
  strandWord (.mq d) (fun c =>
    match c.block with
    | none => c.s
    | some b => c.over (c.s.setStrand c.sid (c.withPair d (BitVec.ofNat 64 (c.s.seqStatus c.st.block b.seq))))) s

/-- The word whose image `x` bytes lie at goes into flight after the state `s`, its lane checked by R203, and `st` its strand after it. -/
def Ctx.flyImage (c : Ctx) (s : State) (op : FlightOp) (x : Ask) (image : Nat) (st : Strand) : State :=
  let m : Mask := match c.act.lowest with
    | some L => 1#32 <<< L
    | none => 0
  let f := { (c.flight op).asking_ x with op := op, mask := m, addr := (c.plain true x.addr).lanes64, image := image }
  let f := c.s.classify c.st x f
  let s := c.fly (s.setStrand c.sid st) true f
  match f.raised with
  | none => s
  | some r => s.raiseFrom c.sid c.slot c.f.pc r none true f.pos c.s.dclk

/-- R356. -/
def execMres (d a : BitVec 8) (s : State) : Out :=
  strandWord (.mres d a) (fun c =>
    c.seqAddr a 256 (fun _ =>
      match c.block, askOf (.mres d a) c.type with
      | some bl, some x =>
        if bl.seq.full then c.raiseWide .queueQuota 0
        else
          let n := bl.seq.submitted + 1
          let r := { c.stream n 0 with loading := true }
          let s := c.s.modSeq c.st.block (fun q => { q with submitted := n, queued := q.queued ++ [r] })
          c.flyImage s (.mres n) x 0 (c.advance (c.withPair d n))
      | _, _ => c.s)) s

/-- R355: the running stream, or else the one that would start, stands stopped. -/
def Seq.stop (q : Seq) : Seq :=
  match q.running, q.queued with
  | none, r :: rest => { q with running := some r, queued := rest, aborting := some q.submitted, seqno := r.seqno.getD q.seqno }
  | _, _ => { q with aborting := some q.submitted }
/-- R355. -/
def execMabort (d a : BitVec 8) (s : State) : Out :=
  strandWord (.mabort d a) (fun c =>
    c.seqAddr a 256 (fun _ =>
      match c.block, askOf (.mabort d a) c.type with
      | some bl, some x =>
        let q := bl.seq.stop
        match q.running with
        | none => c.over (c.s.setStrand c.sid (c.withPair d 0))
        | some r =>
          let bl := { bl with seq := q }
          c.flyImage (c.s.setBlock c.st.block bl) .mabort x (c.s.seqImage c.st.block q) (c.advance (c.withPair d r.n))
      | _, _ => c.s)) s

end Sys2Proof.Machine
end

