-- ==== Sys2Proof/Machine/Stoch.lean ====
section
/-!
DEFINITION. The stochastic engine (16 R368 to R390, 03 R60): tags at submission, requests in number order, and their effects.
-/
namespace Sys2Proof.Machine

/-- R371. -/
def zStep (x : Nat) : Nat := if x % 2 = 1 then (x / 2) ^^^ 0xB400 else x / 2
def zSteps : Nat → Nat → Nat
  | 0, x => x
  | n + 1, x => zSteps n (zStep x)
/-- R371: the seed of class `c` at the block's start. -/
def resetSeed (c : Nat) : BitVec 16 := BitVec.ofNat 16 (zSteps (4096 * c) 0xACE1)

/-- R372: the bits of an encoding of `n` bits, from bit `i` up. -/
def zBits (T : Nat) : Nat → Nat → Nat → Nat
  | 0, _, _ => 0
  | n + 1, x, i =>
    let y := zStep x
    (if y ≤ T then 2 ^ i else 0) + zBits T n y (i + 1)
def zEncode (T seed n : Nat) : Nat := zBits T n seed 0

/-- R60: an exact value clamped from below and above by integers; NaN is 0. -/
def clampExact (lo hi : Int) (x : Exact) : Exact :=
  match x with
  | .nan => .int 0
  | x => if Exact.lt x (.int lo) then .int lo else if Exact.lt (.int hi) x then .int hi else x
/-- R60: T of a binary32 value. -/
def threshold (bip : Bool) (x : Nat) : Nat :=
  let v := clampExact (if bip then -1 else 0) 1 (Fmt.f32.decode x)
  let y := if bip then Exact.mul (Exact.add false v (.int 1)) (.int 32768) else Exact.mul v (.int 65536)
  (roundInt 64 true 0 0 y).toNat

def popBits (n : Nat) : Nat := ((List.range 4096).filter (fun i => n.testBit i)).length

/-! ### Tags -/

/-- R369. -/
def zEmpty : ZReg := ⟨0, false, 3, 0⟩
def Stoch.reg (z : Stoch) (i : Nat) : ZReg := Tbl.get zEmpty z.z i
def Stoch.setReg (z : Stoch) (i : Nat) (r : ZReg) : Stoch := { z with z := Tbl.set zEmpty z.z i r }
/-- R369: the tag as `zcls` reads it. -/
def ZReg.tag (r : ZReg) : Nat := (if r.poison then 2 ^ 18 else 0) + r.len % 4 * 2 ^ 16 + r.classes.toNat
/-- The bits of a length code, and the code of a block length. -/
def lenBits (c : Nat) : Nat := [256, 1024, 4096].getD c 0
def lenCode (n : Nat) : Nat := if n = 256 then 0 else if n = 1024 then 1 else 2

/-- The stream that a field names in a lane: a run, or one stream (R381). -/
def zAt (run : Bool) (x : BitVec 6) (L : Nat) : Nat := x.toNat + (if run then L else 0)

/-- R381, R368: the stream named, and with a run that of every active lane, lies below ZCOUNT. -/
def Block.zOk (b : Block) (act : Mask) (run : Bool) (x : BitVec 6) : Bool :=
  decide (x.toNat < b.zcount) && (!run || (Mask.lanes act).all (fun L => decide (x.toNat + L < b.zcount)))

/-- R419: DETAIL of a tag check that fails in a lane on two streams. -/
def tagDetail (L : Nat) (a b : ZReg) : Detail :=
  BitVec.ofNat 512 (L + a.classes.toNat * 2 ^ 16 + b.classes.toNat * 2 ^ 32 + a.len % 4 * 2 ^ 48 + b.len % 4 * 2 ^ 50)

/-- What a request asks of the engine at issue. -/
structure ZAsk where
  /-- source streams: whether the field is a run, and its value -/
  srcs  : List (Bool × BitVec 6)
  /-- destination stream -/
  dstz  : Option (BitVec 6)
  /-- R379: two streams of a lane may not be mixed -/
  mix   : List ZReg → Bool
  /-- classes of the destination, from the sources' -/
  cls   : List (BitVec 16) → BitVec 16
  /-- vector destination -/
  dst   : Option (BitVec 8)
  src   : Vals
  acc   : Vals

/-- A second stream for a detail, where a word has one. -/
def second (l : List ZReg) : ZReg := l.getD 1 zEmpty
/-- The two streams that a detail names. -/
def pairOf (bad : ZReg → ZReg → Bool) (l : List ZReg) : ZReg × ZReg :=
  match l with
  | [a, b, x] => if bad a x then (a, x) else (b, x)
  | _ => (l.getD 0 zEmpty, l.getD 1 ⟨0, false, 0, 0⟩)

/-- R277: TLS moves past the oldest requests that have no active lane, which are complete (R376). -/
def Stoch.settle (z : Stoch) : Stoch :=
  let k := z.reqs.takeWhile (fun q => q.mask == 0)
  { z with reqs := z.reqs.drop k.length, tls := (k.getLast?.map ZReq.n).getD z.tls }

/-- R374, R375, R379, R380: a request is checked, takes its number and leaves its tags; one with no active lane is complete (R376). -/
def Ctx.stochastic (c : Ctx) (x : ZAsk) : State :=
  match c.block with
  | none => c.s
  | some b =>
    let z := b.stoch
    let lanes := Mask.lanes c.act
    let at_ (L : Nat) : List ZReg := x.srcs.map (fun p => z.reg (zAt p.1 p.2 L))
    let short (r : ZReg) : Bool := r.len != lenCode z.lb
    if !(x.srcs.all (fun p => b.zOk c.act p.1 p.2) && (match x.dstz with | some d => b.zOk c.act true d | none => true)) then
      c.raiseWide .illegalOperand 0
    else
      match lanes.find? (fun L => (at_ L).any short) with
      | some L =>
        let p := pairOf (fun a s => short a || short s) (at_ L)
        c.raiseWide .streamLength (tagDetail L p.1 p.2)
      | none =>
        match lanes.find? (fun L => x.mix (at_ L)) with
        | some L =>
          let p := pairOf (fun a s => (a.classes &&& s.classes) != 0) (at_ L)
          c.raiseWide .correlatedMix (tagDetail L p.1 p.2)
        | none =>
          let n := z.submitted + 1
          let bad := Mask.ofPred (fun L => Mask.has c.act L && (at_ L).any (fun r => r.poison))
          let req : ZReq := ⟨bad, n, c.s.nextFlight, c.sid, c.word, c.act, z.lb, z.seeds, x.src.map (BitVec.ofNat 32), x.acc.map (BitVec.ofNat 32), c.type,
            false, [], [], 0⟩
          let tag (z' : Stoch) (L : Nat) : Stoch := match x.dstz with
            | none => z'
            | some d =>
              let r := z'.reg (d.toNat + L)
              z'.setReg (d.toNat + L) { r with len := lenCode z.lb, classes := x.cls ((at_ L).map ZReg.classes), poison := Mask.has bad L }
          let z := (lanes.foldl tag { z with submitted := n, reqs := z.reqs ++ [req] }).settle
          if c.act = 0 then c.over (c.s.setBlock c.st.block { b with stoch := z })
          else
          let f := c.flight (.stream n)
          let f := match x.dst with
            | some d => { f with dst := d, regs := 1 }
            | none => f
          c.launch (c.s.setBlock c.st.block { b with stoch := z }) false f

/-- R379: two streams are correlated. -/
def correlated (l : List ZReg) : Bool :=
  match l with
  | [a, b] => (a.classes &&& b.classes) != 0
  | [a, b, x] => (a.classes &&& x.classes) != 0 || (b.classes &&& x.classes) != 0
  | _ => false
/-- R379: `zmin` needs one class, the same for both. -/
def unlike (l : List ZReg) : Bool :=
  match l with
  | [a, b] => a.classes != b.classes || popBits a.classes.toNat != 1
  | _ => false
def unionAll (l : List (BitVec 16)) : BitVec 16 := l.foldl (fun a b => a ||| b) 0
def ZAsk.plain (srcs : List (Bool × BitVec 6)) : ZAsk := ⟨srcs, none, fun _ => false, unionAll, none, [], []⟩

/-! ### The words -/

def State.modStoch (s : State) (bk : Nat) (f : Stoch → Stoch) : State := s.modBlock bk (fun b => { b with stoch := f b.stoch })

/-- R382. -/
def execZlen (l : BitVec 8) (s : State) : Out :=
  strandWord (.zlen l) (fun c => c.doneIn (c.s.modStoch c.st.block (fun z => { z with lb := lenBits l.toNat }))) s
/-- R383. -/
def execZseed (cn : BitVec 4) (a : BitVec 8) (s : State) : Out :=
  strandWord (.zseed cn a) (fun c =>
    match c.act.lowest with
    | none => c.done c.st
    | some L =>
      let x : BitVec 16 := BitVec.ofNat 16 ((c.source 1 false a).at L)
      let x := if x = 0 then resetSeed cn.toNat else x
      c.doneIn (c.s.modStoch c.st.block (fun z => { z with seeds := z.seeds.set cn.toNat x }))) s
/-- R384. -/
def execZenc (d : BitVec 6) (a : BitVec 8) (p : BitVec 1) (cn : BitVec 4) (s : State) : Out :=
  strandWord (.zenc d a p cn) (fun c =>
    c.stochastic { ZAsk.plain [] with dstz := some d, cls := fun _ => 1#16 <<< cn.toNat, src := c.source 1 false a }) s
/-- R384. -/
def execZregen (d a : BitVec 6) (cn : BitVec 4) (s : State) : Out :=
  strandWord (.zregen d a cn) (fun c =>
    c.stochastic { ZAsk.plain [(true, a)] with dstz := some d, cls := fun _ => 1#16 <<< cn.toNat }) s
/-- R385. -/
def execZdec (d : BitVec 8) (a : BitVec 6) (p : BitVec 1) (s : State) : Out :=
  strandWord (.zdec d a p) (fun c => c.stochastic { ZAsk.plain [(true, a)] with dst := some d }) s
/-- R385. -/
def execZcnt (d : BitVec 8) (a : BitVec 6) (s : State) : Out :=
  strandWord (.zcnt d a) (fun c => c.stochastic { ZAsk.plain [(true, a)] with dst := some d }) s
/-- R386. -/
def execZand (d a : BitVec 6) (r : BitVec 1) (b : BitVec 6) (s : State) : Out :=
  strandWord (.zand d a r b) (fun c => c.stochastic { ZAsk.plain [(true, a), (r == 1, b)] with dstz := some d, mix := correlated }) s
/-- R386. -/
def execZxnor (d a : BitVec 6) (r : BitVec 1) (b : BitVec 6) (s : State) : Out :=
  strandWord (.zxnor d a r b) (fun c => c.stochastic { ZAsk.plain [(true, a), (r == 1, b)] with dstz := some d, mix := correlated }) s
/-- R386. -/
def execZmin (d a : BitVec 6) (r : BitVec 1) (b : BitVec 6) (s : State) : Out :=
  strandWord (.zmin d a r b) (fun c => c.stochastic { ZAsk.plain [(true, a), (r == 1, b)] with dstz := some d, mix := unlike }) s
/-- R387. -/
def execZmux (d a b sg : BitVec 6) (s : State) : Out :=
  strandWord (.zmux d a b sg) (fun c =>
    c.stochastic { ZAsk.plain [(true, a), (true, b), (false, sg)] with dstz := some d, mix := correlated }) s
/-- R388. -/
def execZdot (d : BitVec 8) (k : BitVec 1) (a b : BitVec 6) (s : State) : Out :=
  strandWord (.zdot d k a b) (fun c =>
    c.stochastic { ZAsk.plain [(true, a), (false, b)] with dst := some d, mix := correlated, acc := c.plain false d }) s
/-- R389. -/
def execZcls (d : BitVec 8) (a : BitVec 6) (s : State) : Out :=
  strandWord (.zcls d a) (fun c =>
    match c.block with
    | none => c.s
    | some b =>
      if b.zOk c.act true a then c.resultNoLatch false d (Vals.gen (fun L => (b.stoch.reg (a.toNat + L)).tag))
      else c.raiseWide .illegalOperand 0) s
/-- R390. -/
def execZtop (d a : BitVec 8) (k : BitVec 5) (s : State) : Out :=
  strandWord (.ztop d a k) (fun c => c.stochastic { ZAsk.plain [] with dst := some d, src := c.source 1 false a }) s

/-! ### Requests -/

/-- R390: x ranks before y under a TYPE, by value alone. -/
def ranksOver (t x y : Nat) : Bool :=
  if t = 0 then decide (toSigned 32 x > toSigned 32 y)
  else if t = 1 then decide (x > y)
  else
    match Fmt.f32.decode x, Fmt.f32.decode y with
    | .nan, _ => false
    | _, .nan => true
    | p, q => Exact.lt q p && !Exact.eqv p q
/-- R390: the active lanes in their rank order. -/
def rankLanes (t : Nat) (v : Nat → Nat) (lanes : List Nat) : List Nat :=
  let rank (L : Nat) : Nat := (lanes.filter (fun M => ranksOver t (v M) (v L) || (!ranksOver t (v L) (v M) && M < L))).length
  (List.range lanes.length).filterMap (fun r => lanes.find? (fun L => rank L == r))

/-- A binary32 quotient n ÷ 2^k, exact (R60). -/
def ratio32 (n : Int) (den : Nat) : Nat := Fmt.f32.round 0 false 0 (Exact.mul (.int n) (.fin false 1 (-(Nat.log2 den : Nat)) false))

/-- R384 to R390: what a request writes: the stream of each lane, or the value of each lane. -/
def Stoch.perform (z : Stoch) (q : ZReq) : List (Nat × Nat) × Vals :=
  let N := q.lb
  let lanes := Mask.lanes q.mask
  let bitsOf (i : Nat) : Nat := (z.reg i).bits.toNat % 2 ^ N
  let all := 2 ^ N - 1
  let streams (d : BitVec 6) (f : Nat → Nat) : List (Nat × Nat) × Vals := (lanes.map (fun L => (d.toNat + L, f L)), [])
  let vals (f : Nat → Nat) : List (Nat × Nat) × Vals := ([], Vals.gen f)
  let seed (cn : BitVec 4) : Nat := (q.seeds.getD cn.toNat 0).toNat
  match decode q.word with
  | .bad _ => ([], [])
  | .ok i =>
    match i with
    | .zenc d _ p cn => streams d (fun L => zEncode (threshold (p == 1) (Lanes.at 0 q.src L).toNat) (seed cn) N)
    | .zregen d a cn => streams d (fun L => zEncode (popBits (bitsOf (a.toNat + L)) * 65536 / N) (seed cn) N)
    | .zand d a r b | .zmin d a r b => streams d (fun L => bitsOf (a.toNat + L) &&& bitsOf (zAt (r == 1) b L))
    | .zxnor d a r b => streams d (fun L => all ^^^ (bitsOf (a.toNat + L) ^^^ bitsOf (zAt (r == 1) b L)))
    | .zmux d a b x => streams d (fun L =>
        let sel := bitsOf x.toNat
        (bitsOf (b.toNat + L) &&& sel) ||| (bitsOf (a.toNat + L) &&& (all ^^^ sel)))
    | .zdec _ a p => vals (fun L =>
        let n := popBits (bitsOf (a.toNat + L))
        if p = 1 then ratio32 (2 * (n : Int) - N) N else ratio32 n N)
    | .zcnt _ a => vals (fun L => popBits (bitsOf (a.toNat + L)))
    | .zdot _ k a b => vals (fun L =>
        let x := bitsOf (a.toNat + L)
        let y := bitsOf b.toNat
        let p := if k = 0 then x &&& y else all ^^^ (x ^^^ y)
        ((Lanes.at 0 q.acc L).toNat + popBits p) % 2 ^ 32)
    | .ztop _ _ k =>
      let order := rankLanes q.type (fun L => (Lanes.at 0 q.src L).toNat) lanes
      vals (fun L =>
        let r := lanes.findIdx (fun M => M == L)
        if r ≤ k.toNat then order.getD r 0 else 0xFFFFFFFF)
    | _ => ([], [])

/-- The source streams of a request's word: whether a field is a run, and its value. -/
def zSources (w : Word) : List (Bool × BitVec 6) :=
  match decode w with
  | .ok (.zregen _ a _) | .ok (.zdec _ a _) | .ok (.zcnt _ a) => [(true, a)]
  | .ok (.zand _ a r b) | .ok (.zxnor _ a r b) | .ok (.zmin _ a r b) => [(true, a), (r == 1, b)]
  | .ok (.zmux _ a b x) => [(true, a), (true, b), (false, x)]
  | .ok (.zdot _ _ a b) => [(true, a), (false, b)]
  | _ => []
/-- The first destination stream of a request's word. -/
def zDest (w : Word) : Option (BitVec 6) :=
  match decode w with
  | .ok (.zenc d ..) | .ok (.zregen d ..) | .ok (.zand d ..) | .ok (.zxnor d ..) | .ok (.zmin d ..) | .ok (.zmux d ..) => some d
  | _ => none
/-- The streams that a request reads in a lane. -/
def ZReq.reads (q : ZReq) (L : Nat) : List Nat := (zSources q.word).map (fun p => zAt p.1 p.2 L)
/-- R378: the lanes of a request that read one of the streams `D` are affected; its destination joins them there, and leaves them
where it is written anew. -/
def ZReq.spread (q : ZReq) (D : List Nat) : ZReq × List Nat :=
  let hit (L : Nat) : Bool := (q.reads L).any D.contains
  let lanes := Mask.lanes q.mask
  ({ q with bad := q.bad ||| Mask.ofPred (fun L => Mask.has q.mask L && hit L) },
    match zDest q.word with
    | none => D
    | some d => D.filter (fun i => !lanes.any (fun L => d.toNat + L == i)) ++ (lanes.filter hit).map (d.toNat + ·))
/-- R378: the same for requests in their order. -/
def spreadAll (l : List ZReq) (D : List Nat) : List ZReq × List Nat :=
  l.foldl (fun acc q => match q.spread acc.2 with
    | (q, D) => (acc.1 ++ [q], D)) ([], D)

/-- R378, R447, R456: the check codes of the streams that the oldest request reads.  A stream that cannot be corrected is poisoned, as
are the requests that depend on it; the core's log counts it, the reads corrected, and a mark that the request finds. -/
def State.checkStreams (s : State) (block : Nat) (b : Block) : State × Block :=
  match b.stoch.reqs with
  | [] => (s, b)
  | q :: _ =>
    let rs := (Mask.lanes q.mask).flatMap q.reads
    let wrong := (rs.filter (fun i => Tbl.find b.zEcc i == some true)).eraseDups
    let s := (rs.filter (fun i => Tbl.find b.zEcc i == some false)).foldl (fun s _ => s.countError (block / 8) (some b.domSlot) 2) s
    let found := wrong ++ (if q.bad = 0 then [] else (rs.take 1))
    let s := found.foldl (fun s i => s.countPoison (block / 8) (some b.domSlot) 5 i) s
    match spreadAll b.stoch.reqs wrong with
    | (reqs, D) =>
      (s, { b with
        stoch := D.foldl (fun (z : Stoch) i => z.setReg i { z.reg i with poison := true }) { b.stoch with reqs := reqs }
        zEcc := (match zDest q.word with
          | none => wrong
          | some d => wrong ++ (Mask.lanes q.mask).map (d.toNat + ·)).foldl (fun t i => Tbl.del t i) b.zEcc })

/-- R376: the slots of the engine's frame are 4 clk long, counted from 1. -/
def State.stochFrame (s : State) : Nat := s.dclk.toNat / 4 + 1
/-- R376: the slot of now is given to a context with work, if it has not been given yet. -/
def State.grantStoch (s : State) (core : Nat) : State :=
  let k := s.core core
  let now := s.stochFrame
  if k.stochSlot = now then s
  else
    let ptr := (k.stochPtr + (now - k.stochSlot)) % 8
    let work (j : Nat) : Bool := match s.block (core * 8 + j) with
      | some b => !b.stoch.reqs.isEmpty
      | none => false
    s.setCore core { k with stochPtr := ptr, stochSlot := now, stochFor := s.slotChoice core 144 (now - 1) ptr work }
/-- R376: the slot of now is given to a context with work. -/
def execStochasticSlotGrant (core : Nat) (s : State) : Out := .next (s.grantStoch core)

/-- R376: the slot of now is given to the block's context. -/
def State.stochServed (s : State) (bk : Nat) : Bool :=
  let k := (s.grantStoch (bk / 8)).core (bk / 8)
  k.stochSlot == s.stochFrame && k.stochFor == some (bk % 8)

/-- R378, R419: DETAIL of a request whose sources were poisoned. -/
def poisonDetail (n : DWord) (m : Mask) : Detail := BitVec.ofNat 512 (n.toNat + m.toNat * 2 ^ 64)

/-- R376: the stream words of a request: of its destination or its sources, for every active lane; one where it names no stream. -/
def ZReq.total (q : ZReq) : Nat :=
  if (zDest q.word).isNone && (zSources q.word).isEmpty then 1 else (Mask.lanes q.mask).length * (q.lb / 256)
/-- R374: a request reads all its sources before it writes. -/
def ZReq.begin (z : Stoch) (q : ZReq) : ZReq :=
  if q.begun then q
  else
    let out := z.perform q
    { q with begun := true, out := out.1, vals := out.2.lanes64, next := 0 }
/-- R376: stream word `i` of a request is written; the last of a stream leaves its bits from N upward zero (R369). -/
def Stoch.writeWord (z : Stoch) (q : ZReq) (i : Nat) : Stoch :=
  let w := q.lb / 256
  match q.out[i / w]? with
  | none => z
  | some (k, v) =>
    let r := z.reg k
    let j := i % w
    let old := r.bits.toNat
    let x := old - bits old (256 * j + 255) (256 * j) * 2 ^ (256 * j) + bits v (256 * j + 255) (256 * j) * 2 ^ (256 * j)
    z.setReg k { r with bits := BitVec.ofNat 4096 (if j + 1 = w then x % 2 ^ q.lb else x) }
/-- R376: a clk of a request: four stream words of it. -/
def Stoch.turn (z : Stoch) (q : ZReq) : Stoch × ZReq :=
  let ws := (List.range 4).map (q.next + ·)
  ((ws.filter (· < q.total)).foldl (fun z i => z.writeWord q i) z, { q with next := min q.total (q.next + 4) })

/-- R425, R426: a pre-emption stops the engine for the block, but for a request in progress that it drains. -/
def State.stochGoesOn (s : State) (bk : Nat) (q : ZReq) : Bool :=
  match s.preemptOf bk with
  | none => true
  | some p => p.course == 0 && q.begun

/-- R378: the strand raises POISON_CONSUMED for a request of its own, at its next instruction boundary. -/
def State.raiseDue (s : State) (sid : Nat) : State :=
  match s.strand sid with
  | none => s
  | some st =>
    match st.due with
    | [] => s
    | (pc, m, d) :: rest =>
      if !st.atBoundary || st.halted then s
      else (s.setStrand sid { st with due := rest }).raise sid (st.slotOf m) pc ⟨.poisonConsumed, false, m, 0, 0, d, 255⟩ none false

/-- R376, R374, R378: a clk of the oldest request of a block, in a slot given to its context: four stream words, and its completion with
the last. -/
def execStochasticRequestComplete (block : Nat) (s : State) : Out :=
  .next (match s.block block with
    | none => s
    | some b0 =>
      match b0.stoch.reqs.head? with
      | none => s
      | some q0 =>
        if !s.stochGoesOn block q0 then s
        else if !s.stochServed block then s.grantStoch (block / 8)
        else
          let s := s.grantStoch (block / 8)
          let p := if q0.begun then (s, b0) else s.checkStreams block b0
          let s := p.1
          let b := p.2
          let q := (b.stoch.reqs.headD q0).begin b.stoch
          let rest := b.stoch.reqs.drop 1
          match b.stoch.turn q with
          | (z, q) =>
            if q.next < q.total then s.setBlock block { b with stoch := { z with reqs := q :: rest } }
            else
              let s := s.setBlock block { b with stoch := { z with reqs := rest, tls := q.n }.settle }
              match s.flight q.flight with
              | none => s
              | some f =>
                let vector := f.regs != 0
                let f := { f with got := [q.vals] }
                let s := if vector then s.writeBack f 0 (q.mask &&& ~~~q.bad) else s
                let s := s.completeFlight f
                if !vector || q.bad = 0 then s
                else (s.modStrand f.strand (fun st => { st with due := st.due ++ [(f.pc, q.bad, poisonDetail q.n q.bad)] })).raiseDue f.strand)

end Sys2Proof.Machine
end

