-- ==== Sys2Proof/Machine/Domains.lean ====
section
/-!
DEFINITION. Domains (18 R395 to R411): the domain partition registers and their checks, gates, and the words `gcall`, `gret`, `didq`
and `dpset`; the changes of sub-chain entries and of the sealed table (07 R178 to R180, R405).
-/
namespace Sys2Proof.Machine

/-! ### Valid registers -/

/-- R395: the ZERO fields of a DPR, high and low bit.  Bits [5:0] of GT_BASE, which R395 says are zero inside an RW field, count among
them, so that an image with one of them set is refused by R397 (DESIGN CHOICE, log entry 67). -/
def dprZeros : List (Nat × Nat) :=
  [(1023, 256), (197, 192), (175, 168), (127, 124), (119, 117), (103, 103), (95, 93), (83, 82), (63, 62), (55, 54), (51, 49), (30, 27),
   (23, 22), (15, 12)]
def zeroFields (n : Nat) (l : List (Nat × Nat)) : Bool := l.all (fun p => bits n p.1 p.2 == 0)
/-- Ranges of one DPR by base and count: column units, tiles, banks of accumulators, streams. -/
def dprRanges (d : Nat) : List (Nat × Nat) :=
  [(bits d 72 64, bits d 81 73), (bits d 87 84, bits d 92 88), (bits d 98 96, bits d 102 99), (bits d 109 104, bits d 116 110)]
/-- Two ranges share something. -/
def overlap (p q : Nat × Nat) : Bool := decide (p.1 < q.1 + q.2) && decide (q.1 < p.1 + p.2) && p.2 != 0 && q.2 != 0

/-- R397, first two points. -/
def dprOk (d : Nat) : Bool :=
  zeroFields d dprZeros && bits d 53 52 != 3 && (bits d 53 52 == 0 || bits d 61 56 % bankCount d == 0) &&
  decide (bits d 39 32 + bits d 48 40 ≤ 256) &&
  ((dprRanges d).zip [384, 16, 8, 64]).all (fun p => decide (p.1.1 + p.1.2 ≤ p.2))
/-- Pairs of different elements satisfy a relation. -/
def pairwiseB {α : Type} (r : α → α → Bool) : List α → Bool
  | [] => true
  | x :: l => l.all (r x) && pairwiseB r l
/-- R397. -/
def dprsOk (ds : List Nat) : Bool :=
  let v := ds.filter (fun d => d.testBit 31)
  let total (hi lo : Nat) : Nat := v.foldl (fun n d => n + bits d hi lo + 1) 0
  ds.all dprOk && v.all (fun d => bits d 21 16 != 0) &&
  pairwiseB (fun a b => (bits a 21 16 &&& bits b 21 16) == 0 && bits a 11 0 != bits b 11 0 &&
    (bits a 143 128 &&& bits b 143 128) == 0 && (bits a 159 144 &&& bits b 159 144) == 0) v &&
  decide (total 123 120 ≤ 16) && decide (total 163 160 ≤ 16) && decide (total 167 164 ≤ 16)

/-- R180: the sub-chain of an entry of a cluster serves one domain: it is not entry 0, or a valid entry names the domain of each
strand of the cluster. -/
def State.subSealed (s : State) (cl i : Nat) : Bool :=
  let c := s.cluster cl
  i != 0 || s.strands.all (fun p => clusterOf (coreOf p.1) != cl || c.validSubs.any (fun j => c.subDomain j == p.2.ident.toNat))

/-- R397, R398: the slots of a core that say SEALED, valid or not, meet its conditions: no bank, tile, accumulator, stream or column of
theirs is another valid slot's, so that none of its data or times reach them (R412). -/
def State.sealedOk (s : State) (core : Nat) : Bool :=
  (List.range 4).all (fun j =>
    let d := s.dpr core j
    let c := s.cluster (clusterOf core)
    let others := ((List.range 4).filter (fun k => k != j && s.slotValid core k)).map (fun k => s.dpr core k)
    !d.testBit 24 ||
    ((bits d 53 52 == 1 || bits d 53 52 == 2) &&
      others.all (fun o => !overlap (dprBanks d) (dprBanks o) && ((dprRanges d).zip (dprRanges o)).all (fun p => !overlap p.1 p.2)) &&
      bits d 143 128 != 0 && bits d 159 144 != 0 && bits d 191 176 == 0 &&
      c.validSubs.any (fun i => c.subDomain i == bits d 11 0 && s.subSealed (clusterOf core) i) &&
      s.sealedDomain (bits d 11 0)))
def State.dprList (s : State) (core : Nat) : List Nat := (List.range 4).map (s.dpr core)

/-- R178, R5: a sub-chain entry as it holds an image: ZERO fields stay zero, and entry 0 is in use whatever its image says (log
entry 60). -/
def subKept (i : Nat) (x : BitVec 128) : BitVec 128 :=
  let n := x.toNat
  BitVec.ofNat 128 (bits n 111 64 * 2 ^ 64 + bits n 59 48 * 2 ^ 48 + bits n 31 20 * 2 ^ 20 + bits n 3 1 * 2 + (if i = 0 then 1 else bits n 0 0))
/-- R179: the entries of a chain are a valid set. -/
def Cluster.subsOk (c : Cluster) : Bool :=
  let v := c.validSubs
  let front (i : Nat) : Nat := bits (c.entry i) 111 64
  decide (v.foldl (fun n i => n + c.rings i * c.rings i) 0 ≤ 1024) && v.all (fun i => front i != 0) &&
  pairwiseB (fun i j => (front i &&& front j) == 0 && c.subDomain i != c.subDomain j) v &&
  decide (v.foldl (fun n i => n + c.quota i) 0 ≤ 2048)
/-- R405. -/
def sealTableOk (t : List Word) : Bool :=
  t.all (fun w => bits w.toNat 30 12 == 0) && !((t.getD 15 0).getLsbD 31)

/-! ### Settings -/

/-- The registers after a setting (R410), its images alone. -/
def State.setRegister (s : State) (x : Setting) : State :=
  match x.kind with
  | 0 =>
    let k := s.core x.target
    let same := bits x.image.toNat 11 0 == bits (s.dpr x.target x.index) 11 0
    s.setCore x.target { k with
      dpr := k.dpr.set x.index x.image
      errSlot := if same then k.errSlot else k.errSlot.filter (fun (p : Nat × DWord) => p.1 / 11 != x.index) }
  | 1 => let c := s.cluster x.target; s.setCluster x.target { c with subs := c.subs.set x.index (subKept x.index (x.image.setWidth 128)) }
  | _ => { s with sealed := s.sealed.set x.index (x.image.setWidth 32) }

/-- R410: what a setting leaves is valid everywhere. -/
def State.registersOk (s : State) (x : Setting) : Bool :=
  match x.kind with
  | 0 => dprsOk (s.dprList x.target) && s.sealedOk x.target
  | 1 => (s.cluster x.target).subsOk && (s.cores.map Prod.fst).all (fun c => clusterOf c != x.target || s.sealedOk c)
  | _ => sealTableOk s.sealed && (s.cores.map Prod.fst).all (fun c => s.sealedOk c)

/-- R457: the domain that a launch's packet names (R461). -/
def Launch.domain (l : Launch) : Nat := bits l.packet.toNat 31 20
/-- R400: the valid slot of a core that names a domain. -/
def State.slotFor (s : State) (core dom : Nat) : Option Nat :=
  (List.range 4).find? (fun j => s.slotValid core j && bits (s.dpr core j) 11 0 == dom)
/-- R410: a slot holds or reserves a block. -/
def State.slotBusy (s : State) (core slot : Nat) : Bool :=
  s.blocks.any (fun p => p.1 / 8 == core && p.2.domSlot == slot) ||
  s.units.any (fun u => (u.2.reserved.getD []).any (fun x => x.key / 8 == core && x.block.domSlot == slot))
/-- The slots that a setting concerns (R410). -/
def State.slotsOf (s t : State) (x : Setting) : List (Nat × Nat) :=
  let cores := match x.kind with
    | 0 => [x.target]
    | 1 => (List.range 192).filter (fun c => clusterOf c == x.target)
    | _ => (List.range 192)
  let dom (c j : Nat) : BitVec 12 := BitVec.ofNat 12 (bits (s.dpr c j) 11 0)
  let named (w : Word) (d : BitVec 12) : Bool := w.getLsbD 31 && w.toNat % 4096 == d.toNat
  cores.flatMap (fun c => ((List.range 4).filter (fun j =>
    match x.kind with
    | 0 => j == x.index
    | 1 => s.slotValid c j && ((s.cluster x.target).subFor (dom c j) == x.index || (t.cluster x.target).subFor (dom c j) == x.index)
    | _ => s.slotValid c j && (named (s.sealed.getD x.index 0) (dom c j) || named (t.sealed.getD x.index 0) (dom c j)))).map
      (fun j => (c, j)))

/-- The image of a `dpset` from the lanes of its source (R410). -/
def lanesImage (v : Vals) (n : Nat) : BitVec 1024 :=
  BitVec.ofNat 1024 ((List.range n).foldl (fun x L => x + v.at L % 2 ^ 32 * 2 ^ (32 * L)) 0)

/-- R410: `dpset`, by kind. -/
def Ctx.dpset (c : Ctx) (kind : Nat) (t a : BitVec 8) (index n : Nat) : State :=
  if !c.st.rightKernel then c.raiseWide .permission 0
  else
    let x : Setting := ⟨c.s.nextFlight, kind, t.toNat, index, lanesImage (c.plain false a) n, c.s.dclk + 64⟩
    let before := c.s.settings.foldl State.setRegister c.s
    let after := before.setRegister x
    if !after.registersOk x then c.raiseWide .illegalOperand 0
    else if (before.slotsOf after x).any (fun p => c.s.slotBusy p.1 p.2) then c.raiseWide .domain 0
    else c.doneIn { c.s with settings := c.s.settings ++ [x], nextFlight := c.s.nextFlight + 1 }
/-- R410. -/
def execDpsetDpr (t a : BitVec 8) (im : BitVec 4) (s : State) : Out :=
  strandWord (.dpsetDpr t a im) (fun c => c.dpset 0 t a im.toNat 32) s
/-- R410. -/
def execDpsetSub (t a : BitVec 8) (im : BitVec 4) (s : State) : Out :=
  strandWord (.dpsetSub t a im) (fun c => c.dpset 1 t a im.toNat 4) s
/-- R410. -/
def execDpsetSeal (t a : BitVec 8) (im : BitVec 4) (s : State) : Out :=
  strandWord (.dpsetSeal t a im) (fun c => c.dpset 2 t a im.toNat 1) s

/-- R180: a lot is written back if dirty and removed from a chain, and its pins are dropped. -/
def State.flushLot (s : State) (k lot : Nat) : State :=
  let s := s.returnLent k lot
  let c := s.cluster k
  let written := (c.lot lot).any Lot.dirty || c.wbs.any (fun w => w.lot == lot)
  let c := match c.lot lot with
    | some l => c.evict lot { l with dirty := false }
    | none => c
  let s := (if written then s.rewritten lot else s)
  (s.updateCluster k { c with wbs := c.wbs.filter (fun w => w.lot != lot), pins := c.pins.filter (fun p => p.lot != lot) })

/-- R228: the frame of a lot belongs to a domain by the table of some valid tract. -/
def State.ownedBy (s : State) (lot dom : Nat) : Bool :=
  (List.range 16).any (fun t =>
    let e := s.frameEntry t (256 * lot)
    s.tractField t 31 31 == 1 && bits e 15 14 == 0 && bits e 11 0 == dom)

/-- R180, R411: the lots that leave the chains before a setting is in force, by chain. -/
def State.settingLots (s : State) (x : Setting) : List (Nat × Nat) :=
  match x.kind with
  | 0 => []
  | 1 => ((s.cluster x.target).lots.filter (fun p => p.2.sub == x.index)).map (fun p => (x.target, p.1)) ++
    ((s.cluster x.target).wbs.filter (fun w => w.sub == x.index)).map (fun w => (x.target, w.lot))
  | _ =>
    let old := s.sealed.getD x.index 0
    let new : Word := x.image.setWidth 32
    let doms := ([old, new].filter (fun w => w.getLsbD 31)).map (fun w => w.toNat % 4096)
    s.clusters.flatMap (fun p =>
      ((p.2.lots.map Prod.fst ++ p.2.wbs.map WriteBack.lot).filter (fun lot => doms.any (s.ownedBy lot))).map (fun lot => (p.1, lot)))

/-- R411: a setting comes into force, after its write-backs and its delay. -/
def execDpsetEffect (setting : Nat) (s : State) : Out :=
  .next (match s.settings.find? (fun x => x.id == setting) with
    | none => s
    | some x =>
      let first := s.settings.find? (fun y => y.kind == x.kind && y.target == x.target)
      let lots := s.settingLots x
      let inFlight := s.flights.any (fun f => f.reqs.any (fun r => r.phase != .done && lots.any (fun p => p.2 == r.lot)))
      if first != some x || (x.kind != 1 && s.dclk < x.due) || inFlight then s
      else
        let s := lots.foldl (fun s p => s.flushLot p.1 p.2) s
        let s := s.setRegister x
        { s with settings := s.settings.filter (fun y => y.id != x.id) })

/-! ### Gates -/

/-- F is the only fragment of the strand. -/
def Strand.lone (st : Strand) (slot : Bool) : Bool := (st.frag (!slot)).isNone && !st.spilledFrag
/-- R408: no join record has lanes that have arrived. -/
def Strand.noneArrived (st : Strand) : Bool :=
  st.stack.all (fun p => match p.2 with
    | .join _ _ arr _ _ _ => arr == 0
    | .frag _ _ => true)
def Ctx.domSlot (c : Ctx) : Nat := (c.block.map Block.domSlot).getD 0

/-- R29: the check of one target for the whole fragment, and then the word's effect. -/
def Ctx.oneTarget (c : Ctx) (t : DWord) (body : State → State) : State := c.checkedTargets c.f.mask (fun _ => t) body

/-- R406, R408. -/
def execGcall (a : BitVec 8) (s : State) : Out :=
  strandWord (.gcall a) (fun c =>
    let d := c.s.dpr c.core c.domSlot
    if !c.st.lone c.slot || !c.st.noneArrived || c.s.slotSealed c.core c.domSlot then c.raiseWide .gate 0
    else
      let g := c.lowest false a % 2 ^ 32
      if bits d 191 176 ≤ g || 4 ≤ c.st.gates.length then c.raiseWide .gate 0
      else
        let at_ := bits d 255 192 + 32 * g
        match c.s.consume c.core (some c.domSlot) (if inHbm at_ then (List.range 32).map (at_ + ·) else []) with
        | (s, false) => c.raise s (Raised.wide .poisonConsumed c.act 0)
        | (s, true) =>
          let c := { c with s := s }
          let e := c.s.readN at_ 32
          if bits e 0 0 = 0 || !zeroFields e [(127, 64), (47, 40), (37, 32), (19, 1)] || c.s.sealedDomain (bits e 31 20) then
            c.raiseWide .gate 0
          else
            let entry : DWord := BitVec.ofNat 64 (bits e 255 192)
            c.oneTarget entry (fun s =>
              let st := c.strandIn s
              let frame : GateFrame := ⟨c.f.pc + 4, st.ident, st.asid, st.groot, st.rightMwait, st.rightKernel, BitVec.ofNat 16 g⟩
              c.leave s ({ st with
                gates := st.gates ++ [frame]
                ident := BitVec.ofNat 12 (bits e 31 20)
                asid := BitVec.ofNat 16 (bits e 63 48)
                groot := BitVec.ofNat 64 (bits e 191 128)
                rightMwait := bits e 39 39 == 1
                rightKernel := bits e 38 38 == 1 }.transfer c.slot c.f entry))) s

/-- R408. -/
def execGret (s : State) : Out :=
  strandWord .gret (fun c =>
    match c.st.lone c.slot, c.st.gates.getLast? with
    | true, some g =>
      c.oneTarget g.ret (fun s =>
        let st := c.strandIn s
        c.leave s ({ st with
          gates := st.gates.dropLast
          ident := g.ident
          asid := g.asid
          groot := g.groot
          rightMwait := g.mwait
          rightKernel := g.kernel }.transfer c.slot c.f g.ret))
    | _, _ => c.raiseWide .gate 0) s

/-- R409. -/
def execDidqSelf (d : BitVec 8) (s : State) : Out :=
  strandWord (.didqSelf d) (fun c =>
    let dpr := c.s.dpr c.core c.domSlot
    let x := bits dpr 11 0 * 2 ^ 20 + c.st.gates.length % 8 * 2 ^ 17 + flagBit c.st.rightMwait * 2 ^ 16 +
      flagBit c.st.rightKernel * 2 ^ 15 + bits dpr 24 24 * 2 ^ 14 + c.domSlot % 4 * 2 ^ 12 + c.st.ident.toNat
    c.resultNoLatch false d (Vals.gen (fun _ => x))) s
/-- R409. -/
def execDidqGate (d : BitVec 8) (s : State) : Out :=
  strandWord (.didqGate d) (fun c =>
    let x := match c.st.gates.getLast? with
      | some g => g.gate.toNat * 2 ^ 16 + c.st.gates.length % 16 * 2 ^ 12 + g.ident.toNat
      | none => 0
    c.resultNoLatch false d (Vals.gen (fun _ => x))) s
/-- R409. -/
def execDidqDpr (d a : BitVec 8) (s : State) : Out :=
  strandWord (.didqDpr d a) (fun c =>
    let x := c.lowest false a
    if !c.st.rightKernel then c.raiseWide .permission 0
    else if 191 < bits x 7 0 then c.raiseWide .illegalOperand 0
    else
      let dpr := c.s.dpr (bits x 7 0) (bits x 9 8)
      c.resultNoLatch false d (Vals.gen (fun L => dpr / 2 ^ (32 * L) % 2 ^ 32))) s

end Sys2Proof.Machine
end

