-- ==== Sys2Proof/Machine/Traps.lean ====
section
/-!
DEFINITION. The words of 19 R433 to R438: service requests with their ring and replies (22 R460, R475), soft traps and breaks, the
return from the trap vector, and the saving and loading of a strand's context; the taking of a final trap (R417), and the hub's
collectives.
-/
namespace Sys2Proof.Machine

/-! ### Service requests -/

/-- R460: the ring of a queue has room. -/
def State.serviceRoom (s : State) (q : Nat) : Bool :=
  decide (s.queueField q 767 704 - s.queueField q 703 640 < 2 ^ s.queueField q 575 572)
/-- R460: the address of entry `i`, by the descriptor as it stands (log entry 76). -/
def State.serviceAt (s : State) (q i : Nat) : Nat := s.queueField q 639 576 + 1152 * (i % 2 ^ s.queueField q 575 572)

/-- R434: the 1,152 bytes of an entry. -/
def serviceEntry (st : Strand) (f : Frag) (call x : Nat) : Nat :=
  sumF [putF 0 4 call, putF 4 4 f.mask.toNat, putF 8 8 f.pc.toNat, putF 0x10 4 st.strandId.toNat, putF 0x14 4 st.ident.toNat,
    putF 0x18 8 st.gangInfo.toNat,
    sumF ((List.range 8).map (fun j => putF (0x80 + 128 * j) 128 (lanesNat (st.reg (x + j)))))]

/-- The call number of a `syscall` of fragment `f` (R433, R434). -/
def Strand.callNumber (st : Strand) (f : Frag) (a : BitVec 8) : Nat :=
  (st.source false 0 false a.toNat).at ((Mask.lowest f.mask).getD 0) % 2 ^ 32

/-- R434, R460: the entry of a holding `syscall` is appended, SVC_PROD advances, and the kernel gets its event. -/
def State.appendService (s : State) (sid : Nat) (slot : Bool) (st : Strand) (f : Frag) (x a : BitVec 8) : State :=
  let q := st.queue
  let i := s.queueField q 767 704
  let tag := ((s.block st.block).map Block.tag).getD 0
  let s := s.writeVa (s.queueSpace q) (s.serviceAt q i) 1152 (serviceEntry st f (st.callNumber f a) x.toNat)
  let s := s.writeN (s.queueAt q + 88) 8 (i + 1)
  let s := s.post 9 0 st.strandId.toNat q i
  let v : Service := ⟨q, BitVec.ofNat 64 i, sid, st.ctxBase, x.toNat, f.mask, false, tag, st.space⟩
  let s := { s with services := s.services ++ [v] }
  s.setStrand sid (st.setFrag slot (some { f with hold := .service (some v.entry) }))

/-- R475: the hub's collective unit takes the call and replies with the block's next TLX number. -/
def Ctx.collective (c : Ctx) (x : BitVec 8) (op : Nat) : State :=
  match c.block with
  | none => c.s
  | some b =>
    let L := (Mask.lowest c.f.mask).getD 0
    let w (j : Nat) : Nat := (c.st.regs false (x.toNat + j)).at L
    let n := b.tlxSubmitted + 1
    let r : Collective := ⟨c.st.block, n, op, BitVec.ofNat 64 (w 2 + w 3 * 2 ^ 32), BitVec.ofNat 64 (w 4 + w 5 * 2 ^ 32), w 6, w 7,
      c.sid, c.st.agent c.s c.sid⟩
    let s := c.s.setBlock c.st.block { b with tlxSubmitted := n }
    let s := { s with collectives := s.collectives ++ [r] }
    let st := c.st.setRegs false x.toNat c.f.mask (Vals.gen (fun _ => n.toNat % 2 ^ 32))
    let st := st.setRegs false (x.toNat + 1) c.f.mask (Vals.gen (fun _ => 0))
    (s.setStrand c.sid (c.advance st)).acquireOutside c.core

/-- R434: the other fragment of the strand was in a request of its own at the save. -/
def Ctx.otherCalls (c : Ctx) : Bool := (c.st.frag !c.slot).any Frag.calling
/-- R434: the word in hand is a request that was holding when its strand was saved: its own fragment's, or, where the part does not know
whose the request of the image is, that of the first to come to it. -/
def Ctx.resumesCall (c : Ctx) : Bool := c.f.calling || (c.st.syscallPending && !c.otherCalls)
/-- R434: a request whose strand has been saved and resumed holds again, or completes if its reply came meanwhile.  The requests of two
fragments have different masks. -/
def Ctx.resumeService (c : Ctx) : State :=
  let f := { c.f with calling := false }
  let st := { c.st.setFrag c.slot (some f) with syscallPending := c.otherCalls }
  match c.s.services.find? (fun v => v.strand == c.sid && !v.saved && v.mask == c.f.mask) with
  | some v => { c with f := f }.hold (c.s.setStrand c.sid st) (.service (some v.entry))
  | none => (c.done st).acquireOutside c.core

/-- R434, R475. -/
def execSyscall (x a : BitVec 8) (s : State) : Out :=
  strandWord (.syscall x a) (fun c =>
    if c.s.queueField c.st.queue 639 576 = 0 then c.raiseWide .syscall 0
    else
      let n := c.st.callNumber c.f a
      if c.resumesCall then c.resumeService
      else if n / 4 = 0xFC000000 / 4 then c.collective x (n % 4)
      else c.hold c.s (.service none)) s

/-- R460: the oldest entry that waits for room goes into the ring. -/
def execSyscallAppend (strand : Nat) (slot : Bool) (s : State) : Out :=
  .next (match (s.strand strand).bind (fun st => (st.frag slot).map (fun f => (st, f))) with
    | none => s
    | some (st, f) =>
      match f.hold, decode f.word with
      | .service none, .ok (.syscall x a) =>
        if s.serviceRoom st.queue then s.unlessFull ((s.appendService strand slot st f x a).observed (coreOf strand) 5) else s
      | _, _ => s)

/-- `n` bytes at a virtual address under an outside space; a piece that is not in this package's memory reads as free values. -/
def State.readFree (s : State) (sp : Space) (va n : Nat) : Nat × State :=
  match s.readVa sp va n with
  | some x => (x, s)
  | none => ((List.range ((n + 7) / 8)).foldl (fun x j => x + (Config.freeDWord (s.fresh + j)).toNat * 2 ^ (64 * j)) 0 % 256 ^ n,
      { s with fresh := s.fresh + (n + 7) / 8 })

/-- R434: a reply word of each lane of `m` goes into a register of a strand's image. -/
def State.writeImageReg (s : State) (sp : Space) (ctx : DWord) (r : Nat) (m : Mask) (v : Lanes Word) : State :=
  (Mask.lanes m).foldl (fun s L => s.writeVa sp (ctx.toNat + 128 * r + 4 * L) 4 (Lanes.at 0 v L).toNat) s

/-- The slot whose fragment holds for an entry. -/
def Strand.serviceSlot (st : Strand) (e : DWord) : Option Bool :=
  [false, true].find? (fun b => (st.frag b).any (fun f => f.hold == .service (some e)))

/-- R434, R460, R475: the reply of entry `i` reaches its strand wherever it stands; one that no call awaits is told to the
kernel. -/
def State.replyService (s : State) (q : Nat) (i : DWord) : State :=
  match s.services.find? (fun v => v.queue == q && v.entry == i) with
  | none => s.post 6 0 0 q 0
  | some v =>
    match s.readFree (s.queueSpace q) (s.serviceAt q i.toNat + 0x80) 256 with
    | (n, s) =>
      let r0 := natLanes (n % 2 ^ 1024)
      let r1 := natLanes (n / 2 ^ 1024)
      let s := { s with services := s.services.filter (fun w => !(w.queue == q && w.entry == i)) }
      let image (s : State) : State := (s.writeImageReg v.space v.ctx v.run v.mask r0).writeImageReg v.space v.ctx (v.run + 1) v.mask r1
      if v.saved then image s
      else
        match s.strand v.strand with
        | none => s
        | some st =>
          let s := if st.spilled then image s
            else
              let st := st.setReg v.run v.mask (Vals.ofLanes r0)
              s.setStrand v.strand (st.setReg (v.run + 1) v.mask (Vals.ofLanes r1))
          match st.serviceSlot i with
          | some slot => (s.endHold v.strand slot).acquireOutside (coreOf v.strand)
          | none => s

/-- R460. -/
def execServiceReply (queue entry : Nat) (s : State) : Out := .next (s.unlessFull (s.replyService queue (BitVec.ofNat 64 entry)))

/-- R277: TLX moves past every collective that has completed. -/
def Block.advanceTlx (b : Block) : Block :=
  let t := (List.range b.tlxDone.length).foldl (fun (t : DWord) _ => if b.tlxDone.contains (t + 1) then t + 1 else t) b.tlx
  { b with tlx := t, tlxDone := b.tlxDone.filter (fun n => t < n) }

/-- R475: what a collective writes.  An all-gather writes the parts of the `n` members in turn, the chip's own at place `own`; a
broadcast the part of the lowest; and a sum over one member is that member's.  What comes from the peers is free. -/
def collectiveBytes (op n own : Nat) (mine : List Byte) (free : Nat → Byte) : List Byte :=
  let theirs (m : Nat) : List Byte := (List.range mine.length).map (fun j => free (m * mine.length + j))
  if op = 2 then (List.range n).flatMap (fun m => if m = own then mine else theirs m)
  else if (op = 3 && own = 0) || n = 1 then mine
  else theirs 0
/-- R475, R277: a collective completes.  The peers of a set, and so their number and the chip's place among them, are free (log entry
4). -/
def execCollectiveComplete (block number : Nat) (gone : Bool) (s : State) : Out :=
  .next (match s.collectives.find? (fun r => r.block == block && r.number.toNat == number), s.block block with
    | some r, some b =>
      let s := { s with collectives := s.collectives.filter (fun x => x != r) }
      let peer := (Config.freeByte s.fresh).toNat
      let own := (Config.freeByte (s.fresh + 1)).toNat % (1 + peer)
      let s := { s with fresh := s.fresh + 2 }
      let b := { b with
        tlxDone := b.tlxDone ++ [r.number]
        tlxGone := if gone then b.tlxGone ++ [(r.number, peer)] else b.tlxGone }
      let s := s.setBlock block b.advanceTlx
      if gone then s
      else
        let sp := r.agent.space false
        match s.readFree sp r.src.toNat r.bytes with
        | (v, s) =>
          let mine := (List.range r.bytes).map (fun j => BitVec.ofNat 8 (v / 256 ^ j))
          { s with fresh := s.fresh + r.bytes * (1 + peer) }.hubWrite sp r.dst.toNat
            (collectiveBytes r.op (1 + peer) own mine (fun j => Config.freeByte (s.fresh + j)))
    | _, _ => s)

/-! ### Soft traps, breaks and the return -/

/-- R435. -/
def execTrap (code : BitVec 16) (s : State) : Out :=
  strandWord (.trap code) (fun c => c.raiseAfter c.s (Raised.wide .softTrap c.act (BitVec.ofNat 512 code.toNat))) s
/-- R435, R422: with DEBUG 1 the strand halts. -/
def execBrk (code : BitVec 8) (s : State) : Out :=
  strandWord (.brk code) (fun c =>
    let s := if c.st.debug then c.s.setStrand c.sid { c.st with halted := true } else c.s
    c.raiseAfter s (Raised.wide .break c.act (BitVec.ofNat 512 code.toNat))) s

/-- R25, R436: the place of the word after body word `index` of the clause at `header`. -/
def State.placeAfter (s : State) (a : Agent) (pc header : DWord) (index : Nat) : DWord × DWord × Nat :=
  let len := match (s.fetchWord a header).2 with
    | .ok w => if isHeader w then fld w.toNat 26 23 + 1 else 0
    | .error _ => 0
  if pc != header && index + 1 < len then (pc + 4, header, index + 1) else (pc + 4, pc + 4, 0)

/-- The held log entry of a record's word (R436). -/
def Strand.entryOf (st : Strand) (r : Record) : Option LogEntry := st.opLog.find? (fun e => e.pc == r.wordPc && e.replay != 0)

/-- R436: where `tret` goes: the place in the record, or past its word when that is skipped and holds no log entry. -/
def Ctx.returnPlace (c : Ctx) (r : Record) (skip : Bool) : DWord × DWord × Nat :=
  if skip && (c.st.entryOf r).isNone && r.pc == r.wordPc then c.s.placeAfter (c.st.agent c.s c.sid) r.pc r.header r.index
  else (r.pc, r.header, r.index)

/-- R436: the strand leaves its handler for a place, the skipped log entry freed. -/
def Strand.leaveVector (st : Strand) (slot : Bool) (r : Record) (skip : Bool) (p : DWord × DWord × Nat) : Strand :=
  let only := if skip then none else st.onlyOf r
  let st := match st.frag slot with
    | some f => st.setFrag slot (some { f with mode := st.saveMode, join := st.saveJoin, q := st.saveQ })
    | none => st
  let log := if skip then (match st.entryOf r with
      | some e => st.opLog.erase e
      | none => st.opLog) else st.opLog
  { st.resumeAt slot p.1 p.2.1 p.2.2 only with inHandler := false, record := none, saveRecord := none, opLog := log }

/-- R436: returns from the trap vector; the target's checks are those of R29, the header being that of the place's clause. -/
def execTret (k : BitVec 1) (s : State) : Out :=
  strandWord (.tret k) (fun c =>
    match c.st.inHandler, c.st.saveRecord with
    | true, some r =>
      let skip := k == 1
      let p := c.returnPlace r skip
      if p.1.toNat % 4 ≠ 0 then c.raiseWide .misaligned 0
      else
        match c.s.checkTarget (c.st.agent c.s c.sid) p.2.1 with
        | (s, some (e, d)) => c.raise s { Raised.wide e c.act d with addr := if e == .stage2 then p.2.1 else 0 }
        | (s, none) =>
          let st := c.strandIn s
          let flag := if skip then (st.entryOf r).bind LogEntry.flag else none
          let s := s.setStrand c.sid (st.leaveVector c.slot r skip p)
          ((s.clearFlag c.sid flag).replayAll c.sid).recheckClauses c.sid
    | _, _ => c.raiseWide .controlIntegrity 0) s

/-- R417: the record of an open fault is final; or a cause that has waited for the strand's boundary is raised (16 R378). -/
def execTrapTaken (strand : Nat) (s : State) : Out :=
  .next (match s.strand strand with
    | none => s
    | some st =>
      match st.openFault with
      | some o => if s.trapReady strand st o then s.takeTrap strand else s
      | none => s.raiseDue strand)

/-! ### Saving and loading a context -/

/-- R437: the image has D at 1 in the active lanes and the PC after the word; the live strand gets 0.  Its lane's checks are those of
R203, and a fault of it defers (R204, R233). -/
def execCtxsv (d a : BitVec 8) (s : State) : Out :=
  strandWord (.ctxsv d a) (fun c =>
    if !c.st.lone c.slot || c.st.inHandler then c.raiseWide .illegalOperand 0
    else
      match askOf (.ctxsv d a) c.type with
      | none => c.s
      | some x =>
        if c.act = 0 then c.over c.s
        else
          let with_ (n : Nat) : Strand := c.st.setRegs false d.toNat c.act (Vals.gen (fun _ => n))
          let img := (c.advance (with_ 1)).image
          let s := c.s.writeStack c.sid c.st
          c.flyImage s .ctxSave x img (c.advance (with_ 0))) s
/-- R438.  The record that it would fold goes with the rest of the context, and a word that is refused folds none (R444). -/
def execCtxld (a : BitVec 8) (s : State) : Out :=
  strandWord (.ctxld a) (fun c =>
    if !c.st.rightKernel then c.raiseWide .permission 0
    else if !c.st.lone c.slot then c.raiseWide .illegalOperand 0
    else
      match askOf (.ctxld a) c.type with
      | none => c.s
      | some x => if c.act = 0 then c.over c.s else c.flyImage c.s .ctxLoad x 0 (c.advanceQuiet c.st)) s

end Sys2Proof.Machine
end

