-- ==== Sys2Proof/Machine/Launching.lean ====
section
/-!
DEFINITION. Launches (22 R457 to R468, 04 R69 to R77): notify writes, the acceptance of packets and the field book, the start of a
launch with its group table, the placement units, what a block and a strand start with, relaunches, and completion.
-/
namespace Sys2Proof.Machine

/-! ### The fields of a packet (R461) -/

def Launch.pk (l : Launch) (hi lo : Nat) : Nat := bits l.packet.toNat hi lo
def Launch.isLaunch (l : Launch) : Bool := l.pk 7 0 == 1
def Launch.blocksPer (l : Launch) : Nat := l.pk 66 64 + 1
def Launch.strandsPer (l : Launch) : Nat := l.pk 71 67 + 1
/-- The gangs of the launch; a marker has none. -/
def Launch.gangCount (l : Launch) : Nat := if l.isLaunch then l.pk 63 32 else 0
def Launch.granules (l : Launch) : Nat := l.pk 76 72
/-- R152. -/
def Launch.sa (l : Launch) : Nat := roundPage (l.pk 112 93 + 128)
def Launch.ca (l : Launch) : Nat := l.pk 121 113 * 65536
/-- R315. -/
def Launch.quota (l : Launch) : Nat := if l.pk 170 160 = 0 then 64 else l.pk 170 160
def Launch.relaunchable (l : Launch) : Bool := l.pk 16 16 == 1

/-! ### The field book and completion -/

/-- R466: a completion record. -/
def Launch.record (l : Launch) (now : DWord) (status detail cause gang : Nat) : Nat :=
  status % 256 + l.seq.toNat % 2 ^ 56 * 2 ^ 8 + min 255 l.relaunches * 2 ^ 72 + detail % 256 * 2 ^ 80 + cause % 256 * 2 ^ 88 +
    gang % 2 ^ 32 * 2 ^ 96 + now.toNat * 2 ^ 128 + l.pk 511 448 * 2 ^ 192
/-- R467: a field-book entry. -/
def Launch.bookEntry (l : Launch) (state record : Nat) : Nat :=
  state + l.seq.toNat % 2 ^ 56 * 2 ^ 8 + l.queue % 2 ^ 10 * 2 ^ 64 + record * 2 ^ 128 + l.index.toNat * 2 ^ 384 +
    l.acceptDclk.toNat * 2 ^ 448 + l.packet.toNat * 2 ^ 512
def State.bookAt (s : State) (l : Launch) : Nat := (s.control.fbBase.getD l.tower 0).toNat + 128 * (l.seq.toNat % 65536)
def State.writeBook (s : State) (l : Launch) (state record : Nat) : State := s.storeN (s.bookAt l) 128 (l.bookEntry state record)

/-- R465: the completion record is written, or skipped with an event where its write faults, and the field book keeps the
outcome.  `known`: the packet has been read. -/
def State.finishLaunch (s : State) (l : Launch) (known : Bool) (status detail cause gang : Nat) : State :=
  let r := l.record s.dclk status detail cause gang
  let va := l.pk 447 384
  let sp := l.space
  let ok := known && decide (va < 2 ^ 57) && (s.vaFault sp va 32 .write).isNone
  let s := if ok then s.hubWrite sp va ((List.range 32).map (fun j => BitVec.ofNat 8 (r / 256 ^ j))) else s.post 7 0 0 l.queue 0
  let s := s.writeBook l 3 r
  { s with launches := s.launches.filter (fun x => x.id != l.id) }

/-! ### Notify writes and acceptance -/

/-- R458, R460, R472; nothing is reached before the boot has released the harts (24 R493). -/
def execNotifyWrite (queue : Nat) (value : BitVec 64) (s : State) : Out :=
  .next (
    if 1024 ≤ queue || s.board.stage != 2 then s
    else if value.getLsbD 63 then s.unlessFull (s.replyService queue (value &&& ~~~(1#64 <<< 63)))
    else
      let r := s.queueField queue 255 192
      if value < Tbl.get 0 s.notify queue then s
      else if value.toNat < r || r + 2 ^ s.queueField queue 67 64 < value.toNat then s.unlessFull (s.post 6 0 0 queue 0)
      else { s with notify := Tbl.put s.notify queue value })

/-- R461: the ZERO fields of a packet; a marker's [383:64] are zero as well. -/
def packetZeros (p : Nat) : List (Nat × Nat) :=
  [(191, 171), (143, 128), (127, 122), (19, 18)] ++ (if bits p 7 0 = 2 then [(383, 64)] else [])
/-- R463: the DETAIL of the first check that a packet fails, 0 when it passes. -/
def State.packetDetail (s : State) (q p : Nat) : Nat :=
  let l : Bool := bits p 7 0 == 1
  let quota := bits p 170 160
  let real := if quota = 0 then 64 else quota
  let image := imageSize (roundPage (bits p 112 93 + 128)) (bits p 121 113 * 65536) (bits p 81 77) (bits p 85 82) (bits p 92 86)
  if (bits p 7 0 != 1 && bits p 7 0 != 2) || !zeroFields p (packetZeros p) then 2
  else if s.queueField q 95 84 != 0xFFF && bits p 31 20 != s.queueField q 95 84 then 3
  else if (bits p 11 9 != 4 && bits p 11 9 != 5) || (bits p 15 13 != 4 && bits p 15 13 != 5) then 4
  else if l && ((quota != 0 && (decide (quota < 8) || decide (1024 < quota))) || decide (384 < bits p 121 113) ||
      decide (0x7FF80 < bits p 112 93) || decide (64 < bits p 92 86) || decide (8 < bits p 85 82) || decide (16 < bits p 81 77) ||
      decide (24 < bits p 76 72) || bits p 63 32 == 0) then 5
  else if bits p 255 192 % 4 != 0 || bits p 447 384 % 32 != 0 then 6
  else if l && decide (s.queueField q 383 320 < bits p 63 32 * (bits p 66 64 + 1) * (bits p 71 67 + 1)) then 8
  else if l && decide (s.queueField q 511 448 < image + (real - 8) * 256) then 9
  else 0

/-- R458, R467: a queue has a packet that its processor may accept. -/
def State.packetDue (s : State) (q : Nat) : Bool :=
  let tower := s.queueField q 73 73
  decide (q < 1024) && s.board.stage == 2 && s.queueField q 72 72 == 1 && decide (s.queueField q 255 192 < (Tbl.get 0 s.notify q).toNat) &&
  decide ((s.nextSeq.getD tower 0).toNat - (s.control.fbAck.getD tower 0).toNat < 65536)
/-- R458: how many queues the turn passes over, from the queue after the last one, to come to queue `q`. -/
def turnsTo (last q : Nat) : Nat := (q + 1024 - last % 1024) % 1024
/-- R458: the next packet of a queue may be accepted: no other queue of its processor that has one comes before it in turn. -/
def State.mayAccept (s : State) (q : Nat) : Bool :=
  let tower := s.queueField q 73 73
  let last := Tbl.get 0 s.lastQueue tower
  s.packetDue q &&
  s.notify.all (fun p => !(s.packetDue p.1 && s.queueField p.1 73 73 == tower) || decide (turnsTo last q ≤ turnsTo last p.1))

/-- R463. -/
def execPacketAccept (queue : Nat) (s : State) : Out :=
  .next (
    if !s.mayAccept queue then s
    else
      let start := s
      let tower := s.queueField queue 73 73
      let i := s.queueField queue 255 192
      let sp := s.queueSpace queue
      let va := s.queueField queue 63 0 + 64 * (i % 2 ^ s.queueField queue 67 64)
      let fault := (s.vaFault sp va 64 .read).isSome
      match s.readFree sp va 64 with
      | (p, s) =>
        let detail := if fault then 1 else s.packetDetail queue p
        let seq := s.nextSeq.getD tower 0
        let l : Launch := {
          id := s.nextLaunch, queue := queue, tower := tower, seq := seq, index := BitVec.ofNat 64 i,
          packet := BitVec.ofNat 512 p, desc := BitVec.ofNat 1024 (s.readN (s.queueAt queue) 128), acceptDclk := s.dclk, started := false, groups := [], groupPhase := [], groupArrived := [],
          groupBroken := [], groupStamp := [], groupFirst := [], nextGang := 0, relaunch := [], ended := 0, relaunches := 0, relaunchCount := [], reserved := [],
          outcome := none, unplaceable := false, startStamp := none, endStamp := none }
        let s := { s with
          lastQueue := Tbl.set 0 s.lastQueue tower ((queue + 1) % 1024)
          nextLaunch := s.nextLaunch + 1
          nextSeq := s.nextSeq.set tower ((seq + 1) &&& 0x00FF_FFFF_FFFF_FFFF#64)
          launches := s.launches ++ [l] }
        let s := s.writeBook l 1 0
        let s := s.writeN (s.queueAt queue + 24) 8 (i + 1)
        if detail = 0 then s else start.unlessFull (s.finishLaunch l (!fault) 2 detail 0 0))

/-! ### The group table -/

/-- R77: the names of one list, once each, as 8·gang + index. -/
def nameList (n count : Nat) : List Nat := ((List.range count).map (fun j => n / 2 ^ (32 * j) % 2 ^ 32)).eraseDups

/-- R77: the launch's copy of its group table; `none`: it is rejected.  The LIST of an entry of COUNT 0 is checked for its alignment
alone (log entry 35). -/
def State.groupTable (s : State) (l : Launch) : State × Option (Tbl (List Nat)) :=
  let sp := l.space
  let ptr := l.pk 383 320
  if ptr = 0 then (s, some [])
  else if (s.vaFault sp ptr 4096 .read).isSome then (s, none)
  else
    match s.readFree sp ptr 4096 with
    | (t, s) =>
      let read := (List.range 256).foldl (fun (acc : State × Option (Tbl (List Nat))) g =>
        match acc with
        | (s, none) => (s, none)
        | (s, some tbl) =>
          let e := t / 2 ^ (128 * g) % 2 ^ 128
          let list := bits e 63 0
          let count := bits e 95 64
          if bits e 127 96 ≠ 0 || list % 4 ≠ 0 || (count ≠ 0 && (s.vaFault sp list (4 * count) .read).isSome) then (s, none)
          else if count = 0 then (s, some tbl)
          else
            match s.readFree sp list (4 * count) with
            | (n, s) =>
              let names := nameList n count
              if names.any (fun m => l.gangCount ≤ m / 8 || l.blocksPer ≤ m % 8) then (s, none)
              else (s, some (tbl ++ [(g, names)]))) (s, some [])
      match read with
      | (s, none) => (s, none)
      | (s, some tbl) =>
        let all := (tbl.flatMap (fun (p : Nat × List Nat) => p.2)).eraseDups
        if all.any (fun m => 4 < (tbl.filter (fun (p : Nat × List Nat) => p.2.contains m)).length) then (s, none) else (s, some tbl)

/-! ### Where a block fits -/

/-- What a block asks of a core (R71, R72): strands by number with their granules, and the allotments. -/
structure Need where
  dom     : Nat
  strands : List (Nat × Nat)
  sa      : Nat
  ca      : Nat
  tiles   : Nat
  accs    : Nat
  streams : Nat

/-- Where a block would stand on a core. -/
structure Fit where
  key     : Nat
  slot    : Nat
  spad    : Nat
  col     : Nat
  tbase   : Nat
  abase   : Nat
  zbase   : Nat
  strands : List Nat

def Launch.need (l : Launch) : Need :=
  ⟨l.domain, (List.range l.strandsPer).map (fun j => (j, l.granules)), l.sa, l.ca, l.pk 81 77, l.pk 85 82, l.pk 92 86⟩

/-- The blocks on a core that hold or have reserved a part of it (R73), with their keys. -/
def State.blocksOn (s : State) (core : Nat) : List (Nat × Block) :=
  s.blocks.filter (fun p => p.1 / 8 == core) ++
  s.units.flatMap (fun u => ((u.2.reserved.getD []).filter (fun x => x.key / 8 == core)).map (fun x => (x.key, x.block)))
/-- The strand slots of a core that placement units have reserved. -/
def State.seatsOn (s : State) (core : Nat) : List Nat :=
  s.units.flatMap (fun u => ((u.2.reserved.getD []).flatMap Seat.strands).filter (fun k => coreOf k == core))

def Area.meets (a b : Area) : Bool := a.col == b.col && overlap (a.bank, a.banks) (b.bank, b.banks) && overlap (a.lo, a.hi - a.lo) (b.lo, b.hi - b.lo)

/-- The lowest base of a run of `n` in a range that meets no run in use. -/
def freeRun (range : Nat × Nat) (n : Nat) (used : List (Nat × Nat)) : Option Nat :=
  ((List.range (range.2 + 1)).map (· + range.1)).find? (fun b => b + n ≤ range.1 + range.2 && used.all (fun u => !overlap (b, n) u))

/-- R395: the partitions of a slot, in rising number. -/
def partList (d : Nat) : List Nat := (List.range 6).filter (fun p => d.testBit (16 + p))

/-- R71: the strand slots that the strands take, in order; `taken`: those that are not free. -/
def seatStrands (core : Nat) (parts : List Nat) (taken : List Nat) : List (Nat × Nat) → Option (List Nat)
  | [] => some []
  | (num, _) :: r =>
    match ((List.range 16).map (strandKey core (parts.getD (num % parts.length) 0))).find? (fun k => !taken.contains k) with
    | none => none
    | some k => (seatStrands core parts (taken ++ [k]) r).map (fun l => k :: l)

/-- R71, R72: where a block fits on a core, or would on one with nothing in use. -/
def State.fit (s : State) (n : Need) (core : Nat) (empty : Bool) : Option Fit :=
  match s.slotFor core n.dom with
  | none => none
  | some j =>
    let d := s.dpr core j
    let parts := partList d
    let on := if empty then [] else s.blocksOn core
    let areas := if empty then [] else
      on.flatMap (fun (p : Nat × Block) => p.2.areas (s.dpr core p.2.domSlot)) ++ (s.core core).clearing
    let slot := (List.range 8).find? (fun k => on.all (fun p => p.1 % 8 != k))
    let spad := ((List.range 128).map (4096 * ·)).find? (fun b =>
      b + n.sa ≤ (dprBanks d).2 * 8192 && areas.all (fun a => !(spadArea d b n.sa).meets a))
    let col := ((List.range (bits d 81 73 + 1)).map (fun u => (bits d 72 64 + u) * 65536)).find? (fun b =>
      b + n.ca ≤ (bits d 72 64 + bits d 81 73) * 65536 && areas.all (fun a => !(colArea b n.ca).meets a))
    let run (lo : Nat × Nat) (m : Nat) (f : Block → Nat × Nat) : Option Nat := freeRun lo m (on.map (fun p => f p.2))
    let taken := if empty then [] else s.strands.keysWhere (fun k _ => coreOf k == core) ++ s.seatsOn core
    let free (p : Nat) : Nat := bits d 48 40 - (if empty then 0 else s.heldGranules core p + s.landingGranules core p + s.reservedGranules core p)
    let asked (p : Nat) : Nat := n.strands.foldl (fun t x => if parts.getD (x.1 % parts.length) 0 = p then t + x.2 else t) 0
    -- R410: a slot that is being set refuses
    let setting := !empty && s.settings.any (fun x => (s.slotsOf (s.setRegister x) x).contains (core, j))
    if setting || (s.core core).outOfService || parts.any (fun p => free p < asked p) then none
    else
      match slot, spad, col, run (bits d 87 84, bits d 92 88) n.tiles (fun b => (b.tbase, b.tcount)),
          run (bits d 98 96, bits d 102 99) n.accs (fun b => (b.abase, b.acount)),
          run (bits d 109 104, bits d 116 110) n.streams (fun b => (b.zbase, b.zcount)), seatStrands core parts taken n.strands with
      | some k, some sp, some co, some t, some a, some z, some st => some ⟨core * 8 + k, j, sp, co, t, a, z, st⟩
      | _, _, _, _, _, _, _ => none

/-- R218: the cores that a queue's gangs may take in a tower. -/
def State.tractCore (s : State) (tract core : Nat) : Bool :=
  s.tractField tract 31 31 == 1 && (s.tractField tract 23 0).testBit (clusterOf core)
def towerCores (tower : Nat) : List Nat := (List.range 96).map (· + 96 * tower)

/-- R70: the cores of a list that its first reaches over edges inside the list. -/
def reach (l : List Nat) : Nat → List Nat → List Nat
  | 0, got => got
  | n + 1, got =>
    reach l n (got ++ l.filter (fun c => !got.contains c && (List.range 4).any (fun d => (neighbour c d).any (got.contains ·))))
def connected (l : List Nat) : Bool :=
  match l with
  | [] => false
  | c :: _ => (reach l l.length [c]).length == l.length
/-- Some edge-connected set of `n` cores lies in the list. -/
def hasConnected (l : List Nat) (n : Nat) : Bool := l.any (fun c => n ≤ (reach l l.length [c]).length)

/-- R72: a gang of the launch could be placed, on a device with nothing in use or as it stands. -/
def State.placeable (s : State) (l : Launch) (empty : Bool) : Bool :=
  let tract := l.df 99 96
  hasConnected ((towerCores l.tower).filter (fun c => s.tractCore tract c && (s.fit l.need c empty).isSome)) l.blocksPer

/-! ### The start of a launch -/

/-- R464: the launch may start: the launches before it have started, and with BARRIER have completed. -/
def State.mayStart (s : State) (l : Launch) : Bool :=
  !l.started && s.board.stage == 2 &&
  s.launches.all (fun x => x.queue != l.queue || l.id ≤ x.id || (x.started && l.pk 17 17 == 0))

/-- R464, R72: the launch starts; one that can never be placed has its outcome at once. -/
def execLaunchStart (launch : Nat) (s : State) : Out :=
  .next (match s.launch launch with
    | none => s
    | some l =>
      if !s.mayStart l then s
      else
        match s.groupTable l with
        | (t, none) => s.unlessFull (t.finishLaunch l true 2 7 0 0)
        | (s, some g) =>
          let seen := clockMax s.procStamp s.relStamp
          let stamp := if l.pk 8 8 = 0 then none else some (if l.pk 11 9 = 5 then clockMax seen s.extStamp else seen)
          let never := l.isLaunch && !s.placeable l true
          let l := { l with
            started := true
            groups := g
            startStamp := stamp
            unplaceable := never
            outcome := if never then some (3, 0, 0, 0) else none }
          (s.modLaunch launch (fun _ => l)).writeBook l 2 0)

/-! ### Placement -/

/-- A fragment at the start of a clause. -/
def Frag.start (pc : DWord) : Frag where
  pc := pc
  header := pc
  index := 0
  clause := []
  started := false
  resumed := false
  mask := Mask.all
  mode := 0
  q := List.replicate 4 0x00010739#32
  join := none
  age := 0
  hold := .none
  only := none
  claims := 0
  calling := false

/-- A strand at the start of a kernel (R76, R121, R51), with every granule and at no place. -/
def Strand.start (pc : DWord) : Strand where
  fragA := some (Frag.start pc)
  fragB := none
  ageCount := 0
  stack := []
  v := []
  o := []
  granules := 0xFFFFFF#24
  l0 := Lanes.zero64
  l1 := Lanes.zero64
  p := []
  flags := 0
  sig := 0
  user0 := 0
  user1 := 0
  ctxBase := 0
  strandId := 0
  gangInfo := 0
  launchShape := 0
  launchArg := 0
  ident := 0
  rightMwait := false
  rightKernel := false
  groot := 0
  proot := 0
  asid := 0
  pasid := 0
  vmid := 0
  sr := Lanes.gen (fun L => 0x9E3779B9#32 ^^^ BitVec.ofNat 32 L)
  gates := []
  tvec := 0
  tmask := 0
  recordValid := false
  halted := false
  debug := false
  inHandler := false
  handlerSlot := false
  syscallPending := false
  spilled := false
  record := none
  saveMode := 0
  saveJoin := none
  saveQ := List.replicate 4 0
  saveRecord := none
  opLog := []
  openFault := none
  stopped := false
  lost := 0
  lostPeer := 0
  monitor := none
  yielding := none
  nextExchange := 0
  startTime := 0
  block := 0
  number := 0
  queue := 0
  space := spaceOfDesc 0
  tract := 0
  ended := false
  due := []

/-- A block as it starts (R76, R285, R315, R337, R344, R351, R368, R371). -/
def Fit.block (x : Fit) (n : Need) (tag : BitVec 13) (launch index quota limit : Nat) (slot : DWord) : Block where
  tag := tag
  launch := launch
  index := index
  domSlot := x.slot
  strands := n.strands.length
  sa := n.sa
  ca := n.ca
  spadBase := x.spad
  colBase := x.col
  tbase := x.tbase
  tcount := n.tiles
  abase := x.abase
  acount := n.accs
  zbase := x.zbase
  zcount := n.streams
  store := []
  poison := []
  ecc := []
  tileEcc := []
  accEcc := []
  zEcc := []
  cellEcc := []
  pathEcc := []
  barriers := []
  groupLanes := []
  groupDone := []
  groupToken := []
  groupIn := []
  groupWait := []
  shapes := []
  copy := ⟨0, 0, [], quota, none, []⟩
  seq := ⟨0, 0, 0, none, [], none, none, [], [], none, none⟩
  stoch := ⟨256, (List.range 16).map resetSeed, [], 0, 0, []⟩
  tlx := 0
  tlxSubmitted := 0
  tlxDone := []
  tlxGone := []
  tiles := []
  tilePoison := []
  acc := []
  edges := []
  limit := limit
  saveSlot := slot
  savedStrands := []
  savedFlights := []
  savedKey := 0
  savedAt := 0

/-- R462: the save slot of a block of a gang. -/
def Launch.saveSlotOf (l : Launch) (gang index : Nat) : DWord :=
  BitVec.ofNat 64 (l.df 447 384 + l.df 511 448 * (gang * l.blocksPer + index))
/-- R462: the context image of a strand. -/
def Launch.contextOf (l : Launch) (gang index num : Nat) : DWord :=
  BitVec.ofNat 64 (l.df 319 256 + 65536 * ((gang * l.blocksPer + index) * l.strandsPer + num))

/-- R73: the seats of a gang on the cores, in rising number; `none`: some core refuses. -/
def State.seats (s : State) (l : Launch) (gang : Nat) (cores : List Nat) : Option (List Seat) :=
  let order := (List.range 192).filter (fun c => cores.contains c)
  (List.range order.length).foldl (fun acc i =>
    match acc, s.fit l.need (order.getD i 0) false with
    | some l', some x =>
      some (l' ++ [⟨x.key, x.block l.need 0 l.id i l.quota (l.pk 159 144) (l.saveSlotOf gang i), x.strands, l.granules⟩])
    | _, _ => none) (some [])

/-- The gang of a launch that is to be placed next: one that was killed first (R450), else the next number (R74). -/
def Launch.toPlace (l : Launch) : Option Nat :=
  match l.relaunch with
  | (n, _, _) :: _ => some n
  | [] => if l.started && l.outcome.isNone && l.nextGang < l.gangCount then some l.nextGang else none

/-- R72, R450, R464: gang `n` of the launch can never be placed. -/
def Launch.giveUp (l : Launch) (n : Nat) : Launch :=
  match l.relaunch.find? (fun x => x.1 == n) with
  | some (_, cause, detail) =>
    { l with
      relaunch := l.relaunch.filter (fun x => x.1 != n)
      outcome := match l.outcome with
        | some o => some o
        | none => some (4, detail, cause, n) }
  | none => { l with unplaceable := true, outcome := match l.outcome with
      | some o => some o
      | none => some (3, 0, 0, 0) }

/-- R74: the wait after a unit's failed attempt number `a`. -/
def retryWait (fresh a : Nat) : DWord := BitVec.ofNat 64 ((Config.freeWord fresh).toNat % (64 * 2 ^ min a 8))

/-- R73, R74: an attempt has failed: the unit waits, takes the token after 16 failures, or gives it back where no core set is
free. -/
def State.failAttempt (s : State) (unit : Nat) (u : PlaceUnit) (l : Launch) : State :=
  let a := u.attempts + 1
  let holds := s.tokens.any (fun p => p.2 == unit)
  let tokens := if holds then (if s.placeable l false then s.tokens else s.tokens.filter (fun p => p.2 != unit))
    else if 16 ≤ a && (Tbl.find s.tokens l.tower).isNone then Tbl.put s.tokens l.tower unit else s.tokens
  { s with
    units := Tbl.put s.units unit { u with attempts := a, reserved := none, retryAt := s.dclk + 1 + retryWait s.fresh a }
    tokens := tokens
    fresh := s.fresh + 1 }

/-- R72, R73: a unit sends its reservations for a set of cores of the queue's tract and tower. -/
def execPlacementReserve (unit launch : Nat) (cores : List Nat) (s : State) : Out :=
  .next (match s.launch launch with
    | none => s
    | some l =>
      match l.toPlace with
      | none => s
      | some n =>
        let u := (Tbl.find s.units unit).getD ⟨launch, n, 0, none, 0⟩
        let tract := l.df 99 96
        let shape := cores.length == l.blocksPer && cores.eraseDups.length == cores.length && connected cores &&
          cores.all (fun c => (towerCores l.tower).contains c && s.tractCore tract c)
        let mine := u.launch == launch && u.gang == n && u.reserved.isNone && u.retryAt == 0
        let alone := s.units.all (fun p => p.1 == unit || p.2.launch != launch)
        let token := match Tbl.find s.tokens l.tower with
          | some h => h == unit
          | none => true
        -- R451: nothing is placed during a teardown
        if unit / 4 ≠ l.tower || !mine || !alone || !token || s.board.stage ≠ 2 || s.teardowns.contains tract then s
        else if !s.placeable l true then (s.dropUnit unit).modLaunch launch (fun l => l.giveUp n)
        else if !shape then s
        else
          match s.seats l n cores with
          | some seats => { s with units := Tbl.put s.units unit { u with reserved := some seats } }
          | none => s.failAttempt unit u l)

/-- R74: the wait is over, and the unit tries again; after 16 failures with the token, when it is free. -/
def execPlacementRetry (unit : Nat) (s : State) : Out :=
  .next (match Tbl.find s.units unit with
    | none => s
    | some u =>
      match s.launch u.launch with
      | none => s.dropUnit unit
      | some l =>
        if u.reserved.isSome || u.retryAt = 0 || s.dclk < u.retryAt then s
        else
          let tokens := if 16 ≤ u.attempts && (Tbl.find s.tokens l.tower).isNone then Tbl.put s.tokens l.tower unit else s.tokens
          { s with units := Tbl.put s.units unit { u with retryAt := 0 }, tokens := tokens })

/-- R124. -/
def strandIdOf (key block num index slot : Nat) : Word :=
  BitVec.ofNat 32 (coreOf key % 256 * 2 ^ 24 + block % 8 * 2 ^ 21 + num % 32 * 2 ^ 16 + index % 8 * 2 ^ 13 + partOf key % 8 * 2 ^ 10 +
    key % 16 * 2 ^ 6 + slot % 4 * 2 ^ 4)
/-- R123: GANG_INFO. -/
def gangInfoOf (gang blocks tag : Nat) : DWord := BitVec.ofNat 64 (gang % 2 ^ 32 * 2 ^ 32 + (blocks - 1) % 8 * 2 ^ 13 + tag % 2 ^ 13)
/-- R123: LAUNCH_SHAPE. -/
def launchShapeOf (gangs strands blocks : Nat) : DWord := BitVec.ofNat 64 (gangs % 2 ^ 32 * 2 ^ 32 + strands % 64 * 2 ^ 8 + blocks % 16)

/-- The first `n` granules (R111). -/
def firstGranules (n : Nat) : BitVec 24 := BitVec.ofNat 24 (2 ^ n - 1)

/-- R462, R75, R76, R111, R121, R396: a strand as it starts, with the control words of its context image. -/
def State.startStrand (s : State) (l : Launch) (gang tag : Nat) (bk : Nat) (b : Block) (num key : Nat) : State :=
  let ctx := l.contextOf gang b.index num
  match s.readFree l.space (ctx.toNat + 0x7100) 0x30 with
  | (w, s) =>
    let dpr := s.dpr (coreOf key) b.domSlot
    let id := getF w 0x2C 4
    let st := { Strand.start (BitVec.ofNat 64 (l.pk 255 192)) with
      granules := firstGranules l.granules
      ctxBase := ctx &&& ~~~0xFFF#64
      strandId := strandIdOf key bk num b.index b.domSlot
      gangInfo := gangInfoOf gang l.blocksPer tag
      launchShape := launchShapeOf l.gangCount l.strandsPer l.blocksPer
      launchArg := BitVec.ofNat 64 (l.pk 319 256)
      tvec := BitVec.ofNat 64 (getF w 0 8)
      tmask := BitVec.ofNat 32 (getF w 8 4)
      debug := (getF w 0xC 4).testBit 2
      groot := BitVec.ofNat 64 (getF w 0x18 8)
      proot := BitVec.ofNat 64 (getF w 0x20 8)
      asid := BitVec.ofNat 16 (getF w 0x28 2)
      pasid := BitVec.ofNat 16 (getF w 0x2A 2)
      ident := BitVec.ofNat 12 id
      rightMwait := id.testBit 12 && dpr.testBit 26
      rightKernel := id.testBit 13 && dpr.testBit 25
      vmid := BitVec.ofNat 8 (l.df 127 120)
      nextExchange := s.dclk + 4096
      startTime := s.dclk
      block := bk
      number := num
      queue := l.queue
      space := l.space
      tract := l.df 99 96 }
    s.setStrand key st

/-- R465: clusters take the clock that a launch has acquired. -/
def State.acquireFor (s : State) (l : Launch) (core : Nat) : State :=
  match l.startStamp with
  | some t => s.raiseClock (clusterOf core) t
  | none => s

/-- R75: one block of a gang is committed with its strands, and the deposits held for it are written (R330). -/
def State.commitSeat (s : State) (l : Launch) (gang : Nat) (tag : BitVec 13) (x : Seat) : State :=
  let b := { x.block with tag := tag }
  let s := s.setBlock x.key b
  let s := (List.range x.strands.length).foldl (fun s num => s.startStrand l gang tag.toNat x.key b num (x.strands.getD num 0)) s
  (s.acquireFor l (x.key / 8)).adoptDeposits x.key

/-- R75, R450: every core has accepted; the gang commits under a tag that no gang holds. -/
def execPlacementCommit (unit tag : Nat) (s : State) : Out :=
  .next (match Tbl.find s.units unit with
    | none => s
    | some u =>
      match u.reserved, s.launch u.launch with
      | some seats, some l =>
        let t : BitVec 13 := BitVec.ofNat 13 tag
        -- a tag is free once its last gang's pins and stores are over (R212, R449)
        if 8192 ≤ tag || (s.gang t).isSome || s.pinRelease.contains t || s.storesOf t then s
        -- R450, R451: what was reserved for a gang that is not to be placed now is given up
        else if l.toPlace != some u.gang || s.teardowns.contains (l.df 99 96) then s.dropUnit unit
        else
          let s := s.dropUnit unit
          let again := l.relaunch.any (fun x => x.1 == u.gang)
          let s := s.modLaunch l.id (fun l =>
            if again then { l with
              relaunch := l.relaunch.filter (fun x => x.1 != u.gang)
              relaunches := l.relaunches + 1
              relaunchCount := Tbl.put l.relaunchCount u.gang (Tbl.get 0 l.relaunchCount u.gang + 1) }
            else { l with nextGang := u.gang + 1 })
          let g : Gang := ⟨t, l.id, u.gang, l.queue, l.df 99 96, seats.map Seat.key, l.relaunchable, [],
            BitVec.ofNat 12 l.domain, none, false⟩
          let s := if s.tractBusy g.tract then s else s.latchTract (2 * g.tract)
          let s := { s with gangs := s.gangs ++ [g] }
          seats.foldl (fun s x => s.commitSeat l u.gang t x) s
      | _, _ => s)

/-- R450, R451: a gang whose kill is over is to be placed again, after the teardown of its tract if there is one. -/
def State.relaunchGang (s : State) (g : Gang) (cause detail : Nat) : State :=
  if s.teardowns.contains g.tract || s.storesOf g.tag then s
  else
    ({ s with gangs := s.gangs.filter (fun x => x.tag != g.tag) }.dropUnitsOf g.launch).modLaunch g.launch (fun l =>
      { l with relaunch := l.relaunch ++ [(g.number, cause, detail)] })

/-! ### Completion -/

/-- R465: every gang has ended, none is to be placed, and what they stored is performed. -/
def State.mayComplete (s : State) (l : Launch) : Bool :=
  l.started && l.relaunch.isEmpty && (l.outcome.isSome || l.gangCount ≤ l.nextGang) &&
  s.gangs.all (fun g => g.launch != l.id) && s.units.all (fun u => u.2.launch != l.id) &&
  s.flights.all (fun f => f.agent.launch != l.id || !f.op.writesMemory || f.finished) &&
  (l.pk 12 12 == 0 || l.pk 15 13 != 5 || s.peerStores.all (fun p => p.launch != l.id))

/-- R465: the release of a completion. -/
def State.releaseFor (s : State) (l : Launch) : State :=
  match l.endStamp with
  | none => s
  | some t =>
    let s := { s with procStamp := clockMax s.procStamp t }
    if l.pk 12 12 = 1 && l.pk 15 13 = 5 then { s with extStamp := clockMax s.extStamp t } else s

/-- R465, R466; R470: op 8 is over when the last launch of its queue has completed. -/
def execLaunchComplete (launch : Nat) (s : State) : Out :=
  .next (match s.launch launch with
    | none => s
    | some l =>
      if !s.mayComplete l then s
      else
        let start := s
        let s := s.releaseFor l
        let s := match l.outcome with
          | none => s.finishLaunch l true 1 0 0 0
          | some (st, detail, cause, gang) => s.finishLaunch l true st detail cause gang
        start.unlessFull (match s.control.aborting with
          | some q =>
            if s.launches.any (fun x => x.queue == q) then s
            else { s with control := { s.control with busy := false, refused := false, aborting := none } }
          | none => s))

/-! ### The event ring -/

/-- R472: the oldest held event is written when the ring has room. -/
def execHeldEventWrite (s : State) : Out :=
  .next (match s.eventHeld with
    | [] => s
    | e :: r =>
      if s.eventProd.toNat < s.control.eventAck.toNat + 65536 then ({ s with eventHeld := [] }.postEntry e) |> (fun s => { s with eventHeld := r })
      else s)

end Sys2Proof.Machine
end

