-- ==== Sys2Proof/Machine/Saves.lean ====
section
/-!
DEFINITION. Pre-emption (19 R423 to R431, 06 R174, 13 R326, 14 R355, 16 R377): the end of a slice and the choice of a course, the
stop of strands and engines, what is saved, and the block save image.
-/
namespace Sys2Proof.Machine

/-! ### The start of a pre-emption -/

/-- R70: the cores of a cluster. -/
def coresOf (cluster : Nat) : List Nat := (List.range 192).filter (fun c => clusterOf c == cluster)
def Core.time (c : Core) (slot : Nat) : SlotTime := c.times.getD slot resetTime
/-- The blocks of a cluster's domain slot that no pre-emption concerns yet. -/
def State.slotBlocks (s : State) (cluster slot : Nat) : List (Nat × Block) :=
  s.blocks.filter (fun p => clusterOf (p.1 / 8) == cluster && p.2.domSlot == slot && !s.preempting p.1)

/-- R426: S, the bytes of the contexts and block images of some blocks. -/
def State.saveBytes (s : State) (bs : List (Nat × Block)) : Nat :=
  bs.foldl (fun n p => n + imageSize p.2.sa p.2.ca p.2.tcount p.2.acount p.2.zcount + 65536 * (s.strandsOf p.1).length) 0
/-- R328, R343, R376: work in progress on the engines of a block. -/
def Block.working (b : Block) : Bool :=
  b.copy.reqs.any (fun r => b.copy.mayStart r && r.inProgress) ||
  (match b.seq.running with
    | some r => r.busy
    | none => false) || b.stoch.reqs.any ZReq.begun
def Block.holdsFix (b : Block) : Bool := b.copy.reqs.any (fun r => r.segs.any SegState.held)

/-- R426: the course of a slot, and whether no allowed one fits.  The longest remaining time is a free value (log entry 4). -/
def State.chooseCourse (s : State) (t : SlotTime) (bs : List (Nat × Block)) : Nat × Bool :=
  let courses := if t.courses = 0 then 0b010#3 else t.courses
  let save := 96 + (s.saveBytes bs + 511) / 512
  let drain := if bs.any (fun p => p.2.working) then save + (Config.freeDWord s.fresh).toNat else save
  let fits (k est : Nat) : Bool := courses.getLsbD k && est ≤ t.deadline.toNat
  if fits 0 drain && !bs.any (fun p => p.2.holdsFix) then (0, false)
  else if fits 1 save then (1, false)
  else if fits 2 2048 then (2, false)
  else (if courses.getLsbD 1 then 1 else 0, true)

/-- R426: a gang that the discard course kills. -/
def State.discards (s : State) (cluster : Nat) (tag : BitVec 13) : Bool :=
  match s.gang tag with
  | some g => g.relaunchable && g.saved.isEmpty && g.blocks.all (fun k => clusterOf (k / 8) == cluster)
  | none => false

/-- R425, R426: the stop is sent to the engines of a slot; the discard course kills what it may, and the rest is saved. -/
def State.startPreempt (s : State) (cluster slot course : Nat) (command : Bool) (only : Option (List (BitVec 13))) : State :=
  let tags := ((s.slotBlocks cluster slot).map (fun p => p.2.tag)).eraseDups
  let killed := if course = 2 then tags.filter (s.discards cluster) else []
  let s := killed.foldl (fun s t => s.killGang t 0 2) s
  { s with preempts := s.preempts ++ [⟨cluster, slot, if course = 2 then 1 else course, s.dclk, command, only, killed⟩] }

/-- R424: SLICE_END has been reached on a core, and has not been acted on. -/
def SlotTime.due (t : SlotTime) (now : DWord) : Bool := !t.reached && t.sliceEnd != BitVec.allOnes 64 && t.sliceEnd ≤ now

/-- R424, R426. -/
def execSliceExpiry (cluster slot : Nat) (s : State) : Out :=
  .next (s.unlessFull (match (coresOf cluster).find? (fun c => slot < 4 && ((s.core c).time slot).due s.dclk) with
    | none => s
    | some c =>
      let t := (s.core c).time slot
      let s := (coresOf cluster).foldl (fun s k =>
        let x := s.core k
        s.setCore k { x with times := x.times.set slot { x.time slot with reached := (x.time slot).reached || (x.time slot).due s.dclk } }) s
      if s.preempts.any (fun p => p.cluster == cluster && p.slot == slot && p.only.isNone) then s
      else
        let bs := s.slotBlocks cluster slot
        let choice := s.chooseCourse t bs
        let s := { s with fresh := s.fresh + 1 }
        let s := if choice.2 then
            let x := s.core c
            (s.setCore c { x with sliceMiss := Tbl.set 0 x.sliceMiss slot (satUp (Tbl.get 0 x.sliceMiss slot)) }).post 8 0 0 0 0
          else s
        s.startPreempt cluster slot choice.1 false none))

/-! ### When everything has stopped -/

/-- R427: a load word that a save may abandon. -/
def FlightOp.abandons : FlightOp → Bool
  | .load .. | .loadRun _ | .pref | .chain | .pgq _ | .mon | .shapeLoad _ | .mres _ | .ctxLoad => true
  | _ => false
def FlightOp.sends : FlightOp → Bool
  | .xsend .. => true
  | _ => false

/-- A word that stays in flight in the saved state: a receive that waits, a send of no lane, a stochastic request (R172, R377). -/
def Flight.parks (f : Flight) : Bool :=
  match f.op with
  | .xrecv .. | .stream _ => true
  | .xsend .. => f.mask == 0
  | _ => false
/-- R427, R174: a word that is given up, to be issued again from its log entry. -/
def Flight.givenUp (f : Flight) (st : Strand) : Bool :=
  st.opLog.any (fun e => e.flight == f.id) && ((f.op.abandons && f.localL == 0 && f.gangL == 0) || (f.op.sends && f.mask != 0))

/-- R425, R417, R429: a strand has stopped: no fault is open, and its other words have completed. -/
def State.strandStops (s : State) (k : Nat) : Bool :=
  match s.strand k with
  | none => true
  | some st =>
    st.openFault.isNone && (s.flightsOf k).all (fun f => f.bad.isEmpty && (f.parks || f.givenUp st)) &&
    s.peerStores.all (fun p => p.strand != k)

/-- R425, R426: a block has stopped. -/
def State.blockStops (s : State) (p : Preempt) (bk : Nat) (b : Block) : Bool :=
  (s.strandsOf bk).all s.strandStops &&
  (p.course != 0 || !(b.copy.reqs.any (fun r => b.copy.mayStart r && r.inProgress && !r.segs.any SegState.held) ||
    (match b.seq.running with
      | some r => r.busy && b.seq.halt.isNone
      | none => false) || b.stoch.reqs.any ZReq.begun))

/-- R425, R429: every block has stopped, and the stores of the gangs that were killed are performed. -/
def State.preemptReady (s : State) (p : Preempt) : Bool :=
  s.blocks.all (fun x => !p.covers x.1 x.2 || s.blockStops p x.1 x.2) && p.killed.all (fun t => !s.storesOf t)

/-! ### The block save image (R431) -/

/-- Writes a section of `n` bytes, 64 at a time; `f` gives the 64 bytes from an offset. -/
def State.writeSection (s : State) (sp : Space) (va n : Nat) (f : Nat → Nat) : State :=
  (List.range (n / 64)).foldl (fun s k => s.writeVa sp (va + 64 * k) 64 (f (64 * k))) s
/-- A section in the part's own format: free values (log entry 4). -/
def State.ownSection (s : State) (sp : Space) (va n : Nat) : State :=
  (List.range (n / 8)).foldl (fun s k => ({ s with fresh := s.fresh + 1 }).writeVa sp (va + 8 * k) 8 (Config.freeDWord s.fresh).toNat) s

/-- The 576 bytes of a barrier. -/
def Barrier.image (x : Barrier) : Nat :=
  let next : Nat := match x.nextExpect with
    | some (a, b) => a % 64 * 2 ^ 16 + b % 16 * 2 ^ 24 + 2 ^ 31
    | none => 0
  sumF [x.phase.toNat, putF 4 4 (x.strandsExpect % 64 + x.seqExpect % 16 * 256 + next), putF 8 4 (x.arrivals % 64 + x.seqArrived % 16 * 256),
    putF 0xC 4 x.arrivedStrands.toNat, putF 0x10 8 x.pending.toNat,
    putF 0x18 8 (match x.firstWait with
      | some t => t.toNat
      | none => 2 ^ 64 - 1),
    sumF ((List.range 32).map (fun n => putF (0x40 + 16 * n) 12 ((Tbl.get 0 x.lanes n).toNat +
      (match Tbl.find x.token n with
        | some t => t.toNat * 2 ^ 32 + 2 ^ 64
        | none => 0))))]

/-- A barrier with what its image holds; the rest is the part's own. -/
def Barrier.ofImage (x : Barrier) (n : Nat) : Barrier :=
  let e := getF n 4 4
  let per (k off : Nat) : Nat := getF n (0x40 + 16 * k + off) 4
  { x with
    phase := BitVec.ofNat 32 (getF n 0 4)
    strandsExpect := bits e 5 0
    seqExpect := bits e 11 8
    nextExpect := if e.testBit 31 then some (bits e 21 16, bits e 27 24) else none
    arrivals := bits (getF n 8 4) 5 0
    seqArrived := bits (getF n 8 4) 11 8
    arrivedStrands := BitVec.ofNat 32 (getF n 0xC 4)
    pending := BitVec.ofNat 64 (getF n 0x10 8)
    firstWait := if getF n 0x18 8 = 2 ^ 64 - 1 then none else some (BitVec.ofNat 64 (getF n 0x18 8))
    lanes := (List.range 32).filterMap (fun k => if per k 0 = 0 then none else some (k, BitVec.ofNat 32 (per k 0)))
    token := (List.range 32).filterMap (fun k => if (per k 8).testBit 0 then some (k, BitVec.ofNat 32 (per k 4)) else none) }
/-- R432: a zero field of a barrier's image is not zero. -/
def barrierRefused (n : Nat) : Bool :=
  let e := getF n 4 4
  bits e 7 6 != 0 || bits e 15 12 != 0 || bits e 23 22 != 0 || bits e 30 28 != 0 || bits (getF n 8 4) 7 6 != 0 ||
  bits (getF n 8 4) 31 12 != 0 || getF n 0x20 32 != 0 ||
  (List.range 32).any (fun k => getF n (0x40 + 16 * k + 8) 8 / 2 != 0)

/-- 64 bytes of a table of bytes. -/
def tblBytes (t : Tbl Byte) (at_ : Nat) : Nat := sumF ((List.range 64).map (fun j => (Tbl.get 0 t (at_ + j)).toNat * 256 ^ j))
/-- R431: 64 bytes of an accumulator: elements in 64-bit fields, then the bitmap. -/
def Block.accBytes (b : Block) (bank off : Nat) : Nat :=
  let e (n : Nat) : Acc := Tbl.get accZero b.acc (16384 * bank + n)
  if off < 131072 then sumF ((List.range 8).map (fun j => (e (off / 8 + j)).code.toNat * 2 ^ (64 * j)))
  else sumF ((List.range 512).map (fun j => flagBit (e (8 * (off - 131072) + j)).poison * 2 ^ j))
/-- R431, R369: 64 bytes of a stream: its bits, then its tag. -/
def Block.zBytes (b : Block) (i off : Nat) : Nat :=
  let r := b.stoch.reg i
  if off < 512 then bits r.bits.toNat (8 * off + 511) (8 * off) else if off = 512 then r.tag else 0

/-- R431: writes the image of a block to its save slot. -/
def State.writeBlockImage (s : State) (sp : Space) (bk : Nat) (b : Block) : State :=
  let va (k : Nat) : Nat := b.saveSlot.toNat + b.sectionAt k
  let s := s.writeVa sp (va 0) 88 (0x59330001 + sumF ((List.range 10).map (fun k => putF (8 * (k + 1)) 8 (b.sectionAt (k + 1)))))
  let s := (List.range 16).foldl (fun s k => s.writeVa sp (va 1 + 576 * k) 576 (b.barrier k).image) s
  let s := s.writeVa sp (va 2) 768 (s.seqImage bk b.seq)
  let s := s.ownSection sp (va 3) 32768
  let s := s.ownSection sp (va 4) 32768
  let s := s.ownSection sp (va 5) 20480
  let s := s.writeSection sp (va 6) b.sa (tblBytes b.store)
  let s := s.writeSection sp (va 7) b.ca (fun o => tblBytes b.store (0x1000000 + o))
  let s := s.writeSection sp (va 8) (b.tcount * 32768) (tblBytes b.tiles)
  let s := s.writeSection sp (va 9) (b.acount * 133120) (fun o => b.accBytes (o / 133120) (o % 133120))
  s.writeSection sp (va 10) (b.zcount * 1024) (fun o => b.zBytes (o / 1024) (o % 1024))

/-! ### The save -/

/-- A strand as it is saved: words given up wait in its log, its monitor is lost, and a `syscall` that holds is noted (R427, R434,
R313). -/
def Strand.stopFor (st : Strand) (fs : List Flight) : Strand :=
  let calls (f : Frag) : Bool := match f.hold with
    | .service (some _) => true
    | _ => f.calling
  let mark (f : Option Frag) : Option Frag := f.map (fun f => { f with calling := calls f })
  { st with
    fragA := mark st.fragA
    fragB := mark st.fragB
    opLog := st.opLog.map (fun e => match fs.find? (fun f => f.id == e.flight && f.givenUp st) with
      | some f => { e with replay := f.mask, restart := f.first, cause := 0 }
      | none => e)
    monitor := st.monitor.map (fun m => { m with lost := true })
    syscallPending := st.syscallPending || st.fragA.any calls || st.fragB.any calls }

/-- R425 to R430: a stopped block is saved: its strands' contexts and its image are written, its place is freed, and the part
keeps the rest with the gang. -/
def State.saveBlock (s : State) (bk : Nat) : State :=
  let s := s.flipBlock bk
  match s.block bk with
  | none => s
  | some b =>
    match s.gang b.tag with
    | none => s
    | some g =>
      let ks := (s.strandsOf bk).filter (fun k => (s.strand k).any (fun st => !st.ended))
      if ks.isEmpty && b.idle then ((s.strandsOf bk).foldl State.removeStrand s).endBlock bk b
      else
      let s := ks.foldl (fun s k => s.modStrand k (fun st => st.stopFor (s.flightsOf k))) s
      let s := { s with services := s.services.map (fun (v : Service) => if ks.contains v.strand && !v.saved then { v with saved := true } else v) }
      let s := ks.foldl (fun s k => match s.strand k with
        | some st => s.saveContext k st
        | none => s) s
      let s := s.writeBlockImage (s.gangSpace g) bk b
      let key := memberKey b.tag b.index
      let c := s.cluster (clusterOf (bk / 8))
      let b' := { b with
        savedStrands := ks.filterMap (fun k => (s.strand k).map (fun st => (k, st)))
        savedFlights := (ks.flatMap s.flightsOf).filter Flight.parks
        savedKey := bk
        savedAt := s.dclk }
      let s := s.returnAllotment bk b
      let s := (s.strandsOf bk).foldl State.removeStrand s
      { s with
        blocks := Tbl.del s.blocks bk
        procStamp := clockMax s.procStamp c.clock
        collectives := s.collectives.map (fun (r : Collective) => if r.block = bk then { r with block := key } else r)
        deposits := s.deposits.map (fun (d : Deposit) => if d.owner = bk then { d with owner := key } else d)
        peerStores := s.peerStores.map (fun (p : PeerStore) => { p with copy := p.copy.map (fun c => if c.1 = bk then (key, c.2) else c) })
        gangs := s.gangs.map (fun (x : Gang) => if x.tag = g.tag then
          { x with blocks := x.blocks.filter (· != bk), saved := x.saved ++ [b'] } else x) }

/-- R425: every engine has acknowledged, and the saved state is written. -/
def execPreemptionDone (cluster slot : Nat) (s : State) : Out :=
  .next (match s.preempts.find? (fun p => p.cluster == cluster && p.slot == slot && s.preemptReady p) with
    | none => s
    | some p =>
      let s := (s.blocks.filter (fun x => p.covers x.1 x.2)).foldl (fun s x => s.saveBlock x.1) s
      let s := { s with preempts := s.preempts.erase p }
      if p.command then { s with control := { s.control with busy := false, refused := false } } else s)

end Sys2Proof.Machine
end

