-- ==== Sys2Proof/Machine/Resume.lean ====
section
/-!
DEFINITION. The resumption of a saved gang (19 R428, R432, 20 R442, 10 R283), and how a command of the control window begins and
ends (22 R470).
-/
namespace Sys2Proof.Machine

/-! ### Commands -/

/-- CMD_STATUS when a command is over: 0 done, 1 refused. -/
def State.endCommand (s : State) (refused : Bool) : State :=
  { s with control := { s.control with busy := false, refused := refused } }
def State.startCommand (s : State) : State := { s with control := { s.control with busy := true } }
/-- R470: what an op started is over: the kills of ops 4 and 7 with their stores, and the core that op 7 empties; a gang that op 6 was
placing and that has been killed is refused. -/
def State.commandDue (s : State) : State :=
  let c := s.control
  match c.placing with
  | some t =>
    if (s.gang t).any Gang.moving then s else { s with control := { c with placing := none } }.endCommand true
  | none =>
    if (c.killing.isEmpty && c.outing.isNone) || c.killing.any s.storesOf ||
        c.outing.any (fun k => s.blocks.any (fun p => p.1 / 8 == k)) then s
    else { s with control := { c with killing := [], outing := none } }.endCommand false
/-- R470: a command whose operand has `width` bits, `zeros` among them zero; one that comes while another is busy is ignored, and
nothing runs before boot (24 R493). -/
def State.command (s : State) (operand : BitVec 56) (width : Nat) (zeros : List (Nat × Nat)) (body : Nat → State) : Out :=
  .next (
    if s.control.busy || s.board.stage != 2 then s
    else if operand.toNat / 2 ^ width ≠ 0 || !zeroFields operand.toNat zeros then s.endCommand true
    else body operand.toNat)

/-! ### Where a saved gang fits -/

def Block.dom (s : State) (b : Block) : Nat :=
  match s.launch b.launch with
  | some l => l.domain
  | none => 0
/-- The context image of a saved strand. -/
def State.contextImage (s : State) (st : Strand) : Nat × State := s.readFree st.space st.ctxBase.toNat 65536
/-- The granules that a saved strand asks for: those of its map; a spilled one asks for them when it refills (R115). -/
def State.savedGranules (s : State) (st : Strand) : Nat :=
  let img := (s.contextImage st).1
  if (getF img 0x710C 4).testBit 5 then 0 else granCount (BitVec.ofNat 24 (getF img 0x6A48 4))
def State.savedNeed (s : State) (b : Block) : Need :=
  ⟨b.dom s, b.savedStrands.map (fun p => (p.2.number, s.savedGranules p.2)), b.sa, b.ca, b.tcount, b.acount, b.zcount⟩

/-- R428, R73: where the saved blocks of a gang fit on the cores, in rising index and rising core number. -/
def State.savedFits (s : State) (g : Gang) (cores : List Nat) : Option (List (Block × Fit)) :=
  let bs := (List.range 8).filterMap (fun i => g.saved.find? (fun b => b.index == i))
  let order := (List.range 192).filter (fun c => cores.contains c)
  if bs.length ≠ order.length || cores.length ≠ order.length then none
  else
    (bs.zip order).foldl (fun acc p =>
      match acc, s.fit (s.savedNeed p.1) p.2 false with
      | some l, some x => some (l ++ [(p.1, x)])
      | _, _ => none) (some [])

/-! ### A block comes back -/

/-- The new key of a strand, by its old one. -/
def rekey (m : List (Nat × Nat)) (k : Nat) : Nat := ((m.find? (fun p => p.1 == k)).map Prod.snd).getD noStrand
/-- An agent of a block that has moved. -/
def Agent.moved (a : Agent) (bk : Nat) : Agent := { a with core := bk / 8, block := bk }

/-- R442: FIRST_WAIT moves on by the time of the save. -/
def Barrier.resumed (x : Barrier) (away : DWord) : Barrier := { x with firstWait := x.firstWait.map (· + away) }

/-- Bytes of a section as a table. -/
def tblOf (n size base : Nat) : Tbl Byte :=
  (List.range size).filterMap (fun j =>
    let x : Byte := BitVec.ofNat 8 (n / 256 ^ j)
    if x = 0 then none else some (base + j, x))
/-- R431: the elements of an accumulator section. -/
def accsOf (n count : Nat) : Tbl Acc :=
  (List.range (16384 * count)).filterMap (fun j =>
    let o := j / 16384 * 133120
    let a : Acc := ⟨BitVec.ofNat 34 (getF n (o + j % 16384 * 8) 8), (n / 256 ^ (o + 131072)).testBit (j % 16384)⟩
    if a = accZero then none else some (j, a))
/-- R431: the streams of a section. -/
def zsOf (n count : Nat) : Tbl ZReg :=
  (List.range count).filterMap (fun i =>
    let tag := getF n (1024 * i + 512) 4
    let r : ZReg := ⟨BitVec.ofNat 4096 (getF n (1024 * i) 512), tag.testBit 18, bits tag 17 16, BitVec.ofNat 16 tag⟩
    if r = zEmpty then none else some (i, r))

/-- R431, R355: the running stream as its image gives it, with what the part keeps of it.  A halt ends with the kernel's resumption,
and the halting word is fetched again (R349, R356); the time of the save does not count for its wait (R442). -/
def Seq.resumed (q : Seq) (img : Nat) (away now : DWord) (k : Nat → Nat) (moved : Agent → Agent) : Seq :=
  let f (r : Stream) : Stream := { r with strand := k r.strand, agent := moved r.agent }
  let q := { q with queued := q.queued.map f, pend := q.pend.map (fun (p : Nat × Cause × DWord × Detail) => (k p.1, p.2)) }
  match q.running with
  | none => q
  | some r =>
    let state := getF img 0xF0 8
    let back := if r.loading then r else { r.ofImage img with seqno := r.seqno, ready := none, reported := r.reported, arrived := r.arrived, malformed := r.malformed }
    { q with
      running := some (f back)
      seqno := BitVec.ofNat 32 (getF img 8 4)
      halt := none
      wait := if state = 2 || state = 3 then q.wait.map (fun w => { w with since := if state = 3 then now else w.since + away }) else none
      pend := if state = 3 then none else q.pend }

/-- R432: a saved block's image cannot be read, or is refused. -/
def State.imageRefused (s : State) (sp : Space) (b : Block) : Bool :=
  let va (k : Nat) : Nat := b.saveSlot.toNat + b.sectionAt k
  if (s.vaFault sp (va 0) (b.sectionAt 11) .read).isSome then true
  else
    match s.readFree sp (va 0) 4, s.readFree sp (va 1) 9216, s.readFree sp (va 2) 768 with
    | (f, _), (n, _), (q, _) =>
      f != 0x59330001 || (List.range 16).any (fun k => barrierRefused (getF n (576 * k) 576)) ||
      (match b.seq.running with
        | some r => !r.loading && seqMalformed q
        | none => false)

/-- R428, R431, R442: a saved block on its new place. -/
def State.blockBack (s : State) (sp : Space) (b : Block) (x : Fit) : Block × State :=
  let va (k : Nat) : Nat := b.saveSlot.toNat + b.sectionAt k
  match s.readFree sp (va 1) 9216 with
  | (bars, s) =>
  match s.readFree sp (va 2) 768 with
  | (q, s) =>
  match s.readFree sp (va 6) b.sa with
  | (spad, s) =>
  match s.readFree sp (va 7) b.ca with
  | (col, s) =>
  match s.readFree sp (va 8) (b.tcount * 32768) with
  | (tiles, s) =>
  match s.readFree sp (va 9) (b.acount * 133120) with
  | (accs, s) =>
  match s.readFree sp (va 10) (b.zcount * 1024) with
  | (zs, s) =>
    let keys := (b.savedStrands.map Prod.fst).zip x.strands
    let moved (a : Agent) : Agent := a.moved x.key
    let b := { b with
      domSlot := x.slot
      spadBase := x.spad
      colBase := x.col
      tbase := x.tbase
      abase := x.abase
      zbase := x.zbase
      store := tblOf spad b.sa 0 ++ tblOf col b.ca 0x1000000
      barriers := (List.range 16).map (fun k => (k, ((b.barrier k).ofImage (getF bars (576 * k) 576)).resumed (s.dclk - b.savedAt)))
      tiles := tblOf tiles (b.tcount * 32768) 0
      acc := accsOf accs b.acount
      copy := { b.copy with reqs := b.copy.reqs.map (fun r => { r with strand := rekey keys r.strand, agent := moved r.agent }) }
      seq := b.seq.resumed q (s.dclk - b.savedAt) s.dclk (rekey keys) moved
      stoch := { b.stoch with
        z := zsOf zs b.zcount
        reqs := b.stoch.reqs.map (fun r => { r with strand := rekey keys r.strand }) }
      savedStrands := []
      savedFlights := []
      savedKey := 0
      savedAt := 0 }
    (b, s)

/-- R235, R408, R174: the held entries of an image with what the part keeps of them: the place in program order, the identity, and the
bytes of an image still to be written. -/
def keepLog (es held : List LogEntry) : List LogEntry :=
  (List.range es.length).filterMap (fun k => match es[k]?, held[k]? with
    | some e, some h => some (if e.pc = h.pc then
        { e with pos := h.pos, agent := e.agent.under h.agent, image := if e.image = 0 then h.image else e.image } else e)
    | e, _ => e)

/-- R428, R430, R432: a saved strand in its new slot; `none`: its image is refused. -/
def State.strandBack (s : State) (b : Block) (bk key : Nat) (st : Strand) : Option State :=
  if (s.vaFault st.space st.ctxBase.toNat 65536 .read).isSome then none
  else
    match s.contextImage st with
    | (img, s) =>
      let st0 := { st with block := bk, strandId := strandIdOf key bk st.number b.index b.domSlot }
      match s.loadImage key st0 img with
      | none => none
      | some (s, st1) =>
        let keep (f g : Option Frag) : Option Frag := match f, g with
          | some f, some g => some (if f.pc = g.pc && f.index = g.index then { f with only := g.only, calling := g.calling && st1.syscallPending } else f)
          | f, _ => f
        let st1 := { st1 with
          fragA := keep st1.fragA st.fragA
          fragB := keep st1.fragB st.fragB
          due := st.due
          opLog := keepLog st1.opLog (st.opLog.filter (fun e => e.replay != 0)) }
        let st1 := if st1.inHandler then { st1 with handlerSlot := st.handlerSlot, saveRecord := st.saveRecord } else st1
        let s := s.setStrand key st1
        let s := { s with services := s.services.map (fun (v : Service) =>
          if v.saved && v.ctx = st.ctxBase && v.tag = b.tag then { v with saved := false, strand := key } else v) }
        some (s.askRefill key st1)

/-- R428: a block of a saved gang with its strands, and what other units hold for it; `none`: an image is refused. -/
def State.memberBack (s : State) (g : Gang) (b : Block) (x : Fit) : Option State :=
  let sp := s.gangSpace g
  if s.imageRefused sp b then none
  else
    match s.blockBack sp b x with
    | (b', s) =>
      let s := s.setBlock x.key b'
      let pairs := b.savedStrands.zip x.strands
      let keys := pairs.map (fun p => (p.1.1, p.2))
      match pairs.foldl (fun (acc : Option State) p => acc.bind (fun s => s.strandBack b' x.key p.2 p.1.2)) (some s) with
      | none => none
      | some s =>
        let old := memberKey b.tag b.index
        let s := { s with
          flights := s.flights ++ b.savedFlights.map (fun (f : Flight) => { f with strand := rekey keys f.strand, agent := f.agent.moved x.key })
          collectives := s.collectives.map (fun (r : Collective) =>
            if r.block = old then { r with block := x.key, strand := rekey keys r.strand, agent := r.agent.moved x.key } else r)
          deposits := s.deposits.map (fun (d : Deposit) => if d.owner = old then { d with owner := x.key } else d)
          peerStores := s.peerStores.map (fun (p : PeerStore) =>
            { p with
              copy := p.copy.map (fun (c : Nat × DWord) => if c.1 = old then (x.key, c.2) else c) }) }
        some (s.raiseClock (clusterOf (x.key / 8)) s.procStamp)

/-- R423, R427, R235: a resumed strand with a final record delivers it, unless it is halted or in its handler; another replays its
log; one in its handler replays the words that the save gave up. -/
def State.goOn (s : State) (old : Strand) (key : Nat) : State :=
  match s.strand key with
  | none => s
  | some st =>
    if st.inHandler && !old.stopped then s.replayWhere key (fun e => e.cause == 0)
    else
      match st.recordValid, st.record with
      | true, some r =>
        let st := { st with stopped := true }
        if st.halted then s.setStrand key st else s.deliver key st r
      | _, _ => s.replayAll key

/-- R428: the whole gang in its places; `none`: an image is refused. -/
def State.gangBack (s : State) (g : Gang) (l : List (Block × Fit)) : Option State :=
  match l.foldl (fun (acc : Option State) p => acc.bind (fun s => s.memberBack g p.1 p.2)) (some s) with
  | none => none
  | some s =>
    let s := { s with gangs := s.gangs.map (fun (x : Gang) =>
      if x.tag = g.tag then { x with blocks := l.map (fun p => p.2.key), saved := [], moving := false } else x) }
    let s := l.foldl (fun s p => (p.1.savedStrands.zip p.2.strands).foldl (fun s q => s.goOn q.1.2 q.2) s) s
    some (l.foldl (fun s p => p.1.copy.reqs.foldl (fun s r => s.settleCopy p.2.key r.n) s) s)

/-- R428, R73, R455: where a saved gang fits: the first edge-connected set, in core order, of the cores of its tract that can take
its blocks, in a tower whose token no unit holds (log entry 69). -/
def State.placeFor (s : State) (g : Gang) : Option (List (Block × Fit)) :=
  let n := g.saved.length
  [0, 1].findSome? (fun tower =>
    let l := (towerCores tower).filter (fun c => s.tractCore g.tract c && g.saved.all (fun b => (s.fit (s.savedNeed b) c false).isSome))
    if (Tbl.find s.tokens tower).isSome then none
    else l.findSome? (fun c =>
      let set := (reach l l.length [c]).take n
      if set.length = n then s.savedFits g set else none))

/-- R428, R432, R470: a gang goes to places that take it, and op 6 ends if it was placing it; with an image that is refused it stays
saved. -/
def State.moveGang (s : State) (g : Gang) (l : List (Block × Fit)) : State :=
  let still (s : State) : State := { s with gangs := s.gangs.map (fun (x : Gang) => if x.tag = g.tag then { x with moving := false } else x) }
  let ended (s : State) (refused : Bool) : State :=
    if s.control.placing = some g.tag then { s with control := { s.control with placing := none } }.endCommand refused else s
  match s.gangBack g l with
  | none => ended (still s) true
  | some s => ended (still s) false

/-- R450, R451, R455, R470: a killed gang is to be placed again by its launch; one that is to be moved is placed from its saved
blocks. -/
def execGangRelaunch (gang : Nat) (s : State) : Out :=
  .next (match s.gang (BitVec.ofNat 13 gang) with
    | none => s
    | some g =>
      if 8192 ≤ gang then s
      else
        match g.killed with
        | some (cause, detail) => s.relaunchGang g cause detail
        | none =>
          if g.moving && g.blocks.isEmpty && !g.saved.isEmpty then
            match s.placeFor g with
            | some l => s.moveGang g l
            | none => s
          else s)

/-- R428, R470: op 6, on cores that the part chooses: an edge-connected set of one tower, in clusters of the tract, with no unit
holding the tower's token.  Where the gang does not fit there, the command is busy until it has been placed. -/
def execResumeSavedGang (operand : BitVec 56) (cores : List Nat) (s : State) : Out :=
  s.command operand 13 [] (fun n =>
    match s.gang (BitVec.ofNat 13 n) with
    | none => s.endCommand true
    | some g =>
      if g.killed.isSome || g.saved.isEmpty || !g.blocks.isEmpty then s.endCommand true
      else
        let tower := cores.getD 0 0 / 96
        let shape := connected cores && cores.all (fun c => (towerCores tower).contains c && s.tractCore g.tract c)
        let wait : State := { s with
          gangs := s.gangs.map (fun (x : Gang) => if x.tag = g.tag then { x with moving := true } else x)
          control := { s.control with placing := some g.tag } }.startCommand
        if !shape || (Tbl.find s.tokens tower).isSome then wait
        else
          match s.savedFits g cores with
          | none => wait
          | some l =>
            match s.gangBack g l with
            | none => s.endCommand true
            | some s => s.endCommand false)

end Sys2Proof.Machine
end

