-- ==== Sys2Proof/Machine/Errors.lean ====
section
/-!
DEFINITION. The words of the signature register and of the error log (21 R446, R456), and what the device does about errors: patrol
scrub (R447), vertical wires (R453), sensors (R454), cores out of service (R455), tract teardown (R451), power and temperature
(24 R496, R497).
-/
namespace Sys2Proof.Machine

/-! ### The signature words -/

/-- R419: DETAIL of a comparison that fails. -/
def sigDetail (sig : Word) (im : BitVec 16) : Detail := BitVec.ofNat 512 (sig.toNat + im.toNat * 2 ^ 32)
/-- R446. -/
def execSigchk (im : BitVec 16) (s : State) : Out :=
  strandWord (.sigchk im) (fun c =>
    if c.st.whole && modeSig c.f.mode && (sigFold16 c.st.sig).toNat != im.toNat then
      c.raiseWide .controlIntegrity (sigDetail c.st.sig im)
    else c.s.setStrand c.sid (c.advanceQuiet { c.st with sig := 0 })) s
/-- R446. -/
def execSigrd (d : BitVec 8) (s : State) : Out :=
  strandWord (.sigrd d) (fun c =>
    c.s.setStrand c.sid (c.advanceQuiet (c.st.setRegs false d.toNat c.act (Vals.gen (fun _ => c.st.sig.toNat))))) s
/-- R446. -/
def execSigset (a : BitVec 8) (s : State) : Out :=
  strandWord (.sigset a) (fun c =>
    let st := match c.act.lowest with
      | none => c.st
      | some L => { c.st with sig := BitVec.ofNat 32 ((c.source 1 false a).at L) }
    c.s.setStrand c.sid (c.advanceQuiet st)) s

/-! ### The error log -/

/-- R453: the failed wires of a group of a core's buses. -/
def Core.badWires (c : Core) (g : Nat) : Nat := ((List.range 72).filter (fun w => (Tbl.find c.failed (72 * g + w)).isSome)).length
/-- R456: WIRE_MAP. -/
def Core.wireMap (c : Core) : Nat :=
  (List.range 32).foldl (fun n g => n + (if c.badWires g = 1 then 2 ^ g else if 1 < c.badWires g then 2 ^ (32 + g) else 0)) 0
/-- R456: SENSORS. -/
def Core.sensorMap (c : Core) : Nat :=
  (List.range 8).foldl (fun n i => n + (if (Tbl.find c.sensorBad i).isSome then 2 ^ i else 0)) 0 +
    flagBit (!c.sensorBad.isEmpty) * 2 ^ 8 + flagBit c.outOfService * 2 ^ 9
/-- R456: the log value at an index, of the whole core or of one slot. -/
def Core.logValue (c : Core) (slot : Option Nat) (i : Nat) : Nat :=
  if i = 9 then c.wireMap
  else if i = 10 then c.sensorMap
  else match slot with
    | none => (Tbl.get 0 c.errCore i).toNat
    | some j => (Tbl.get 0 c.errSlot (11 * j + i)).toNat
/-- R456. -/
def execErrq (d a : BitVec 8) (cn : BitVec 1) (s : State) : Out :=
  strandWord (.errq d a cn) (fun c =>
    match c.act.lowest, c.block with
    | some L, some b =>
      let i := (c.plain false a).at L
      if 10 < i then c.raiseWide .illegalOperand 0
      else if cn = 1 && !c.st.rightKernel then c.raiseWide .permission 0
      else
        let v := (c.s.core c.core).logValue (if cn = 1 then none else some b.domSlot) i
        c.resultNoLatch true d (Vals.gen (fun _ => v))
    | _, _ => c.done c.st) s

/-! ### Poison found by scrub -/

/-- R447: scrub reads a granule: one that it corrects it writes anew, and one that it cannot correct, or in which it finds a new error
(`bad`), is marked.  While a chain holds its lot, the bytes there are good: the mark shows once
the lot is read from memory again, unless a write of the lot has replaced the granule. -/
def execPatrolScrub (granule : Nat) (bad : Bool) (s : State) : Out :=
  .next (
    if s.board.stage = 0 then s
    else
    let ecc := Tbl.find s.ecc granule
    let s := { s with ecc := Tbl.del s.ecc granule }
    if (bad || ecc == some true) && inHbm (32 * granule) then
      if s.clusters.any (fun p => p.2.stands (granule / 8)) then { s with scrubbed := Tbl.put s.scrubbed granule () } else s.mark granule
    else s)

/-! ### Cores out of service -/

/-- R455: the gangs with a block on a core; `col`: those of which one holds a column allotment there, else those of which none
does. -/
def State.gangsOn (s : State) (core : Nat) (col : Bool) : List (BitVec 13) :=
  let bs := s.blocks.filter (fun p => p.1 / 8 == core)
  let tags := (bs.map (fun p => p.2.tag)).eraseDups
  tags.filter (fun t => bs.any (fun p => p.2.tag == t && p.2.ca != 0) == col)
/-- R455: the places of a gang: cluster and domain slot. -/
def State.gangPlaces (s : State) (tag : BitVec 13) : List (Nat × Nat) :=
  ((s.blocks.filter (fun p => p.2.tag == tag)).map (fun p => (clusterOf (p.1 / 8), p.2.domSlot))).eraseDups

/-- R496: cores under an issue cap. -/
def State.cappedCores (s : State) : Nat :=
  ((List.range 192).filter (fun k => !(s.core k).outOfService && (s.board.hold != 0 || !(s.core k).sensorBad.isEmpty))).length
/-- The readings of the sensors of the cores in service, of those that have not failed alone, or of all with what replaces them. -/
def State.readings (s : State) (all : Bool) : List Int :=
  s.cores.flatMap (fun p => if p.2.outOfService then []
    else (p.2.sensors.filter (fun x => all || (Tbl.find p.2.sensorBad x.1).isNone)).map (fun x => x.2.1))
/-- R496: the hottest in-service sensor, in °C from 0. -/
def State.hottest (s : State) : Nat := (s.readings false).foldl (fun m r => max m r.toNat) 0
/-- R496: the telemetry register. -/
def State.telemetryWith (s : State) (power : Nat) : DWord :=
  BitVec.ofNat 64 (power % 65536 * 2 ^ 48 + bits s.control.telemetry.toNat 47 32 * 2 ^ 32 + min 255 s.hottest * 2 ^ 24 + s.cappedCores * 2 ^ 16 +
    flagBit (s.board.capped && s.board.hold != 0) * 2 + flagBit ((s.readings true).any (fun r => decide (105 ≤ r))))
/-- The register after a change of what it shows. -/
def State.showTelemetry (s : State) : State :=
  { s with control := { s.control with telemetry := s.telemetryWith (bits s.control.telemetry.toNat 63 48) } }

/-- R455: a core is taken out of service: it takes no placement, its gangs with a column allotment are killed, and the others are saved
and placed elsewhere. -/
def State.takeOut (s : State) (core : Nat) : State :=
  let c := s.core core
  if c.outOfService || 192 ≤ core then s
  else
    let s := s.setCore core { c with outOfService := true }
    let s := { s with
      board := { s.board with outList := s.board.outList ++ [core] }
      units := s.units.map (fun (u : Nat × PlaceUnit) => if (u.2.reserved.getD []).any (fun x => x.key / 8 == core) then (u.1, { u.2 with reserved := none }) else u) }
    let s := (s.gangsOn core true).foldl (fun s t => s.killGang t 0 3) s
    let saved := s.gangsOn core false
    let s := { s with gangs := s.gangs.map (fun (g : Gang) => if saved.contains g.tag then { g with moving := true } else g) }
    (saved.foldl (fun s t =>
      (s.gangPlaces t).foldl (fun s p => { s with preempts := s.preempts ++ [⟨p.1, p.2, 1, s.dclk, false, some [t], []⟩] }) s) s).showTelemetry

/-- R455: four uncorrectable column errors within 2^30 DCLK. -/
def Core.columnFails (c : Core) : Bool :=
  !c.outOfService &&
  (match c.colErrors with
    | [a, _, _, d] => decide (a.toNat - d.toNat ≤ 2 ^ 30)
    | _ => false)
/-- R455: the cores whose column has failed go out of service. -/
def State.outDue (s : State) : State :=
  ((s.cores.filter (fun p => p.2.columnFails)).map Prod.fst).foldl State.takeOut s

/-! ### Vertical wires -/

/-- R453: the beats in a row in which each wire of the group was wrong, and the wires that the 16th marks failed. -/
def Core.countBeat (c : Core) (group : Nat) (wrong : List Nat) : Core :=
  (List.range 72).foldl (fun (c : Core) w =>
    let k := 72 * group + w
    if wrong.contains w then
      let n := Tbl.get 0 c.wires k + 1
      { c with wires := Tbl.set 0 c.wires k n, failed := if 16 ≤ n then Tbl.put c.failed k () else c.failed }
    else { c with wires := Tbl.del c.wires k }) c

/-- R452, R152: the block of a core whose column allotment holds a physical offset. -/
def State.columnOwner (s : State) (core off : Nat) : Option (Nat × Block) :=
  s.blocks.find? (fun p => p.1 / 8 == core && p.2.colBase ≤ off && decide (off < p.2.colBase + p.2.ca))

/-- R453: the two words of a write's beat that cannot be corrected are written with a mark: in the column, or in memory, where a mark
covers a granule. -/
def State.writeBad (s : State) (core group at_ : Nat) : State :=
  if 16 ≤ group then (if inHbm at_ then s.mark (at_ / 32) else s)
  else
    match s.columnOwner core at_ with
    | none => s
    | some (bk, b) =>
      let w := (0x1000000 + (at_ - b.colBase) / 8 * 8) / 4
      s.setBlock bk { b with poison := Tbl.put (Tbl.put b.poison w ()) (w + 1) () }
/-- R453: a beat that cannot be corrected: its words are marked as they are written, or as they are delivered to the block that reads
them, whose gang is killed. -/
def State.loseBeat (s : State) (core group at_ : Nat) (reader : Option Nat) : State :=
  let s := s.columnErrors core (if group < 16 then 1 else 0)
  match reader with
  | none => (s.writeBad core group at_).countPoison core ((s.columnOwner core at_).map (fun p => p.2.domSlot)) 7 group
  | some bk =>
    match s.block bk with
    | none => s.countPoison core none 7 group
    | some b => (s.countPoison core (some b.domSlot) 7 group).killGang b.tag 12 0

/-- R453: a beat of a core's bus, with the wires that are wrong in it. -/
def execBusBeatError (core group : Nat) (wrong : List Nat) (words : BeatWords) (s : State) : Out :=
  .next (
    let bad := (List.range 72).filter wrong.contains
    if 192 ≤ core || 32 ≤ group then s
    else
      let s := s.setCore core ((s.core core).countBeat group bad)
      let owner := match words.reader with
        | some bk => (s.block bk).map Block.domSlot
        | none => (s.columnOwner core words.addr).map (fun p => p.2.domSlot)
      let s := if bad.length = 0 then s
        else if bad.length = 1 then s.countError core owner 4
        else s.loseBeat core group words.addr words.reader
      if 2 ≤ (s.core core).badWires group then s.takeOut core else s)

/-! ### Sensors -/

/-- R454, R472: the event of a sensor. -/
def State.postSensor (s : State) (core sensor : Nat) : State := s.post 4 0 0 0 (core + 256 * sensor)

/-- R454: the readings of a sensor's neighbours in service: the sensors next to it in its column, and its like in the columns next to its
own (log entry 68). -/
def State.sensorNear (s : State) (core sensor : Nat) : List Int :=
  let own := (List.range 8).filter (fun j => j + 1 == sensor || j == sensor + 1)
  let near := (own.map (fun j => (core, j))) ++ (List.range 4).filterMap (fun d => (neighbour core d).map (fun k => (k, sensor)))
  near.filterMap (fun p =>
    let c := s.core p.1
    if c.outOfService || (Tbl.find c.sensorBad p.2).isSome then none else (Tbl.find c.sensors p.2).map Prod.fst)
/-- R454: a reading lies too far from the mean of its neighbours. -/
def farFromMean (reading : Int) (near : List Int) : Bool :=
  !near.isEmpty && decide (15 * near.length < (reading * near.length - near.foldl (· + ·) 0).natAbs)

/-- R497: a sensor that comes to 115 °C stops issue on every core. -/
def State.heed (s : State) (core sensor : Nat) (was : Option Int) : State :=
  match Tbl.find (s.core core).sensors sensor with
  | some (r, _) =>
    if 115 ≤ r && !was.any (fun o => decide (115 ≤ o)) && !(s.core core).outOfService then
      { s with board := { s.board with stopped := true } }.postSensor core sensor
    else s
  | none => s

/-- R454: a sensor has failed: what stands for it is the highest of its neighbours with the power model's estimate of the difference;
with no neighbour in service, nothing. -/
def State.replaceSensor (s : State) (core sensor : Nat) (estimate : Int) : State :=
  let c := s.core core
  match s.sensorNear core sensor with
  | [] => s.setCore core { c with sensors := Tbl.del c.sensors sensor }
  | x :: r =>
    s.setCore core { c with sensors := Tbl.put c.sensors sensor (r.foldl max x + estimate, 1) }

/-- R454: a reading of a sensor: outside the range, the 16th time the same while the core's power changed, or too far from the mean
of its neighbours; `estimate`: the power model's, of the difference from its neighbours; `busier`: the core's power, which the machine
does not hold, has changed by 10 % or more (log entry 68). -/
def execSensorSample (core sensor : Nat) (reading estimate : Int) (busier : Bool) (s : State) : Out :=
  .next (
    let c := s.core core
    if 192 ≤ core || 8 ≤ sensor then s
    else
      let was := (Tbl.find c.sensors sensor).map Prod.fst
      if (Tbl.find c.sensorBad sensor).isSome then s.unlessFull ((s.replaceSensor core sensor estimate).heed core sensor was).showTelemetry
      else
        let n := match Tbl.find c.sensors sensor with
          | some (r, n) => if r = reading then n + 1 else 1
          | none => 1
        let c := { c with sensors := Tbl.put c.sensors sensor (reading, n) }
        let fails := decide (reading < -20) || decide (125 < reading) || (16 ≤ n && busier) || farFromMean reading (s.sensorNear core sensor)
        if !fails then s.unlessFull ((s.setCore core c).heed core sensor was).showTelemetry
        else
          let c := { c with sensorBad := Tbl.put c.sensorBad sensor () }
          let t := (((s.setCore core c).replaceSensor core sensor estimate).heed core sensor was).postSensor core sensor
          s.unlessFull (if 4 ≤ c.sensorBad.length then t.takeOut core else t).showTelemetry)

/-! ### Power and temperature -/

/-- R497: the hold after one look at the condition `hot`; `power`: PKG_POWER exceeds the cap; `enough`: a hold that is in force is enough
(log entry 38). -/
def Board.look (b : Board) (now : DWord) (hot power enough : Bool) : Board :=
  let free := b.holdSince = 0 || decide (b.holdSince.toNat + 65536 ≤ now.toNat)
  if hot then
    let b := { b with capped := b.capped || power, clearSince := none }
    if b.hold < 3 && free && (b.hold == 0 || !enough) then { b with hold := b.hold + 1, holdSince := now } else b
  else
    let t := b.clearSince.getD now
    if 0 < b.hold && free && decide (t.toNat + 65536 ≤ now.toNat) then
      { b with hold := b.hold - 1, holdSince := now, clearSince := some t, capped := b.capped && b.hold != 1 }
    else { b with clearSince := some t }

/-- R496, R497: power in W is measured.  The stop of 115 °C ends when every sensor is below it and no strand is left. -/
def execPowerHoldStep (power : Nat) (enough : Bool) (s : State) : Out :=
  .next (
    let cap := bits s.control.telemetry.toNat 47 32
    let tooHot := decide ((if cap = 0 then 2800 else cap) < power)
    let b := s.board.look s.dclk (tooHot || decide (105 ≤ s.hottest)) tooHot enough
    let b := if b.stopped && (s.readings true).all (fun r => decide (r < 115)) && s.strands.isEmpty then { b with stopped := false } else b
    let s := { s with board := b }
    { s with control := { s.control with telemetry := s.telemetryWith power } })

/-- R497: while a sensor of a core stands at 115 °C or above, issue is stopped, with the event of the sensor. -/
def execThermalStop (core sensor : Nat) (s : State) : Out :=
  .next (if 192 ≤ core || 8 ≤ sensor || s.board.stopped then s else s.unlessFull (s.heed core sensor none))

/-! ### Tracts -/

def State.tractCluster (s : State) (tract cl : Nat) : Bool := (s.tractField tract 23 0).testBit cl

/-- R451 steps 1 and 2: the ports stop, and every gang of the tract is killed. -/
def execTractTeardown (tract : Nat) (s : State) : Out :=
  .next (
    if s.teardowns.contains tract || s.tractField tract 31 31 = 0 then s
    else
      let s := { s with
        teardowns := s.teardowns ++ [tract]
        peerStores := s.peerStores.filter (fun p => p.tract != tract)
        checkpoint := if s.checkpoint = some tract then none else s.checkpoint }
      ((s.gangs.filter (fun g => g.tract == tract)).map Gang.tag).foldl (fun s t => s.killGang t 0 1) s)

/-- R218, R452: another valid tract holds the frame of a lot. -/
def State.heldElsewhere (s : State) (tract lot : Nat) : Bool :=
  (List.range 16).any (fun t => t != tract && s.tractField t 31 31 == 1 && !(s.frameEntry t (256 * lot)).testBit 14)
/-- R451 step 3: a chain loses what it holds of the tract; the granules of its dirty lots, and of those being written, are marked.  The
lots that another tract holds stay (R452, log entry 41). -/
def State.powerCycle (tract : Nat) (s : State) (cl : Nat) : State :=
  let c := s.cluster cl
  let stays (lot : Nat) : Bool := s.heldElsewhere tract lot
  let lost := ((c.lots.filter (fun p => p.2.dirty)).map Prod.fst ++ (c.wbs.filter (fun w => w.held)).map WriteBack.lot).filter (fun l => !stays l)
  let s' := lost.eraseDups.foldl (fun s lot => (List.range 8).foldl (fun s j => s.mark (8 * lot + j)) s) s
  let s' := { s' with holders := s'.holders.filter (fun p => p.2 != cl || stays (256 * p.1)) }
  s'.setCluster cl { c with
    lots := c.lots.filter (fun p => stays p.1)
    wbs := c.wbs.filter (fun w => stays w.lot)
    pins := c.pins.filter (fun p => stays p.lot)
    lent := c.lent.filter (fun p => stays p.1)
    watch := c.watch.filter (fun p => stays p.1)
    tlb := [], walk := [], landed := [] }

/-- R451 steps 3 and 5, R472: the tract's own accesses are over; its chains are power-cycled, and the kernel hears of it: the event names
this chip as a peer of the tract, and then the tract (log entry 11). -/
def execTeardownReport (tract : Nat) (t : State) : Out :=
  let s := t
  .next (
    if !s.teardowns.contains tract || s.flights.any (fun f => f.agent.tract == tract) then s
    else
      let s := ((List.range 24).filter (s.tractCluster tract)).foldl (State.powerCycle tract) s
      let s := ((List.range 192).filter (fun k => s.tractCluster tract (clusterOf k))).foldl (fun s k =>
        s.setCore k { s.core k with tlb := [], clearing := [] }) s
      t.unlessFull ({ s with teardowns := s.teardowns.filter (· != tract) }.post 5 0 0 0 (s.tractField tract 39 32 + tract * 2 ^ 64)))

end Sys2Proof.Machine
end

