-- ==== Sys2Proof/Machine/Package.lean ====
section
/-!
DEFINITION. The control window's commands and registers (22 R469 to R471, 19 R422, R425, 20 R441, 21 R449, R455, 24 R495), the host
and the application cores (R274, R275, R474, R476), and the package's reset and boot (24 R492 to R494).
-/
namespace Sys2Proof.Machine

/-! ### What a command's operand holds -/

/-- R470: the bits of the operand that a command uses, as its width and the zero fields in it; none for an unassigned op. -/
def operandShape (op : Nat) : Option (Nat × List (Nat × Nat)) :=
  match op with
  | 1 | 2 | 3 => some (32, [])
  | 4 => some (24, [(15, 13)])
  | 5 => some (12, [])
  | 6 => some (13, [])
  | 7 => some (8, [])
  | 8 => some (10, [])
  | 9 => some (56, [])
  | 10 => some (56, [])
  | _ => none
def State.commandOf (s : State) (op : Nat) (operand : BitVec 56) (body : Nat → State) : Out :=
  match operandShape op with
  | some (w, z) => s.command operand w z body
  | none => .next s

/-- R470: an op that is not assigned, or an operand with a bit that the command does not use. -/
def execRefusedCommand (op : BitVec 8) (operand : BitVec 56) (s : State) : Out :=
  .next (
    let bad := match operandShape op.toNat with
      | some (w, z) => operand.toNat / 2 ^ w != 0 || !zeroFields operand.toNat z
      | none => true
    if s.control.busy || s.board.stage != 2 || !bad then s else s.endCommand true)

/-- The strand with a STRAND_ID (R124). -/
def State.strandNamed (s : State) (id : Nat) : Option (Nat × Strand) := s.strands.find? (fun p => p.2.strandId.toNat == id)

/-! ### Strands -/

/-- R422: op 1. -/
def execHaltStrand (operand : BitVec 56) (s : State) : Out :=
  s.commandOf 1 operand (fun id =>
    match s.strandNamed id with
    | none => s.endCommand true
    | some (k, st) => (s.setStrand k { st with halted := true }).endCommand false)

/-- R422, R435: op 2: a record that became final during the halt is delivered, but for that of a `brk` that halted its strand. -/
def execReleaseStrand (operand : BitVec 56) (s : State) : Out :=
  s.commandOf 2 operand (fun id =>
    match s.strandNamed id with
    | none => s.endCommand true
    | some (k, st) =>
      let free := { st with halted := false }
      let s := (s.setStrand k free).recheckClauses k
      let free := (s.strand k).getD free
      (match st.recordValid && st.stopped, st.record with
        | true, some r =>
          if !r.halted then s
          else if r.cause == Cause.break && st.debug then
            (s.setStrand k { free with stopped := false, recordValid := false }).replayAll k
          else s.deliver k free r
        | _, _ => s).endCommand false)

/-- R441: the phase whose timeout a record holds is armed again. -/
def State.rearm (s : State) (bk : Nat) (r : Record) : State :=
  let d := r.detail.toNat
  if r.cause != .barrierTimeout || r.seq || bits d 9 8 != 0 then s
  else s.modBlock bk (fun b =>
    let k := bits d 7 0
    let x := b.barrier k
    if x.phase.toNat = bits d 63 32 then b.setBarrier k { x with expired := false, firstWait := some s.dclk } else b)
/-- R441: the same for a group's phase. -/
def State.rearmGroup (s : State) (bk : Nat) (r : Record) : State :=
  let d := r.detail.toNat
  if r.cause != .barrierTimeout || r.seq || bits d 9 8 != 1 then s
  else
    match s.block bk with
    | none => s
    | some b => s.modLaunch b.launch (fun l =>
        let g := bits d 7 0
        if Tbl.get 0 l.groupPhase g % 2 ^ 32 = bits d 63 32 then { l with groupFirst := Tbl.put l.groupFirst g (s.dclk, false) } else l)
/-- R41, R348, R349, R441: a halted sequencer goes on with the resumption of the strand that its cause was raised on: it fetches the
halting word again, or goes on waiting, from now on. -/
def State.seqOn (s : State) (bk : Nat) (r : Record) : State :=
  if r.seq then s.modSeq bk (fun q =>
    { q with
      halt := none
      running := q.running.map (fun r => { r with ready := if q.wait.isSome then r.ready else none })
      wait := q.wait.map (fun w => if q.halt.isSome then { w with since := s.dclk } else w) })
  else s

/-- R225: a second-stage fault that the hypervisor reflects: its record names a first-stage cause and the virtual address alone, and
goes to the guest's kernel. -/
def State.reflect (s : State) (k : Nat) (st : Strand) (r : Record) (c : Cause) : State :=
  let r := { r with cause := c, detail := 0 }
  let st := { st with
    record := some r
    opLog := st.opLog.map (fun e => if e.cause = Cause.stage2.code then { e with cause := c.code } else e) }
  ((s.setStrand k st).writeCtx st 0x7000 128 r.bits).deliver k st r
/-- R225: what the hypervisor does with a strand that a second-stage fault stopped, when it lets it go: the cause that it reflects, or
none, where it resumes the strand.  The choice is its own, and free (log entry 59). -/
def State.reflected (s : State) (r : Record) : Option Cause :=
  if r.cause == .stage2 then
    match (Config.freeWord s.fresh).toNat % 4 with
    | 1 => some .notPresent
    | 2 => some .permission
    | _ => none
  else none

/-- R472: a strand's fault event still waits for the hub to take it, and the strand stays stopped. -/
def State.eventWaits (s : State) (st : Strand) : Bool :=
  (s.eventHeld.drop 4096).any (fun e => bits e.toNat 7 0 == 1 && bits e.toNat 63 32 == st.strandId.toNat)
/-- R470, R415, R235, R225: op 3. -/
def execResumeStrand (operand : BitVec 56) (s : State) : Out :=
  s.commandOf 3 operand (fun id =>
    match s.strandNamed id with
    | none => s.endCommand true
    | some (k, st) =>
      match st.recordValid && st.stopped && !s.eventWaits st, st.record with
      | true, some r =>
        match s.reflected r with
        | some c => ({ s with fresh := s.fresh + 1 }.reflect k st r c).endCommand false
        | none =>
        let s := if r.cause == .stage2 then { s with fresh := s.fresh + 1 } else s
        let slot := if (st.frag r.frag).isSome then r.frag else !r.frag
        let s := s.setStrand k { (st.resumeAt slot r.pc r.header r.index (st.onlyOf r)) with stopped := false, recordValid := st.inHandler }
        let s := ((s.rearm st.block r).rearmGroup st.block r).seqOn st.block r
        -- the words of a spilled strand are replayed at its refill (R115)
        let s := if st.spilled then s.modStrand k (fun x => { x with opLog := x.opLog.map (fun e => { e with cause := 0 }) }) else s
        ((s.replayAll k).recheckClauses k).endCommand false
      | _, _ => s.endCommand true)

/-! ### Gangs, slots, cores and queues -/

/-- R449, R466: op 4 is over when what the gang had stored is performed. -/
def execKillGang (operand : BitVec 56) (s : State) : Out :=
  s.commandOf 4 operand (fun n =>
    match s.gang (BitVec.ofNat 13 (bits n 12 0)) with
    | none => s.endCommand true
    | some g =>
      let s := s.killGang g.tag (bits n 23 16) 2
      if s.storesOf g.tag then { s with control := { s.control with killing := [g.tag] } }.startCommand else s.endCommand false)

/-- R425: op 5; one whose slot is being stopped already ends with that stop. -/
def execPreemptSlot (operand : BitVec 56) (s : State) : Out :=
  s.commandOf 5 operand (fun n =>
    let core := bits n 7 0
    let slot := bits n 9 8
    let course := bits n 11 10
    if 192 ≤ core || course = 3 then s.endCommand true
    else
      let cl := clusterOf core
      let mine (p : Preempt) : Bool := p.cluster == cl && p.slot == slot && p.only.isNone
      let s := if s.preempts.any mine then
          { s with preempts := s.preempts.map (fun p => if mine p then { p with command := true } else p) }
        else s.startPreempt cl slot course true none
      s.startCommand)

/-- R455: op 7 is over when the core's gangs are killed or saved (log entry 69). -/
def execTakeCoreOutOfService (operand : BitVec 56) (s : State) : Out :=
  s.commandOf 7 operand (fun n =>
    if 192 ≤ n then s.endCommand true
    else
      let killed := s.gangsOn n true
      let s := s.takeOut n
      if killed.any s.storesOf || s.blocks.any (fun p => p.1 / 8 == n) then
        { s with control := { s.control with killing := killed, outing := some n } }.startCommand
      else s.endCommand false)

/-- R470: every launch of the queue loses its gangs and is to complete with STATUS 5. -/
def State.abortLaunch (s : State) (l : Launch) : State :=
  let s := s.modLaunch l.id (fun l => { l with started := true, relaunch := [], outcome := some (5, 0, 0, 0) })
  let s := { s with gangs := s.gangs.filter (fun g => !(g.launch == l.id && g.killed.isSome)) }
  (((s.gangs.filter (fun g => g.launch == l.id)).map Gang.tag).foldl (fun s t => s.killGang t 0 2) s).dropUnitsOf l.id

/-- R470: op 8. -/
def execAbortQueue (operand : BitVec 56) (s : State) : Out :=
  s.commandOf 8 operand (fun q =>
    let at_ := s.queueAt q + 9
    let s := s.writeN at_ 1 (s.readN at_ 1 / 2 * 2)
    let ls := s.launches.filter (fun l => l.queue == q)
    let s := ls.foldl State.abortLaunch s
    if ls.isEmpty then s.endCommand false
    else { s with control := { s.control with busy := true, aborting := some q } })

/-! ### Checkpoints and attestation -/

/-- R476, R213: every dirty lot of a chain that has landed is written back; the lots stay. -/
def Cluster.cleaned (c : Cluster) : Cluster :=
  { c with lots := c.lots.map (fun p => if p.2.landed then (p.1, { p.2 with dirty := false, stored := false }) else p) }
/-- A dirty lot of the chain has not landed yet, and its write-back waits for it (R213): a lot in motion, or a fill with the stores that
have joined it. -/
def Cluster.toClean (c : Cluster) : Bool :=
  c.lots.any (fun p => !p.2.landed && (p.2.dirty || p.2.copy.any (fun y => !y.late.isEmpty)))
/-- The clusters of a tract. -/
def State.tractClusters (s : State) (tract : Nat) : List Nat := (List.range 24).filter (s.tractCluster tract)
/-- R476: the dirty lots of a tract's chains. -/
def State.cleanTract (s : State) (tract : Nat) : State :=
  (s.tractClusters tract).foldl (fun s k => s.setCluster k (s.cluster k).cleaned) s

/-- R476: op 9; the NVMe writes lie outside the machine. -/
def execCheckpoint (operand : BitVec 56) (s : State) : Out :=
  s.commandOf 9 operand (fun n =>
    let tract := bits n 7 0
    if 16 ≤ tract || s.tractField tract 31 31 = 0 || s.strands.any (fun p => p.2.tract == tract) then s.endCommand true
    else
      { s.cleanTract tract with checkpoint := some tract }.startCommand)
/-- R476: the last NVMe write is over, after the write-back of the lots that were on their way. -/
def execCheckpointWritesComplete (s : State) : Out :=
  .next (match s.checkpoint with
    | none => s
    | some tract =>
      if (s.tractClusters tract).any (fun k => (s.cluster k).toClean) then s
      else { s.cleanTract tract with checkpoint := none }.endCommand false)

/-- Bytes that a unit outside the cores stores at a physical address (R274, R199). -/
def State.storeOutside (s : State) (pa : Nat) (bs : List Byte) : State :=
  let lots := ((List.range (bs.length / 256 + 2)).map (pa / 256 + ·)).filter (fun l => decide (256 * l < pa + bs.length))
  let s := lots.foldl State.recallFor s
  let s := s.storeList ((List.range bs.length).map (fun j => (pa + j, bs.getD j 0)))
  lots.foldl State.storedOutside s
/-- Free values (log entry 4). -/
def State.freeBytes (s : State) (n : Nat) : List Byte × State :=
  ((List.range n).map (fun j => Config.freeByte (s.fresh + j)), { s with fresh := s.fresh + n })
def bytesOf (v n : Nat) : List Byte := (List.range n).map (fun j => BitVec.ofNat 8 (v / 256 ^ j))

/-- R495: the sealed table, and every DPR with SEALED 1 in core and slot order. -/
def State.sealedWords (s : State) : List Nat :=
  s.sealed.map BitVec.toNat ++ (List.range 192).flatMap (fun k => (((s.core k).dpr.map BitVec.toNat).filter (fun d => d.testBit 24)))
/-- R495: op 10.  The digests and the serial are the part's own (log entry 71), and the signatures free values. -/
def execAttest (operand : BitVec 56) (s : State) : Out :=
  s.commandOf 10 operand (fun n =>
    let pa := 256 * n
    if pa % 4096 ≠ 0 || !s.inMap pa then s.endCommand true
    else
      let ids := bytesOf Config.serial.toNat 16 ++ bytesOf s.board.firmware.toNat 48 ++ bytesOf s.board.kernel.toNat 48 ++
        bytesOf (Config.digest s.sealedWords).toNat 48
      match s.freeBytes 3373 with
      | (sigs, s) =>
        let fixed := bytesOf s.dclk.toNat 8 ++ bytesOf (s.board.version.toNat % 2 ^ 32 + s.board.rollback.toNat % 2 ^ 32 * 2 ^ 32) 8 ++ bytesOf 0 48
        (s.storeOutside (pa + 0x20) (ids ++ fixed ++ sigs)).endCommand false)

/-! ### Registers of the control window -/

/-- R471: no queue is enabled. -/
def State.queuesOff (s : State) : Bool := (List.range 1024).all (fun q => s.queueField q 72 72 == 0)
/-- R424: a half of a slot time register is written. -/
def SlotTime.write (t : SlotTime) (high : Bool) (v : BitVec 64) : SlotTime :=
  if high then { t with deadline := BitVec.ofNat 32 (bits v.toNat 63 32), courses := BitVec.ofNat 3 (bits v.toNat 31 29), reached := false }
  else { t with sliceEnd := v, reached := false }

/-- R469, R471, R424, R496: a write to a register of the control window that has no step of its own. -/
def State.writeWindow (s : State) (offset : Nat) (value : BitVec 64) : State :=
  let page : DWord := value &&& ~~~0xFFF#64
  let c := s.control
  let set (c : Control) : State := { s with control := c }
  if offset = 0x10 then (if s.queuesOff then set { c with qdBase := page } else s)
  else if offset = 0x18 then (if s.queuesOff then set { c with fbBase := c.fbBase.set 0 page } else s)
  else if offset = 0x20 then (if s.queuesOff then set { c with fbBase := c.fbBase.set 1 page } else s)
  else if offset = 0x28 then set { c with fbAck := c.fbAck.set 0 value }
  else if offset = 0x30 then set { c with fbAck := c.fbAck.set 1 value }
  else if offset = 0x38 then (if s.queuesOff then set { c with eventBase := page } else s)
  else if offset = 0x40 then set { c with eventAck := value }
  else if offset = 0x48 then set { c with hartClass := value }
  else if offset = 0x50 then (if s.queuesOff then set { c with tractBase := page } else s)
  else if 0x1000 ≤ offset && offset < 0x4000 && offset % 8 = 0 then
    let i := (offset - 0x1000) / 16
    let k := s.core (i / 4)
    s.setCore (i / 4) { k with times := k.times.set (i % 4) ((k.time (i % 4)).write (offset % 16 == 8) value) }
  else if offset = 0x4000 then
    set { c with telemetry := BitVec.ofNat 64 (bits c.telemetry.toNat 63 48 * 2 ^ 48 + bits value.toNat 47 32 * 2 ^ 32 + bits c.telemetry.toNat 31 0) }
  else s
/-- R424: a half of a slot time register. -/
def SlotTime.word (t : SlotTime) (high : Bool) : DWord :=
  if high then BitVec.ofNat 64 (t.deadline.toNat * 2 ^ 32 + t.courses.toNat * 2 ^ 29) else t.sliceEnd
/-- R469: what a read of the window gives.  For CMD the spec states no value, and it is free (log entry 72). -/
def State.windowWord (s : State) (offset : Nat) : DWord :=
  let c := s.control
  if offset = 0 then Config.freeDWord s.fresh
  else if offset = 8 then BitVec.ofNat 64 (flagBit c.busy + flagBit c.refused * 2 ^ 8)
  else if offset = 0x10 then c.qdBase
  else if offset = 0x18 then c.fbBase.getD 0 0
  else if offset = 0x20 then c.fbBase.getD 1 0
  else if offset = 0x28 then c.fbAck.getD 0 0
  else if offset = 0x30 then c.fbAck.getD 1 0
  else if offset = 0x38 then c.eventBase
  else if offset = 0x40 then c.eventAck
  else if offset = 0x48 then c.hartClass
  else if offset = 0x50 then c.tractBase
  else if 0x1000 ≤ offset && offset < 0x4000 && offset % 8 = 0 then
    let i := (offset - 0x1000) / 16
    ((s.core (i / 4)).time (i % 4)).word (offset % 16 == 8)
  else if offset = 0x4000 then c.telemetry
  else 0
def State.answer (s : State) (agent : Nat) (a : Answer) : State := { s with answers := Tbl.put s.answers agent a }

/-- R469, R493: an access of a hart, or of the host to its copy of the first 4 KiB, at an offset of the control window: harts 0 to 3 read
and write, the others fault; the host reads, from reset on. -/
def execControlRegisterWrite (place : WindowPlace) (write : Option (BitVec 64)) (s : State) : Out :=
  let agent := place.agent
  let offset := place.offset
  .next (
    if 0x10000 ≤ offset then s
    else if agent = hostAgent then
      (match write with
        | none => if offset < 0x1000 then { s with fresh := s.fresh + 1 }.answer agent (.done (s.windowWord offset)) else s
        | some _ => s)
    else if s.board.stage != 2 || 32 ≤ agent then s
    else if 4 ≤ agent then s.refuseOutside agent
    else
      match write with
      | none => { s with fresh := s.fresh + 1 }.answer agent (.done (s.windowWord offset))
      | some v => (s.writeWindow offset v).answer agent (.done 0))

/-! ### The host and the harts -/

/-- R275, R274, R476: an address outside the map of R214 is never accessed. -/
def execHostAccess (addr : Nat) (write : Option (BitVec 64)) (s : State) : Out :=
  if s.board.stage != 2 then .next s
  else if s.inMap addr && s.inMap (addr + 7) then .next (s.outside hostAgent addr write)
  else .next s

/-- R474: the domain that the kernel has assigned to a VMID of the sandboxes; it is free, and is assigned once (log entry 73). -/
def State.assignDomain (s : State) (vmid : BitVec 8) : BitVec 12 × State :=
  match Tbl.find s.hartDom vmid.toNat with
  | some d => (d, s)
  | none =>
    let d : BitVec 12 := (Config.freeWord s.fresh).setWidth 12
    (d, { s with hartDom := Tbl.put s.hartDom vmid.toNat d, fresh := s.fresh + 1 })
/-- R474: a hart's access to a tract peer (R214): it is performed there, and its value comes from there; a gone peer gives an access
fault (R240). -/
def State.hartPeer (s : State) (hart addr : Nat) (write : Option (BitVec 64)) : State :=
  if s.peerUp s.frameTract addr && !s.teardowns.contains s.frameTract then
    match write with
    | none => { s with fresh := s.fresh + 1 }.answer hart (.done (Config.freeDWord s.fresh))
    | some _ => s.answer hart (.done 0)
  else s.refuseOutside hart

/-- R474, R273, R228: an access by a hart to device memory, under domain 0 for harts 0 to 3, and under the domain of its VMID for another;
one whose class is reserved or whose frame is refused faults in the hart and changes nothing here, and an address outside the map of R214
is never accessed. -/
def execHartAccess (by_ : HartId) (addr : Nat) (write : Option (BitVec 64)) (_acquire _release : Bool) (s : State) : Out :=
  let hart := by_.number
  .next (
    if s.board.stage != 2 || 32 ≤ hart then s
    else if inPeer addr && inPeer (addr + 7) then s.hartPeer hart addr write
    else if s.inMap addr && s.inMap (addr + 7) then
      match (if hart < 4 then ((0 : BitVec 12), s) else s.assignDomain by_.vmid) with
      | (d, s) =>
        if s.classOf addr ≤ 2 && s.foreignFrameOk s.frameTract d addr write.isSome then s.outside hart addr write
        else s.refuseOutside hart
    else s)

/-! ### Reset and boot -/

/-- R492: the fuses, the boot flash and the out-of-service list stay; the counter of free values goes on. -/
def execPackageReset (s : State) : Out :=
  .next { State.reset with
    fresh := s.fresh
    board := { State.reset.board with rollback := s.board.rollback, slotA := s.board.slotA, outList := s.board.outList } }

/-- R493, R494: the boot processor accepts an image: its slot reads as one, by MAGIC (log entry 45), both signatures verify, and VERSION
is at least the rollback counter.  The zero fields have no effect (00 R5). -/
def imageAccepted (i : BootImage) (rollback : DWord) : Bool :=
  i.magic == 0x594E3341 && i.edOk && i.mlDsaOk && decide (rollback ≤ i.version)

/-- R493 step 5, R447: one patrol pass over every stack marks what the code does not correct, and writes anew what it does. -/
def State.patrolPass (s : State) : State :=
  { (s.ecc.filter (fun e => e.2)).foldl (fun s e => s.mark e.1) s with ecc := [] }

/-- R493 steps 4 to 6.  `failed`: the stacks whose training fails. -/
def State.bootWith (s : State) (i : BootImage) (failed : List Nat) (kernel : BitVec 384) : State :=
  let s := s.board.outList.foldl (fun s k => s.setCore k { s.core k with outOfService := true }) s
  { s.patrolPass with board := { s.board with
      stage := 2
      version := i.version
      firmware := i.digest
      kernel := kernel
      badStacks := failed
      rollback := if i.flags.getLsbD 0 then i.version else s.board.rollback } }

/-- R493: from reset; an image that the host has written in recovery stands in slot A. -/
def execPackageBoot (slots : BootSlots) (found : BootFindings) (s : State) : Out :=
  .next (
    if s.board.stage != 0 then s
    else
      let a := s.board.slotA.getD slots.slotA
      if imageAccepted a s.board.rollback then s.bootWith a found.failed found.kernel
      else if imageAccepted slots.slotB s.board.rollback then s.bootWith slots.slotB found.failed found.kernel
      else { s with board := { s.board with stage := 3 } })

/-- R493: in recovery the host writes slot A. -/
def execRecoveryImageWrite (image : BootImage) (s : State) : Out :=
  .next (if s.board.stage = 3 then { s with board := { s.board with slotA := some image } } else s)

end Sys2Proof.Machine
end

