-- ==== Sys2Proof/Machine/Arbiter.lean ====
section
/-!
DEFINITION. The choice of a step's move: the agenda first, then the arbiter (log entry 3), and the placing of one instruction
as the next to run.
-/
namespace Sys2Proof.Machine

/-- The place of a fragment slot in its partition: strand k slot A, strand k slot B, strand k + 1 slot A and so on (R81). -/
def fragPlace (k : Nat) (slot : Bool) : Nat := 2 * (k % 16) + (if slot then 1 else 0)
/-- R81: the fragment slots of a partition, from its pointer. -/
def State.partSlots (s : State) (ks : List Nat) (p : Nat) : List (Nat × Bool) :=
  let at_ := Tbl.get 0 s.rot p
  let mine := (ks.filter (fun k => k / 16 == p)).flatMap (fun k => [(k, false), (k, true)])
  mine.filter (fun x => at_ ≤ fragPlace x.1 x.2) ++ mine.filter (fun x => fragPlace x.1 x.2 < at_)
/-- Every fragment slot: the partitions in turn from the one after the last that issued, each from its pointer (R81). -/
def State.slots (s : State) : List (Nat × Bool) :=
  let ks := s.strands.keysWhere (fun _ _ => true)
  let ps := (ks.map (· / 16)).eraseDups
  (ps.filter (fun p => s.lastPart < p) ++ ps.filter (fun p => p ≤ s.lastPart)).flatMap (s.partSlots ks)

/-- The move of a block's sequencer: a cause that waits, a fetch, or the word fetched, when nothing holds it back. -/
def State.seqMove (s : State) (bk : Nat) : Move :=
  match s.block bk with
  | none => .idle
  | some b =>
    if b.seq.pend.isSome then .run (.seqFetch bk)
    else
      match b.seq.running with
      | none => .idle
      | some r =>
        if b.seq.halt.isSome || b.seq.aborting.isSome || !s.seqGoesOn bk r then .idle
        else
          match r.ready with
          | none => .run (.seqFetch bk)
          | some w =>
            let waits := match b.seq.wait with
              | some x => !phasePassed (b.barrier x.k).phase x.phase
              | none => false
            if waits || (seqOperation w && !s.granted bk) then .idle
            else
              match decodeSeq w with
              | .ok i => .run i
              | .bad _ => .run (.seqFetch bk)

/-! ### What the device does by itself -/

/-- The steps that words in flight wait for. -/
def State.flightEvents (s : State) : List Instr :=
  s.flights.flatMap (fun f =>
    let lots (p : Phase) (mk : Nat → Instr) : List Instr := (f.reqs.filter (fun r => r.phase == p)).map (fun r => mk r.lot)
    (if f.xlatL != 0 then [.tlbWalkComplete f.id] else []) ++ (if f.localL != 0 then [.localAccessComplete f.id] else []) ++
    (if f.gangL != 0 then [.gangWindowArrival f.id] else []) ++ lots .tag (.tagSlot f.id) ++ lots .land (.tagSlot f.id) ++ lots .retry (.missRetry f.id) ++
    (f.reqs.filter (fun r => r.phase == .ack)).map (fun r => Instr.writeAcknowledge r.chain r.lot) ++
    lots .reply (.remoteReplyArrival f.id) ++ lots .deliver (.bypassLoadDelivery f.id) ++
    (match f.op with
      | .func => [.transcendentalComplete f.id]
      | .xsend .. => [.xsendAccept f.id]
      | .xrecv .. => [.edgeEntryArrival f.id]
      | .tlbinv .. => [.tlbinvComplete f.id]
      | .fixq .. => [.fixupReplay f.agent.block 0]
      | _ => []) ++
    (if opcodeOf f.word = 0x8C && f.ticket.isNone then [.atomscTicket f.id] else []) ++
    (if f.promoting then f.asking.map (.promotionRequest f.id) ++ [.promotionAnswer f.id] else []))

/-- The steps of the chains. -/
def State.chainEvents (s : State) : List Instr :=
  s.clusters.flatMap (fun p =>
    p.2.lots.flatMap (fun l => match l.2.place with
      | .moving .. => [.lotMotionEnd p.1 l.1]
      | .miss .. => [.missFillArrival p.1 l.1]
      | _ => []) ++
    p.2.wbs.map (fun w => Instr.writeAcknowledge p.1 w.lot) ++ p.2.lent.map (fun l => Instr.lotRecall p.1 l.1) ++
    p.2.validSubs.flatMap (fun i => [.frontLanding p.1 i false, .frontLanding p.1 i true, .gateLanding p.1 i false, .gateLanding p.1 i true]) ++
    (if p.2.ticks < s.dclk.toNat / 1024 then [.logicalClockTick p.1] else []) ++ [.leaseSweep p.1])

/-- The steps of strands. -/
def State.strandEvents (s : State) : List Instr :=
  s.strands.flatMap (fun p =>
    (if p.2.openFault.isSome || !p.2.due.isEmpty then [.trapTaken p.1] else []) ++ (if p.2.ended then [.strandReclaim p.1] else []) ++
    (if p.2.yielding.isSome then [.yieldRelease p.1] else []) ++ (if p.2.spilled then [.spilledStrandRefill p.1] else []) ++
    (if p.2.spilledFrag then [.fragmentRefill p.1, .fragmentExchange p.1] else []) ++
    [false, true].flatMap (fun b => match p.2.frag b with
      | some f => (match f.hold with
        | .counter .. => [.twaitTimeout p.1 b]
        | .mwait .. => [.mwaitExpiry p.1 b]
        | .promise .. => [.promiseDue p.1 b]
        | .service none => [.syscallAppend p.1 b]
        | _ => [])
      | none => []))

/-- The steps of blocks and their engines. -/
def State.blockEvents (s : State) : List Instr :=
  s.blocks.flatMap (fun p =>
    let copies := p.2.copy.reqs.flatMap (fun r =>
      if r.finished || r.deposit then []
      else ((List.range r.segs.length).filter (fun i => r.segs[i]?.any SegState.isTodo)).map (fun i => Instr.copySegment p.1 r.n.toNat i) ++
        [Instr.fixupReplay p.1 r.n.toNat])
    copies ++
    (if p.2.seq.running.isNone && !p.2.seq.queued.isEmpty then [.seqStreamStart p.1] else []) ++
    (if p.2.seq.wait.isSome then [.mwbTimeout p.1] else []) ++
    (if p.2.arrayWork then [.arraySlotGrant (p.1 / 8)] else []) ++
    (if p.2.stoch.reqs.isEmpty then [] else [.stochasticSlotGrant (p.1 / 8), .stochasticRequestComplete p.1]) ++
    (p.2.barriers.filter (fun x => x.2.firstWait.isSome)).map (fun x => Instr.barrierWatchdogExpiry p.1 x.1) ++ [.blockEnd p.1])

/-- The steps of cores, slots, gangs and launches. -/
def State.unitEvents (s : State) : List Instr :=
  s.cores.flatMap (fun p =>
    (if p.2.clearing.isEmpty then [] else [.allotmentClear p.1]) ++
    p.2.growth.flatMap (fun q => [.growthGrant p.1 q.1, .growthRelief p.1 q.1]) ++
    (List.range 4).filterMap (fun j => if ((p.2.times.getD j resetTime).due s.dclk) then some (.sliceExpiry (clusterOf p.1) j) else none)) ++
  s.preempts.map (fun p => Instr.preemptionDone p.cluster p.slot) ++ s.settings.map (fun x => Instr.dpsetEffect x.id) ++
  s.deposits.map (fun d => Instr.multicastDeposit d.id) ++ s.pinRelease.map (fun t => Instr.pinRelease t.toNat) ++
  (s.gangs.filter (fun g => g.killed.isSome || (g.moving && g.blocks.isEmpty))).map (fun g => Instr.gangRelaunch g.tag.toNat) ++
  s.launches.map (fun l => if l.started then Instr.launchComplete l.id else .launchStart l.id) ++
  (s.notify.map Prod.fst).map Instr.packetAccept ++ s.units.map (fun u => Instr.placementRetry u.1) ++
  (if s.eventHeld.isEmpty then [] else [.heldEventWrite]) ++
  ((List.range 16).filter (fun t => s.readN (s.tractAt t + 120) 8 < s.readN (s.tractAt t + 112) 8)).map Instr.scannerJob

/-- The words of the sequencers that may run, with their blocks. -/
def State.seqEvents (s : State) : List (Nat × Instr) :=
  s.blocks.filterMap (fun p => match s.seqMove p.1 with
    | .run i => some (p.1, i)
    | _ => none)

/-- Every step that the device may take by itself, and that leaves nothing to choose, with the strand or block it runs at. -/
def State.deviceEvents (s : State) : List (Nat × Instr) :=
  (s.flightEvents ++ s.chainEvents ++ s.strandEvents ++ s.blockEvents ++ s.unitEvents).map (fun i => (s.cur, i)) ++ s.seqEvents

/-- The move is the issue of a body word. -/
def Move.issues (m : Move) (st : Option Strand) (slot : Bool) : Bool :=
  (match m with
    | .run _ | .bad _ => true
    | _ => false) && st.any (fun st => (st.frag slot).any (fun f => f.started))
/-- A turn of a slot: the pointer of its partition moves past it (R81, log entry 3), and `yield` sees a word that issues (R107). -/
def State.issuing (s : State) (k : Nat) (slot : Bool) : State :=
  let t := s.tick k slot
  let t := { t with lastPart := k / 16, rot := Tbl.set 0 t.rot (k / 16) ((fragPlace k slot + 1) % 32) }
  if (s.moveOf k slot).issues (s.strand k) slot then t.noteIssue k else t

/-- R81: the arbiter's choice when the agenda is empty: in even ticks the first fragment that can move, in odd ones a step of the
device, and the other kind where there is none. -/
def State.arbiter (s : State) : Move × State :=
  let frag := s.slots.find? (fun p => (s.moveOf p.1 p.2).acts)
  let es := s.deviceEvents
  match frag, es[s.dclk.toNat / 2 % max 1 es.length]? with
  | some p, some e =>
    if s.dclk.toNat % 2 = 0 then (s.moveOf p.1 p.2, s.issuing p.1 p.2) else (.run e.2, s.tick e.1 s.curSlot)
  | some p, none => (s.moveOf p.1 p.2, s.issuing p.1 p.2)
  | none, some e => (.run e.2, s.tick e.1 s.curSlot)
  | none, none => (.idle, s.tick s.cur s.curSlot)

/-- What comes due with time alone: watchdogs whose tick has come (R440), cores whose columns have failed (R455), and the end of a
command (R470). -/
def State.settleDue (s : State) : State := s.expireDue.outDue.commandDue
/-- The move of a step, and the state it is made in. -/
def State.nextMove (s : State) : Move × State :=
  let s := s.settleDue
  match s.agenda with
  | [] => s.arbiter
  | t :: r =>
    let s := { s with agenda := r }
    match t with
    | .issue k slot => (s.moveOf k slot, s.issuing k slot)
    | .seq bk => (s.seqMove bk, s.tick bk false)
    | .event i => (.run i, s.tick s.cur s.curSlot)
    | .idle => (.idle, s.tick s.cur s.curSlot)

/-! ### Placing one instruction -/

/-- A one-word clause at address 0x10000, its page, and a strand that has started it. -/
def State.placeStrand (s : State) (w : Nat) : State :=
  let hdr : Word := 0xF80007F8#32
  let word : Word := BitVec.ofNat 32 w
  let head := isHeader word
  let pc : DWord := 0x10000#64
  let x : Xlat := ⟨0x10000, 0, 0, 0, true, true, true, false, true, 0⟩
  let st := Strand.start pc
  let body := List.replicate (fld w 26 23 + 1) (0 : Word)
  let f := Frag.start pc
  let f := if head then { f with clause := word :: body }
    else { f with clause := [hdr, word], started := true, pc := pc + 4 }
  let s := if head then s.writeN 0x10000 4 w else (s.writeN 0x10000 4 hdr.toNat).writeN 0x10004 4 w
  let c := s.core 0
  let s := s.setCore 0 { c with tlb := ⟨false, 1, 0, 0, 0, x, 0x10000, 0, 0, 0, 0, [(0, 0)]⟩ :: c.tlb }
  let s := s.setStrand 0 { st with fragA := some f }
  { s with cur := 0, curSlot := false, agenda := [.issue 0 false] }

/-- A block whose sequencer has fetched the word from address 0x10000, in a frame slot given to it. -/
def State.placeSeq (s : State) (w : Nat) : State :=
  let word : Word := BitVec.ofNat 32 w
  let x : Fit := ⟨0, 0, 0, 0, 0, 0, 0, []⟩
  let n : Need := ⟨0, [], 4096, 0, 0, 0, 0⟩
  let b := x.block n 0 0 0 64 0 0
  let r : Stream := {
    n := 1, seqno := none, strand := noStrand, agent := Agent.none, spc := 0x10000#64, ready := some word, busy := false, depth := 0,
    row := 0, col := 0, sq := List.replicate 4 0x00010739#32, fmt := 0, tiles := none, bbase := none, ascale := none, bsbase := none,
    tsa := 0x3F800000#32, tsb := 0x3F800000#32, x := List.replicate 8 0, loops := [], carry := 0, stok := [], sg := List.replicate 128 0,
    malformed := false, loading := false, reported := [],
    arrived := none, waiting := false }
  let s := s.writeN 0x10000 4 w
  let s := s.setBlock 0 { b with seq := { b.seq with submitted := 1, running := some r } }
  let c := s.core 0
  let s := s.setCore 0 { c with arrayFor := some 0, arraySlot := s.frameSlot }
  { s with cur := 0, curSlot := false, agenda := [.seq 0] }

/-- The instruction whose bits are `w`, where the next step runs it: a word that the strand decoder refuses and the sequencer's
accepts stands in a stream. -/
def State.placeWord (s : State) (_nbits w : Nat) : State :=
  match decode (BitVec.ofNat 32 w), decodeSeq (BitVec.ofNat 32 w) with
  | .bad _, .ok _ => s.placeSeq w
  | _, _ => s.placeStrand w

end Sys2Proof.Machine
end

