-- ==== Sys2Proof/Machine/Atomics.lean ====
section
/-!
DEFINITION. Atomics, ordered loads and stores, and the monitor (10 R269, R270, 11 R307 to R312).
-/
namespace Sys2Proof.Machine

/-- R307, R308. -/
def execAtom (o : BitVec 3) (sc : BitVec 3) (r : BitVec 2) (a : BitVec 8) (x : BitVec 8) (s : State) : Out := accessWord (.atom o sc r a x) s
/-- R307, R308: without a result. -/
def execAtomn (o : BitVec 3) (sc : BitVec 3) (r : BitVec 2) (a : BitVec 8) (x : BitVec 8) (s : State) : Out := accessWord (.atomn o sc r a x) s
/-- R309, R308. -/
def execCas (sc : BitVec 3) (r : BitVec 2) (a : BitVec 8) (x : BitVec 8) (s : State) : Out := accessWord (.cas sc r a x) s
/-- R270: at the place of its ticket. -/
def execAtomsc (o : BitVec 3) (a : BitVec 8) (x : BitVec 8) (s : State) : Out := accessWord (.atomsc o a x) s
/-- R310: an acquire load. -/
def execLda (d : BitVec 8) (a : BitVec 8) (z : BitVec 1) (sc : BitVec 3) (s : State) : Out := accessWord (.lda d a z sc) s
/-- R310: a release store. -/
def execStl (z : BitVec 1) (sc : BitVec 3) (a : BitVec 8) (b : BitVec 8) (s : State) : Out := accessWord (.stl z sc a b) s
/-- R269: an acquire load that promotes narrower releases first. -/
def execLdar (d a : BitVec 8) (z : BitVec 1) (sc : BitVec 3) (s : State) : Out :=
  strandWord (.ldar d a z sc) (fun c =>
    match askOf (.ldar d a z sc) c.type with
    | some x => c.access x true
    | none => c.s) s

/-- R312: the monitor of the strand leaves, and the lot of the lowest active lane is registered; with no active lane none is (DESIGN
CHOICE, log entry 47). -/
def execMon (a : BitVec 8) (s : State) : Out :=
  strandWord (.mon a) (fun c =>
    if !c.st.rightMwait then c.raiseWide .domain 0
    else
      match askOf (.mon a) c.type with
      | some x =>
        let s := c.access x false
        s.modStrand c.sid (fun st => if st.openFault = c.st.openFault then { st with monitor := none } else st)
      | none => c.s) s

end Sys2Proof.Machine
end

