-- ==== Sys2Proof/Machine/FloatArith.lean ====
section
/-!
DEFINITION. Floating-point arithmetic and the transcendental words (05 R143 to R148).
-/
namespace Sys2Proof.Machine

/-- The generator state of a lane (R49). -/
def Strand.srAt (st : Strand) (L : Nat) : Word := Lanes.at 0 st.sr L
/-- R50: the lanes of `m` take the new states. -/
def Strand.setSr (st : Strand) (m : Mask) (f : Nat → Word) : Strand :=
  { st with sr := Lanes.gen (fun L => if Mask.has m L then f L else st.srAt L) }

/-- A word whose lanes round: values, and generator states that the active lanes take on. -/
def Ctx.rounded (c : Ctx) (wide : Bool) (d : BitVec 8) (r : Nat → Nat × Word) : State :=
  let rs := (List.range 32).map r
  let v : Vals := rs.map Prod.fst
  let st := (c.st.setRegs wide d.toNat c.act v).setLatch c.pipe c.act v
  c.done (st.setSr c.act (fun L => (rs.getD L (0, 0)).2))

/-- R143: `d` is read as a source by `ffma`; B of `fscl` is read as an integer. -/
def floatWord (i : Instr) (op : FloatOp) (d a b : BitVec 8) (s : State) : Out :=
  strandWord i (fun c =>
    let va := c.source 1 c.wide a
    let vb := c.source 2 c.wide b
    let vd := c.st.regs c.wide d.toNat
    c.rounded c.wide d (fun L => floatLane op c.type c.rnd (c.st.srAt L) (va.at L) (vb.at L) (vd.at L))) s

/-- R143. -/
def execFadd (d a b : BitVec 8) (s : State) : Out := floatWord (.fadd d a b) .fadd d a b s
/-- R143. -/
def execFsub (d a b : BitVec 8) (s : State) : Out := floatWord (.fsub d a b) .fsub d a b s
/-- R143. -/
def execFmul (d a b : BitVec 8) (s : State) : Out := floatWord (.fmul d a b) .fmul d a b s
/-- R143. -/
def execFfma (d a b : BitVec 8) (s : State) : Out := floatWord (.ffma d a b) .ffma d a b s
/-- R143. -/
def execFrnd (d a : BitVec 8) (s : State) : Out := floatWord (.frnd d a) .frnd d a 0xD2#8 s

/-- The integer TYPE under which `fscl` reads B's constants (R143, R20). -/
def fsclType (t : Nat) : Nat := if t = 11 then 6 else if t = 8 then 0 else 2
/-- R143. -/
def execFscl (d a b : BitVec 8) (s : State) : Out :=
  strandWord (.fscl d a b) (fun c =>
    let va := c.source 1 c.wide a
    let vb := broadcast c.f.mode c.act 2 (c.st.source true (fsclType c.type) c.wide b.toNat)
    c.rounded c.wide d (fun L => floatLane .fscl c.type c.rnd (c.st.srAt L) (va.at L) (vb.at L) 0)) s

/-- R144, R145: the float words that select or copy. -/
def pickWord (i : Instr) (d a b : BitVec 8) (f : Nat → Nat → Nat → Nat) (s : State) : Out :=
  strandWord i (fun c =>
    let va := c.source 1 c.wide a
    let vb := c.source 2 c.wide b
    c.result c.wide d (Vals.gen (fun L => f c.type (va.at L) (vb.at L)))) s
/-- R144. -/
def execFmin (d a b : BitVec 8) (s : State) : Out := pickWord (.fmin d a b) d a b (fminLane .fmin) s
/-- R144. -/
def execFmax (d a b : BitVec 8) (s : State) : Out := pickWord (.fmax d a b) d a b (fminLane .fmax) s
/-- R144. -/
def execFminp (d a b : BitVec 8) (s : State) : Out := pickWord (.fminp d a b) d a b (fminLane .fminp) s
/-- R144. -/
def execFmaxp (d a b : BitVec 8) (s : State) : Out := pickWord (.fmaxp d a b) d a b (fminLane .fmaxp) s
/-- R145. -/
def execFabs (d a : BitVec 8) (s : State) : Out := pickWord (.fabs d a) d a 0xD2#8 (fun t x _ => signLane false t x) s
/-- R145. -/
def execFneg (d a : BitVec 8) (s : State) : Out := pickWord (.fneg d a) d a 0xD2#8 (fun t x _ => signLane true t x) s
/-- R145. -/
def execFcls (d a : BitVec 8) (s : State) : Out := pickWord (.fcls d a) d a 0xD2#8 (fun t x _ => fclsLane t x) s

/-- R146: q0 and q1 of the issuing fragment. -/
def execFdot4 (d a b : BitVec 8) (s : State) : Out :=
  strandWord (.fdot4 d a b) (fun c =>
    let va := c.source 1 false a
    let vb := c.source 2 false b
    let vd := c.st.regs false d.toNat
    c.rounded false d (fun L =>
      fdot4Lane (c.f.q.getD 0 0) (c.f.q.getD 1 0) c.rnd (c.st.srAt L) (va.at L) (vb.at L) (vd.at L))) s

/-- R147: the function unit computes the results of the issue clk and writes them at the completion; with no active lane the
word completes at once. -/
def funcWord (i : Instr) (op : FloatOp) (d a : BitVec 8) (s : State) : Out :=
  strandWord i (fun c =>
    if c.act = 0 then c.done c.st
    else
      let va := c.source 1 c.wide a
      let rs := (List.range 32).map (fun L => floatLane op c.type c.rnd (c.st.srAt L) (va.at L) 0 0)
      let fl := { c.flight .func with
        dst := d, wide := c.wide, regs := 1, got := [rs.map (fun p => BitVec.ofNat 64 p.1)] }
      let st := c.st.setSr c.act (fun L => (rs.getD L (0, 0)).2)
      c.launch (c.s.setStrand c.sid st) false fl) s
/-- R148. -/
def execFrcp (d a : BitVec 8) (s : State) : Out := funcWord (.frcp d a) .frcp d a s
/-- R148. -/
def execFrsq (d a : BitVec 8) (s : State) : Out := funcWord (.frsq d a) .frsq d a s
/-- R148. -/
def execFsqrt (d a : BitVec 8) (s : State) : Out := funcWord (.fsqrt d a) .fsqrt d a s
/-- R148. -/
def execFex2 (d a : BitVec 8) (s : State) : Out := funcWord (.fex2 d a) .fex2 d a s
/-- R148. -/
def execFlg2 (d a : BitVec 8) (s : State) : Out := funcWord (.flg2 d a) .flg2 d a s
/-- R148. -/
def execFsin (d a : BitVec 8) (s : State) : Out := funcWord (.fsin d a) .fsin d a s
/-- R148. -/
def execFcos (d a : BitVec 8) (s : State) : Out := funcWord (.fcos d a) .fcos d a s

/-- R147: the results are written in every active lane, and the word's flag clears. -/
def execTranscendentalComplete (flight : Nat) (s : State) : Out :=
  .next (match s.flight flight with
    | some f => if f.op == .func then (s.writeBack f 0 f.mask).completeFlight f else s
    | none => s)

end Sys2Proof.Machine
end

