-- ==== Sys2Proof/Machine/Formats.lean ====
section
/-!
DEFINITION. The words of 03: `setfmt`, `getfmt`, `cvt`, `nfpk`, `nfupk`, `srseed` (R61 to R68).
-/
namespace Sys2Proof.Machine

/-- R62: an invalid descriptor raises ILLEGAL_OPERAND. -/
def execSetfmt (n : BitVec 2) (a : BitVec 8) (s : State) : Out :=
  strandWord (.setfmt n a) (fun c =>
    match c.act.lowest with
    | none => c.done c.st
    | some L =>
      let q := BitVec.ofNat 32 ((c.source 1 false a).at L)
      if qValid q then c.done (c.st.setFrag c.slot (some { c.f with q := c.f.q.set n.toNat q }))
      else c.raiseWide .illegalOperand 0) s
/-- R63. -/
def execGetfmt (d : BitVec 8) (n : BitVec 2) (s : State) : Out :=
  strandWord (.getfmt d n) (fun c => c.result false d (Vals.gen (fun _ => (c.f.q.getD n.toNat 0).toNat))) s

/-- R64: a format code of `cvt`. -/
def Frag.cvtFmt (f : Frag) (code : BitVec 4) : CvtFmt :=
  if code.toNat < 12 then .lane code.toNat else .narrow (f.q.getD (code.toNat - 12) 0)
/-- R65, R66. -/
def execCvt (d a : BitVec 8) (t s' : BitVec 4) (s : State) : Out :=
  strandWord (.cvt d a t s') (fun c =>
    let dst := c.f.cvtFmt t
    let src := c.f.cvtFmt s'
    let pair := (cvtPairing dst src).getD (false, false)
    let va := c.source 1 pair.1 a
    c.rounded pair.2 d (fun L => cvtLane dst src c.rnd (modeSat c.f.mode) (c.st.srAt L) (va.at L))) s

/-- R67. -/
def execNfpk (d a : BitVec 8) (n : BitVec 2) (s : State) : Out :=
  strandWord (.nfpk d a n) (fun c =>
    let q := c.f.q.getD n.toNat 0
    let vs := (List.range (packCount q)).map (fun j => broadcast c.f.mode c.act 1 (c.st.regs false (a.toNat + j)))
    c.rounded false d (fun L => nfpkLane q c.rnd (modeSat c.f.mode) (c.st.srAt L) (vs.map (fun v => v.at L)))) s
/-- R67: several registers, so no latch (R118). -/
def execNfupk (d a : BitVec 8) (n : BitVec 2) (s : State) : Out :=
  strandWord (.nfupk d a n) (fun c =>
    let q := c.f.q.getD n.toNat 0
    let va := c.source 1 false a
    c.done ((List.range (packCount q)).foldl (fun st j =>
      st.setRegs false (d.toNat + j) c.act (Vals.gen (fun L => nfupkLane q (va.at L) j))) c.st)) s

/-- R68. -/
def execSrseed (a : BitVec 8) (s : State) : Out :=
  strandWord (.srseed a) (fun c =>
    let va := c.source 1 false a
    c.done (c.st.setSr c.act (fun L =>
      if va.at L = 0 then 0x9E3779B9#32 ^^^ BitVec.ofNat 32 L else BitVec.ofNat 32 (va.at L)))) s

end Sys2Proof.Machine
end

