-- ==== Sys2Proof/Machine/IntArith.lean ====
section
/-!
DEFINITION. Integer arithmetic, logic, shifts and bit fields (05 R136 to R142).
-/
namespace Sys2Proof.Machine

/-- A word of three register operands that computes lane by lane, D read as a source too; `wideB`: B's width follows TYPE. -/
def lanes3 (i : Instr) (d a b : BitVec 8) (wideB : Bool) (f : Ctx → Nat → Nat → Nat → Nat) (s : State) : Out :=
  strandWord i (fun c =>
    let va := c.source 1 c.wide a
    let vb := c.source 2 (wideB && c.wide) b
    let vd := c.st.regs c.wide d.toNat
    c.result c.wide d (Vals.gen (fun L => f c (va.at L) (vb.at L) (vd.at L)))) s
/-- A word of one source. -/
def lanes1 (i : Instr) (d a : BitVec 8) (f : Ctx → Nat → Nat) (s : State) : Out :=
  strandWord i (fun c =>
    let va := c.source 1 c.wide a
    c.result c.wide d (Vals.gen (fun L => f c (va.at L)))) s

/-- R136. -/
def intWord (op : IntOp) (c : Ctx) (a b d : Nat) : Nat := intLane op c.type (modeSat c.f.mode) a b d

/-- R136. -/
def execAdd (d a b : BitVec 8) (s : State) : Out := lanes3 (.add d a b) d a b true (intWord .add) s
/-- R136. -/
def execSub (d a b : BitVec 8) (s : State) : Out := lanes3 (.sub d a b) d a b true (intWord .sub) s
/-- R136. -/
def execMul (d a b : BitVec 8) (s : State) : Out := lanes3 (.mul d a b) d a b true (intWord .mul) s
/-- R136. -/
def execMulh (d a b : BitVec 8) (s : State) : Out := lanes3 (.mulh d a b) d a b true (intWord .mulh) s
/-- R136. -/
def execMad (d a b : BitVec 8) (s : State) : Out := lanes3 (.mad d a b) d a b true (intWord .mad) s
/-- R136. -/
def execMin (d a b : BitVec 8) (s : State) : Out := lanes3 (.min d a b) d a b true (intWord .min) s
/-- R136. -/
def execMax (d a b : BitVec 8) (s : State) : Out := lanes3 (.max d a b) d a b true (intWord .max) s
/-- R136. -/
def execAbs (d a : BitVec 8) (s : State) : Out := lanes1 (.abs d a) d a (fun c x => intWord .abs c x 0 0) s
/-- R136. -/
def execNeg (d a : BitVec 8) (s : State) : Out := lanes1 (.neg d a) d a (fun c x => intWord .neg c x 0 0) s

/-- R137: the carry of each lane comes from and goes to p15. -/
def carryWord (i : Instr) (d a b : BitVec 8) (f : Nat → Nat → Nat → Bool → Nat × Bool) (s : State) : Out :=
  strandWord i (fun c =>
    let va := c.source 1 c.wide a
    let vb := c.source 2 c.wide b
    let w := if c.wide then 64 else 32
    let p := c.st.pred 15
    let r (L : Nat) := f w (va.at L) (vb.at L) (Mask.has p L)
    let v := Vals.gen (fun L => (r L).1)
    let st := (c.st.setRegs c.wide d.toNat c.act v).setLatch c.pipe c.act v
    c.done (st.setPred 15 c.act (Mask.ofPred (fun L => (r L).2)))) s
/-- R137. -/
def execAddc (d a b : BitVec 8) (s : State) : Out := carryWord (.addc d a b) d a b addCarry s
/-- R137. -/
def execSubb (d a b : BitVec 8) (s : State) : Out := carryWord (.subb d a b) d a b subBorrow s

/-- R142. -/
def execLea (d a b : BitVec 8) (s : State) : Out :=
  strandWord (.lea d a b) (fun c =>
    let va := c.source 1 true a
    let vb := c.source 2 (c.type == 6 || c.type == 7) b
    c.result true d (Vals.gen (fun L => leaLane c.type (modeLeaScale c.f.mode) (va.at L) (vb.at L)))) s

/-- R138. -/
def logicWord (op : LogicOp) (c : Ctx) (a b _ : Nat) : Nat := logicLane op (if c.wide then 64 else 32) a b
/-- R138. -/
def execAnd (d a b : BitVec 8) (s : State) : Out := lanes3 (.and d a b) d a b true (logicWord .and) s
/-- R138. -/
def execOr (d a b : BitVec 8) (s : State) : Out := lanes3 (.or d a b) d a b true (logicWord .or) s
/-- R138. -/
def execXor (d a b : BitVec 8) (s : State) : Out := lanes3 (.xor d a b) d a b true (logicWord .xor) s
/-- R138. -/
def execAndn (d a b : BitVec 8) (s : State) : Out := lanes3 (.andn d a b) d a b true (logicWord .andn) s
/-- R138. -/
def execNot (d a : BitVec 8) (s : State) : Out := lanes1 (.not d a) d a (fun c x => logicWord .not c x 0 0) s

/-- R139. -/
def shiftWord (op : ShiftOp) (c : Ctx) (a b _ : Nat) : Nat := shiftLane op c.type a b
/-- R139. -/
def execShl (d a b : BitVec 8) (s : State) : Out := lanes3 (.shl d a b) d a b true (shiftWord .shl) s
/-- R139. -/
def execShr (d a b : BitVec 8) (s : State) : Out := lanes3 (.shr d a b) d a b true (shiftWord .shr) s
/-- R139. -/
def execSar (d a b : BitVec 8) (s : State) : Out := lanes3 (.sar d a b) d a b true (shiftWord .sar) s
/-- R139. -/
def execRotl (d a b : BitVec 8) (s : State) : Out := lanes3 (.rotl d a b) d a b true (shiftWord .rotl) s

/-- R140: B is one 32-bit register whatever TYPE holds (R128). -/
def execBfx (d a b : BitVec 8) (s : State) : Out :=
  lanes3 (.bfx d a b) d a b false (fun c x y _ => bfxLane (typeSigned c.type) (if c.wide then 64 else 32) x y) s
/-- R140. -/
def execBfi (d a b : BitVec 8) (s : State) : Out :=
  lanes3 (.bfi d a b) d a b false (fun c x y z => bfiLane (if c.wide then 64 else 32) x y z) s

/-- R141. -/
def countWord (op : CountOp) (c : Ctx) (a : Nat) : Nat := countLane op c.type a
/-- R141. -/
def execClz (d a : BitVec 8) (s : State) : Out := lanes1 (.clz d a) d a (countWord .clz) s
/-- R141. -/
def execCtz (d a : BitVec 8) (s : State) : Out := lanes1 (.ctz d a) d a (countWord .ctz) s
/-- R141. -/
def execPopc (d a : BitVec 8) (s : State) : Out := lanes1 (.popc d a) d a (countWord .popc) s
/-- R141. -/
def execBrev (d a : BitVec 8) (s : State) : Out := lanes1 (.brev d a) d a (countWord .brev) s

end Sys2Proof.Machine
end

