-- ==== Sys2Proof/Machine/LoadStore.lean ====
section
/-!
DEFINITION. The words of a chain (07 R203 to R213): loads, stores, runs, and the words on lots.
-/
namespace Sys2Proof.Machine

/-- R206: one element of a lane, placed in the chain. -/
def execLd (d : BitVec 8) (a : BitVec 8) (sg : BitVec 1) (z : BitVec 2) (s : State) : Out := accessWord (.ld d a sg z) s
/-- R206: the same without a place in the chain. -/
def execLdb (d : BitVec 8) (a : BitVec 8) (sg : BitVec 1) (z : BitVec 2) (s : State) : Out := accessWord (.ldb d a sg z) s
/-- R206. -/
def execSt (z : BitVec 2) (a : BitVec 8) (b : BitVec 8) (s : State) : Out := accessWord (.st z a b) s
/-- R206. -/
def execStb (z : BitVec 2) (a : BitVec 8) (b : BitVec 8) (s : State) : Out := accessWord (.stb z a b) s
/-- R207, R168: a run of registers. -/
def execLdm (d : BitVec 8) (a : BitVec 8) (n : BitVec 4) (s : State) : Out := accessWord (.ldm d a n) s
/-- R207, R168. -/
def execStm (n : BitVec 4) (a : BitVec 8) (b : BitVec 8) (s : State) : Out := accessWord (.stm n a b) s
/-- R208. -/
def execPref (a : BitVec 8) (s : State) : Out := accessWord (.pref a) s
/-- R209. -/
def execChain (d : BitVec 8) (a : BitVec 8) (s : State) : Out := accessWord (.chain d a) s
/-- R211. -/
def execPin (a : BitVec 8) (s : State) : Out := accessWord (.pin a) s
/-- R212. -/
def execUnpin (a : BitVec 8) (s : State) : Out := accessWord (.unpin a) s
/-- R213. -/
def execLotwb (a : BitVec 8) (s : State) : Out := accessWord (.lotwb a) s
/-- R213. -/
def execLotdrop (a : BitVec 8) (s : State) : Out := accessWord (.lotdrop a) s

end Sys2Proof.Machine
end

