-- ==== Sys2Proof/Machine/Local.lean ====
section
/-!
DEFINITION. The words of the scratchpad and column chapter (06 R166 to R174) and the edge links.
-/
namespace Sys2Proof.Machine

/-- R166. -/
def execLds (d a : BitVec 8) (sg : BitVec 1) (z : BitVec 2) (s : State) : Out := accessWord (.lds d a sg z) s
/-- R166. -/
def execSts (z : BitVec 2) (a b : BitVec 8) (s : State) : Out := accessWord (.sts z a b) s
/-- R167, R168. -/
def execLdsm (d a : BitVec 8) (n : BitVec 4) (s : State) : Out := accessWord (.ldsm d a n) s
/-- R167, R168. -/
def execStsm (n : BitVec 4) (a b : BitVec 8) (s : State) : Out := accessWord (.stsm n a b) s

/-- R169: the window kind of an address, as far as its checks go. -/
def State.sptKind (s : State) (st : Strand) (a : Nat) : Nat :=
  match s.window st a with
  | .error .badWindow => 4
  | _ => addrKind a
/-- R169. -/
def execSpt (d a : BitVec 8) (s : State) : Out :=
  strandWord (.spt d a) (fun c =>
    let va := c.plain true a
    c.resultNoLatch false d (Vals.gen (fun L => c.s.sptKind c.st (va.at L)))) s

/-- R170: what a valid address gives. -/
def spcValue (a : Nat) : Nat :=
  match addrKind a with
  | 0 => a
  | 1 => a % 2 ^ 48
  | _ => a % 2 ^ 32
/-- R170: the lanes that fail raise, and the others receive their result. -/
def execSpc (d a : BitVec 8) (s : State) : Out :=
  strandWord (.spc d a) (fun c =>
    let va := c.plain true a
    let bad : List (Nat × Cause × Detail × DWord) := (Mask.lanes c.act).filterMap (fun L =>
      match c.s.window c.st (va.at L) with
      | .error e => some (L, e, 0, BitVec.ofNat 64 (va.at L))
      | .ok _ => none)
    let good := Mask.ofPred (fun L => Mask.has c.act L && !bad.any (fun x => x.1 == L))
    let st := c.st.setRegs true d.toNat good (Vals.gen (fun L => spcValue (va.at L)))
    match mixed bad with
    | none => c.done st
    | some r => c.raise (c.s.setStrand c.sid st) r) s

/-! ### Edge links -/

/-- R171, R172.  With no active lane and no partner there is nothing to send (log entry 64). -/
def execXsend (cn r : BitVec 2) (a : BitVec 8) (s : State) : Out :=
  strandWord (.xsend cn r a) (fun c =>
    let f := { c.flight (.xsend r.toNat cn.toNat) with data := [(c.plain false a).lanes64], addr := Lanes.zero64 }
    match c.s.partner c.st.block r.toNat with
    | .ok _ => c.launch c.s true f
    | .error e =>
      let f := { f with bad := if c.act = 0 then [] else [(e, c.act, 0)] }
      match f.raised with
      | none => c.over c.s
      | some x => (c.launch c.s true f).raiseFrom c.sid c.slot c.f.pc x none true f.pos c.s.dclk) s

/-- R173.  With no active lane and no partner there is nothing to take (log entry 64). -/
def execXrecv (d : BitVec 8) (cn r : BitVec 2) (s : State) : Out :=
  strandWord (.xrecv d cn r) (fun c =>
    match c.s.partner c.st.block r.toNat with
    | .error e => if c.act = 0 then c.over c.s else c.raise c.s ⟨e, false, c.act, 0, 0, 0, 255⟩
    | .ok _ => c.launch c.s false { c.flight (.xrecv r.toNat cn.toNat) with dst := d, regs := 1 }) s

/-- The key of a receive queue (R171). -/
def edgeKey (link ch : Nat) : Nat := 4 * link + ch

/-- R172: the entry that waits longest on its link and channel is accepted when the partner's queue has room.  A full queue holds
back the entries of its own sender alone, and an entry whose partner block has ended goes on waiting (DESIGN CHOICE, log entry 64). -/
def execXsendAccept (flight : Nat) (s : State) : Out :=
  .next (match s.flight flight with
    | none => s
    | some f =>
      match f.op with
      | .xsend dir ch =>
        let first := s.flights.all (fun g => g.op != f.op || g.agent.block != f.agent.block || f.pos ≤ g.pos || !g.bad.isEmpty)
        match s.partner f.agent.block dir with
        | .error _ => s
        | .ok k =>
          match s.block k with
          | none => s
          | some b =>
            let key := edgeKey ((dir + 2) % 4) ch
            let q := Tbl.get [] b.edges key
            if !first || !f.bad.isEmpty || q.length ≥ 8 then s
            else
              let e : Edge := ⟨(f.data.getD 0 []).map (fun x => x.setWidth 32), f.mask⟩
              (s.setBlock k { b with edges := Tbl.put b.edges key (q ++ [e]) }).completeFlight f
      | _ => s)

/-- R173: the oldest entry of a queue goes to the `xrecv` that waits longest on it. -/
def execEdgeEntryArrival (flight : Nat) (s : State) : Out :=
  .next (match s.flight flight with
    | none => s
    | some f =>
      match f.op with
      | .xrecv dir ch =>
        let first := s.flights.all (fun g => g.op != f.op || g.agent.block != f.agent.block || f.pos ≤ g.pos)
        match s.block f.agent.block with
        | none => s
        | some b =>
          let key := edgeKey dir ch
          match Tbl.get [] b.edges key with
          | [] => s
          | e :: r =>
            if !first then s
            else
              let s := s.setBlock f.agent.block { b with edges := Tbl.set [] b.edges key r }
              let f := { f with got := [e.data.map (fun x => x.setWidth 64)] }
              (s.writeBack f 0 (f.mask &&& e.mask)).completeFlight f
      | _ => s)

end Sys2Proof.Machine
end

