-- ==== Sys2Proof/Machine/Moves.lean ====
section
/-!
DEFINITION. Moves, selection and the exchange of values between lanes (05 R132 to R135), `lil` and `lih`, and the MODE words
(04 R99 to R101) with `nop` (R108).
-/
namespace Sys2Proof.Machine

/-- R99: MODE of the issuing fragment changes from its next word onward. -/
def Ctx.setMode (c : Ctx) (m : Word) : State :=
  c.done (c.st.setFrag c.slot (some { c.f with mode := m }))

/-- R99. -/
def execSetmode (i : BitVec 16) (s : State) : Out :=
  strandWord (.setmode i) (fun c => c.setMode ((c.f.mode &&& 0xFFFF0000#32) ||| i.zeroExtend 32)) s
/-- R99. -/
def execSetmodeh (i : BitVec 16) (s : State) : Out :=
  strandWord (.setmodeh i) (fun c => c.setMode ((c.f.mode &&& 0x0000FFFF#32) ||| (i.zeroExtend 32 <<< 16))) s
/-- R101: every lane of the fragment's mask; no latch. -/
def execGetmode (d : BitVec 8) (s : State) : Out :=
  strandWord (.getmode d) (fun c => c.done (c.st.setRegs false d.toNat c.f.mask (Vals.gen (fun _ => c.f.mode.toNat)))) s
/-- R108. -/
def execNop (s : State) : Out := strandWord .nop (fun c => c.done c.st) s

/-- R132: a register or pair, by R128. -/
def execMov (d a : BitVec 8) (s : State) : Out :=
  strandWord (.mov d a) (fun c => c.result c.wide d (c.source 1 c.wide a)) s
/-- R132: always 32 bits. -/
def execLil (d : BitVec 8) (i : BitVec 16) (s : State) : Out :=
  strandWord (.lil d i) (fun c => c.result false d (Vals.gen (fun _ => i.toNat))) s
/-- R132: the low half of D is kept. -/
def execLih (d : BitVec 8) (i : BitVec 16) (s : State) : Out :=
  strandWord (.lih d i) (fun c =>
    let old := c.st.regs false d.toNat
    c.result false d (Vals.gen (fun L => i.toNat * 65536 + old.at L % 65536))) s
/-- R132: the guard selects A or B in every lane of the fragment's mask. -/
def execSel (d a b : BitVec 8) (s : State) : Out :=
  strandWord (.sel d a b) (fun c =>
    let g := guardMask c.st c.f.mode
    let m := match c.f.only with
      | some o => c.f.mask &&& o
      | none => c.f.mask
    let va := c.source 1 c.wide a
    let vb := c.source 2 c.wide b
    let v := Vals.gen (fun L => if Mask.has g L then va.at L else vb.at L)
    c.done ((c.st.setRegs c.wide d.toNat m v).setLatch c.pipe m v)) s

/-- R133. -/
def execShfl (d a b : BitVec 8) (s : State) : Out :=
  strandWord (.shfl d a b) (fun c =>
    let va := c.source 1 c.wide a
    let vb := c.source 2 false b
    c.result c.wide d (Vals.gen (fun L => va.at (vb.at L % 32)))) s
/-- R133: the amount stands in the lowest active lane. -/
def execRot (d a b : BitVec 8) (s : State) : Out :=
  strandWord (.rot d a b) (fun c =>
    let va := c.source 1 c.wide a
    let k := (c.source 2 false b).at (c.act.lowest.getD 0) % 32
    c.result c.wide d (Vals.gen (fun L => va.at ((L + k) % 32)))) s

/-- R134: the value of a vote. -/
def voteValue (k : Nat) (act : Mask) (v : Vals) : Nat :=
  let c := Mask.ofPred (fun L => Mask.has act L && v.at L != 0)
  match k with
  | 0 => c.toNat
  | 1 => if c = 0 then 0 else 1
  | 2 => if c = act then 1 else 0
  | _ =>
    match act.lowest with
    | none => 1
    | some f => if (Mask.lanes act).all (fun L => v.at L == v.at f) then 1 else 0
/-- R134. -/
def execVote (d a k : BitVec 8) (s : State) : Out :=
  strandWord (.vote d a k) (fun c =>
    let x := voteValue k.toNat c.act (c.source 1 false a)
    c.result false d (Vals.gen (fun _ => x))) s

/-- R134: a fact about the active lanes, in lane `L`. -/
def laneFact (k : Nat) (act : Mask) (L : Nat) : Nat :=
  match k with
  | 0 => Mask.count act
  | 1 => ((Mask.lanes act).filter (fun j => decide (j < L))).length
  | 2 => act.lowest.getD 0
  | _ => (Mask.lanes act).getLastD 0
/-- R134. -/
def execLanes (d k : BitVec 8) (s : State) : Out :=
  strandWord (.lanes d k) (fun c => c.result false d (Vals.gen (laneFact k.toNat c.act))) s

/-- R135. -/
def execP2v (d : BitVec 8) (n : BitVec 4) (s : State) : Out :=
  strandWord (.p2v d n) (fun c => c.result false d (Vals.gen (fun _ => (c.st.pred n.toNat).toNat))) s
/-- R135. -/
def execV2p (n : BitVec 4) (a : BitVec 8) (s : State) : Out :=
  strandWord (.v2p n a) (fun c =>
    let va := c.source 1 false a
    c.done (c.st.setPred n.toNat c.act (Mask.ofPred (fun L => (va.at L).testBit L)))) s

end Sys2Proof.Machine
end

