-- ==== Sys2Proof/Machine/Predicates.lean ====
section
/-!
DEFINITION. Compares and predicate logic (05 R149, R150).
-/
namespace Sys2Proof.Machine

/-- R149: sets the active bits of a predicate from a condition on two sources. -/
def compareWord (i : Instr) (p : BitVec 4) (a b : BitVec 8) (f : Ctx → Nat → Nat → Bool) (s : State) : Out :=
  strandWord i (fun c =>
    let va := c.source 1 c.wide a
    let vb := c.source 2 c.wide b
    c.done (c.st.setPred p.toNat c.act (Mask.ofPred (fun L => f c (va.at L) (vb.at L))))) s
/-- R149: signed or unsigned by TYPE. -/
def execIcmp (c p : BitVec 4) (a b : BitVec 8) (s : State) : Out :=
  compareWord (.icmp c p a b) p a b (fun x u v =>
    let w := if x.wide then 64 else 32
    (icmpCond c.toNat (elemInt (typeSigned x.type) w u) (elemInt (typeSigned x.type) w v)).getD false) s
/-- R149. -/
def execFcmp (c p : BitVec 4) (a b : BitVec 8) (s : State) : Out :=
  compareWord (.fcmp c p a b) p a b (fun x u v =>
    (fcmpCond c.toNat ((typeFmt x.type).decode u) ((typeFmt x.type).decode v)).getD false) s

/-- R150: every field is read at issue. -/
def predWord (i : Instr) (d a b : BitVec 4) (f : Mask → Mask → Mask) (s : State) : Out :=
  strandWord i (fun c => c.done (c.st.setPred d.toNat c.act (f (c.st.pred a.toNat) (c.st.pred b.toNat)))) s
/-- R150. -/
def execPand (d a b : BitVec 4) (s : State) : Out := predWord (.pand d a b) d a b (· &&& ·) s
/-- R150. -/
def execPor (d a b : BitVec 4) (s : State) : Out := predWord (.por d a b) d a b (· ||| ·) s
/-- R150. -/
def execPxor (d a b : BitVec 4) (s : State) : Out := predWord (.pxor d a b) d a b (· ^^^ ·) s

end Sys2Proof.Machine
end

