-- ==== Sys2Proof/Machine/Dispatch.lean ====
section
/-!
DEFINITION. The meaning of every instruction: one arm per constructor, each one call of its meaning.
-/
namespace Sys2Proof.Machine

def exec (i : Instr) (s : State) : Host.Outcome State Fault Refusal :=
  match i with
  | .clauseStart l w a b => Sys2Proof.Machine.execClauseStart l w a b s
  | .setmode im => Sys2Proof.Machine.execSetmode im s
  | .setmodeh im => Sys2Proof.Machine.execSetmodeh im s
  | .getmode d => Sys2Proof.Machine.execGetmode d s
  | .rcv o => Sys2Proof.Machine.execRcv o s
  | .bra h o => Sys2Proof.Machine.execBra h o s
  | .brc h p sg o => Sys2Proof.Machine.execBrc h p sg o s
  | .brx h a => Sys2Proof.Machine.execBrx h a s
  | .call d o => Sys2Proof.Machine.execCall d o s
  | .ret a => Sys2Proof.Machine.execRet a s
  | .exit => Sys2Proof.Machine.execExit s
  | .yield => Sys2Proof.Machine.execYield s
  | .nop => Sys2Proof.Machine.execNop s
  | .mov d a => Sys2Proof.Machine.execMov d a s
  | .lil d im => Sys2Proof.Machine.execLil d im s
  | .lih d im => Sys2Proof.Machine.execLih d im s
  | .sel d a b => Sys2Proof.Machine.execSel d a b s
  | .add d a b => Sys2Proof.Machine.execAdd d a b s
  | .addc d a b => Sys2Proof.Machine.execAddc d a b s
  | .sub d a b => Sys2Proof.Machine.execSub d a b s
  | .subb d a b => Sys2Proof.Machine.execSubb d a b s
  | .mul d a b => Sys2Proof.Machine.execMul d a b s
  | .mulh d a b => Sys2Proof.Machine.execMulh d a b s
  | .mad d a b => Sys2Proof.Machine.execMad d a b s
  | .abs d a => Sys2Proof.Machine.execAbs d a s
  | .neg d a => Sys2Proof.Machine.execNeg d a s
  | .min d a b => Sys2Proof.Machine.execMin d a b s
  | .max d a b => Sys2Proof.Machine.execMax d a b s
  | .lea d a b => Sys2Proof.Machine.execLea d a b s
  | .and d a b => Sys2Proof.Machine.execAnd d a b s
  | .or d a b => Sys2Proof.Machine.execOr d a b s
  | .xor d a b => Sys2Proof.Machine.execXor d a b s
  | .andn d a b => Sys2Proof.Machine.execAndn d a b s
  | .not d a => Sys2Proof.Machine.execNot d a s
  | .shl d a b => Sys2Proof.Machine.execShl d a b s
  | .shr d a b => Sys2Proof.Machine.execShr d a b s
  | .sar d a b => Sys2Proof.Machine.execSar d a b s
  | .rotl d a b => Sys2Proof.Machine.execRotl d a b s
  | .bfx d a b => Sys2Proof.Machine.execBfx d a b s
  | .bfi d a b => Sys2Proof.Machine.execBfi d a b s
  | .clz d a => Sys2Proof.Machine.execClz d a s
  | .ctz d a => Sys2Proof.Machine.execCtz d a s
  | .popc d a => Sys2Proof.Machine.execPopc d a s
  | .brev d a => Sys2Proof.Machine.execBrev d a s
  | .fadd d a b => Sys2Proof.Machine.execFadd d a b s
  | .fsub d a b => Sys2Proof.Machine.execFsub d a b s
  | .fmul d a b => Sys2Proof.Machine.execFmul d a b s
  | .ffma d a b => Sys2Proof.Machine.execFfma d a b s
  | .fmin d a b => Sys2Proof.Machine.execFmin d a b s
  | .fmax d a b => Sys2Proof.Machine.execFmax d a b s
  | .fminp d a b => Sys2Proof.Machine.execFminp d a b s
  | .fmaxp d a b => Sys2Proof.Machine.execFmaxp d a b s
  | .fabs d a => Sys2Proof.Machine.execFabs d a s
  | .fneg d a => Sys2Proof.Machine.execFneg d a s
  | .frcp d a => Sys2Proof.Machine.execFrcp d a s
  | .frsq d a => Sys2Proof.Machine.execFrsq d a s
  | .fsqrt d a => Sys2Proof.Machine.execFsqrt d a s
  | .fex2 d a => Sys2Proof.Machine.execFex2 d a s
  | .flg2 d a => Sys2Proof.Machine.execFlg2 d a s
  | .fsin d a => Sys2Proof.Machine.execFsin d a s
  | .fcos d a => Sys2Proof.Machine.execFcos d a s
  | .frnd d a => Sys2Proof.Machine.execFrnd d a s
  | .fcls d a => Sys2Proof.Machine.execFcls d a s
  | .fscl d a b => Sys2Proof.Machine.execFscl d a b s
  | .fdot4 d a b => Sys2Proof.Machine.execFdot4 d a b s
  | .icmp c p a b => Sys2Proof.Machine.execIcmp c p a b s
  | .fcmp c p a b => Sys2Proof.Machine.execFcmp c p a b s
  | .pand d a b => Sys2Proof.Machine.execPand d a b s
  | .por d a b => Sys2Proof.Machine.execPor d a b s
  | .pxor d a b => Sys2Proof.Machine.execPxor d a b s
  | .p2v d n => Sys2Proof.Machine.execP2v d n s
  | .v2p n a => Sys2Proof.Machine.execV2p n a s
  | .vgrow a b => Sys2Proof.Machine.execVgrow a b s
  | .vshrink a b => Sys2Proof.Machine.execVshrink a b s
  | .shfl d a b => Sys2Proof.Machine.execShfl d a b s
  | .rot d a b => Sys2Proof.Machine.execRot d a b s
  | .vote d a k => Sys2Proof.Machine.execVote d a k s
  | .lanes d k => Sys2Proof.Machine.execLanes d k s
  | .rdsr d sg => Sys2Proof.Machine.execRdsr d sg s
  | .wrsr sg a => Sys2Proof.Machine.execWrsr sg a s
  | .setfmt n a => Sys2Proof.Machine.execSetfmt n a s
  | .getfmt d n => Sys2Proof.Machine.execGetfmt d n s
  | .cvt d a t sg => Sys2Proof.Machine.execCvt d a t sg s
  | .nfpk d a n => Sys2Proof.Machine.execNfpk d a n s
  | .nfupk d a n => Sys2Proof.Machine.execNfupk d a n s
  | .srseed a => Sys2Proof.Machine.execSrseed a s
  | .lds d a sg z => Sys2Proof.Machine.execLds d a sg z s
  | .sts z a b => Sys2Proof.Machine.execSts z a b s
  | .ldsm d a n => Sys2Proof.Machine.execLdsm d a n s
  | .stsm n a b => Sys2Proof.Machine.execStsm n a b s
  | .spt d a => Sys2Proof.Machine.execSpt d a s
  | .spc d a => Sys2Proof.Machine.execSpc d a s
  | .xsend c r a => Sys2Proof.Machine.execXsend c r a s
  | .xrecv d c r => Sys2Proof.Machine.execXrecv d c r s
  | .ld d a sg z => Sys2Proof.Machine.execLd d a sg z s
  | .ldb d a sg z => Sys2Proof.Machine.execLdb d a sg z s
  | .st z a b => Sys2Proof.Machine.execSt z a b s
  | .stb z a b => Sys2Proof.Machine.execStb z a b s
  | .ldm d a n => Sys2Proof.Machine.execLdm d a n s
  | .stm n a b => Sys2Proof.Machine.execStm n a b s
  | .pref a => Sys2Proof.Machine.execPref a s
  | .chain d a => Sys2Proof.Machine.execChain d a s
  | .pin a => Sys2Proof.Machine.execPin a s
  | .unpin a => Sys2Proof.Machine.execUnpin a s
  | .lotwb a => Sys2Proof.Machine.execLotwb a s
  | .lotdrop a => Sys2Proof.Machine.execLotdrop a s
  | .pgq d a k => Sys2Proof.Machine.execPgq d a k s
  | .tlbinv k a b => Sys2Proof.Machine.execTlbinv k a b s
  | .tlbsync => Sys2Proof.Machine.execTlbsync s
  | .bar k => Sys2Proof.Machine.execBar k s
  | .barar k => Sys2Proof.Machine.execBarar k s
  | .bararArm k a => Sys2Proof.Machine.execBararArm k a s
  | .barw k => Sys2Proof.Machine.execBarw k s
  | .barst d k => Sys2Proof.Machine.execBarst d k s
  | .gbar g => Sys2Proof.Machine.execGbar g s
  | .fwait m => Sys2Proof.Machine.execFwait m s
  | .twait c a => Sys2Proof.Machine.execTwait c a s
  | .tget d c => Sys2Proof.Machine.execTget d c s
  | .fence sg => Sys2Proof.Machine.execFence sg s
  | .atom o sg r a x => Sys2Proof.Machine.execAtom o sg r a x s
  | .atomn o sg r a x => Sys2Proof.Machine.execAtomn o sg r a x s
  | .cas sg r a x => Sys2Proof.Machine.execCas sg r a x s
  | .atomsc o a x => Sys2Proof.Machine.execAtomsc o a x s
  | .lda d a z sg => Sys2Proof.Machine.execLda d a z sg s
  | .stl z sg a b => Sys2Proof.Machine.execStl z sg a b s
  | .ldar d a z sg => Sys2Proof.Machine.execLdar d a z sg s
  | .mon a => Sys2Proof.Machine.execMon a s
  | .mwait a => Sys2Proof.Machine.execMwait a s
  | .cpy d t sg => Sys2Proof.Machine.execCpy d t sg s
  | .cpym d t sg g => Sys2Proof.Machine.execCpym d t sg g s
  | .cpyq d a => Sys2Proof.Machine.execCpyq d a s
  | .sleepu a q => Sys2Proof.Machine.execSleepu a q s
  | .fixqRetry a b => Sys2Proof.Machine.execFixqRetry a b s
  | .fixqFail a b => Sys2Proof.Machine.execFixqFail a b s
  | .shld sg a => Sys2Proof.Machine.execShld sg a s
  | .shset w sg a => Sys2Proof.Machine.execShset w sg a s
  | .shst sg a => Sys2Proof.Machine.execShst sg a s
  | .mgo d a b => Sys2Proof.Machine.execMgo d a b s
  | .mq d => Sys2Proof.Machine.execMq d s
  | .mres d a => Sys2Proof.Machine.execMres d a s
  | .mabort d a => Sys2Proof.Machine.execMabort d a s
  | .zlen l => Sys2Proof.Machine.execZlen l s
  | .zseed c a => Sys2Proof.Machine.execZseed c a s
  | .zenc d a p c => Sys2Proof.Machine.execZenc d a p c s
  | .zdec d a p => Sys2Proof.Machine.execZdec d a p s
  | .zand d a r b => Sys2Proof.Machine.execZand d a r b s
  | .zxnor d a r b => Sys2Proof.Machine.execZxnor d a r b s
  | .zmin d a r b => Sys2Proof.Machine.execZmin d a r b s
  | .zmux d a b sg => Sys2Proof.Machine.execZmux d a b sg s
  | .zcnt d a => Sys2Proof.Machine.execZcnt d a s
  | .zdot d k a b => Sys2Proof.Machine.execZdot d k a b s
  | .zregen d a c => Sys2Proof.Machine.execZregen d a c s
  | .zcls d a => Sys2Proof.Machine.execZcls d a s
  | .ztop d a k => Sys2Proof.Machine.execZtop d a k s
  | .gcall a => Sys2Proof.Machine.execGcall a s
  | .gret => Sys2Proof.Machine.execGret s
  | .didqSelf d => Sys2Proof.Machine.execDidqSelf d s
  | .didqDpr d a => Sys2Proof.Machine.execDidqDpr d a s
  | .didqGate d => Sys2Proof.Machine.execDidqGate d s
  | .dpsetDpr t a im => Sys2Proof.Machine.execDpsetDpr t a im s
  | .dpsetSub t a im => Sys2Proof.Machine.execDpsetSub t a im s
  | .dpsetSeal t a im => Sys2Proof.Machine.execDpsetSeal t a im s
  | .syscall x a => Sys2Proof.Machine.execSyscall x a s
  | .trap c => Sys2Proof.Machine.execTrap c s
  | .tret k => Sys2Proof.Machine.execTret k s
  | .brk c => Sys2Proof.Machine.execBrk c s
  | .ctxsv d a => Sys2Proof.Machine.execCtxsv d a s
  | .ctxld a => Sys2Proof.Machine.execCtxld a s
  | .sigchk im => Sys2Proof.Machine.execSigchk im s
  | .sigrd d => Sys2Proof.Machine.execSigrd d s
  | .sigset a => Sys2Proof.Machine.execSigset a s
  | .errq d a c => Sys2Proof.Machine.execErrq d a c s
  | .mta im n => Sys2Proof.Machine.execMta im n s
  | .mbind r u => Sys2Proof.Machine.execMbind r u s
  | .mmul e b j k => Sys2Proof.Machine.execMmul e b j k s
  | .mzero e b j => Sys2Proof.Machine.execMzero e b j s
  | .mout e b j r f p => Sys2Proof.Machine.execMout e b j r f p s
  | .mscl k im r => Sys2Proof.Machine.execMscl k im r s
  | .mfmt a b r sg => Sys2Proof.Machine.execMfmt a b r sg s
  | .mloop sg r n => Sys2Proof.Machine.execMloop sg r n s
  | .mendl => Sys2Proof.Machine.execMendl s
  | .marr k => Sys2Proof.Machine.execMarr k s
  | .mwb k => Sys2Proof.Machine.execMwb k s
  | .mjmp o => Sys2Proof.Machine.execMjmp o s
  | .mstop => Sys2Proof.Machine.execMstop s
  | .mtrn e b im r => Sys2Proof.Machine.execMtrn e b im r s
  | .maddt e b j im => Sys2Proof.Machine.execMaddt e b j im s
  | .mmax e b j r => Sys2Proof.Machine.execMmax e b j r s
  | .mset r o im => Sys2Proof.Machine.execMset r o im s
  | .clauseFetch => Sys2Proof.Machine.execClauseFetch s
  | .fragmentRefill strand => Sys2Proof.Machine.execFragmentRefill strand s
  | .fragmentExchange strand => Sys2Proof.Machine.execFragmentExchange strand s
  | .yieldRelease strand => Sys2Proof.Machine.execYieldRelease strand s
  | .strandReclaim strand => Sys2Proof.Machine.execStrandReclaim strand s
  | .blockEnd block => Sys2Proof.Machine.execBlockEnd block s
  | .allotmentClear core => Sys2Proof.Machine.execAllotmentClear core s
  | .growthGrant core part => Sys2Proof.Machine.execGrowthGrant core part s
  | .growthRelief core part => Sys2Proof.Machine.execGrowthRelief core part s
  | .spilledStrandRefill strand => Sys2Proof.Machine.execSpilledStrandRefill strand s
  | .transcendentalComplete flight => Sys2Proof.Machine.execTranscendentalComplete flight s
  | .localAccessComplete flight => Sys2Proof.Machine.execLocalAccessComplete flight s
  | .gangWindowArrival flight => Sys2Proof.Machine.execGangWindowArrival flight s
  | .xsendAccept flight => Sys2Proof.Machine.execXsendAccept flight s
  | .edgeEntryArrival flight => Sys2Proof.Machine.execEdgeEntryArrival flight s
  | .tagSlot flight lot => Sys2Proof.Machine.execTagSlot flight lot s
  | .lotMotionEnd chain lot => Sys2Proof.Machine.execLotMotionEnd chain lot s
  | .frontLanding chain sub half => Sys2Proof.Machine.execFrontLanding chain sub half s
  | .gateLanding chain sub cap => Sys2Proof.Machine.execGateLanding chain sub cap s
  | .missFillArrival chain lot => Sys2Proof.Machine.execMissFillArrival chain lot s
  | .missRetry flight lot => Sys2Proof.Machine.execMissRetry flight lot s
  | .writeAcknowledge chain lot => Sys2Proof.Machine.execWriteAcknowledge chain lot s
  | .remoteReplyArrival flight lot => Sys2Proof.Machine.execRemoteReplyArrival flight lot s
  | .lotRecall chain lot => Sys2Proof.Machine.execLotRecall chain lot s
  | .tlbWalkComplete flight => Sys2Proof.Machine.execTlbWalkComplete flight s
  | .tlbinvComplete flight => Sys2Proof.Machine.execTlbinvComplete flight s
  | .scannerJob tract => Sys2Proof.Machine.execScannerJob tract s
  | .scannerFlashDone job => Sys2Proof.Machine.execScannerFlashDone job s
  | .scannerFlashFail job => Sys2Proof.Machine.execScannerFlashFail job s
  | .peerGone tract peer => Sys2Proof.Machine.execPeerGone tract peer s
  | .peerStoreAck store => Sys2Proof.Machine.execPeerStoreAck store s
  | .peerAccess peer addr write release => Sys2Proof.Machine.execPeerAccess peer addr write release s
  | .logicalClockTick cluster => Sys2Proof.Machine.execLogicalClockTick cluster s
  | .leaseSweep cluster => Sys2Proof.Machine.execLeaseSweep cluster s
  | .promotionRequest flight core => Sys2Proof.Machine.execPromotionRequest flight core s
  | .promotionAnswer flight => Sys2Proof.Machine.execPromotionAnswer flight s
  | .atomscTicket flight => Sys2Proof.Machine.execAtomscTicket flight s
  | .barrierWatchdogExpiry block barrier => Sys2Proof.Machine.execBarrierWatchdogExpiry block barrier s
  | .twaitTimeout strand slot => Sys2Proof.Machine.execTwaitTimeout strand slot s
  | .mwaitExpiry strand slot => Sys2Proof.Machine.execMwaitExpiry strand slot s
  | .mwbTimeout block => Sys2Proof.Machine.execMwbTimeout block s
  | .copySegment block request segment => Sys2Proof.Machine.execCopySegment block request segment s
  | .fixupReplay block request => Sys2Proof.Machine.execFixupReplay block request s
  | .scannerHoldRetry block request segment => Sys2Proof.Machine.execScannerHoldRetry block request segment s
  | .multicastDeposit deposit => Sys2Proof.Machine.execMulticastDeposit deposit s
  | .promiseDue strand slot => Sys2Proof.Machine.execPromiseDue strand slot s
  | .arraySlotGrant core => Sys2Proof.Machine.execArraySlotGrant core s
  | .seqStreamStart block => Sys2Proof.Machine.execSeqStreamStart block s
  | .seqFetch block => Sys2Proof.Machine.execSeqFetch block s
  | .stochasticSlotGrant core => Sys2Proof.Machine.execStochasticSlotGrant core s
  | .stochasticRequestComplete block => Sys2Proof.Machine.execStochasticRequestComplete block s
  | .dpsetEffect setting => Sys2Proof.Machine.execDpsetEffect setting s
  | .trapTaken strand => Sys2Proof.Machine.execTrapTaken strand s
  | .gangRelaunch gang => Sys2Proof.Machine.execGangRelaunch gang s
  | .sliceExpiry cluster slot => Sys2Proof.Machine.execSliceExpiry cluster slot s
  | .preemptionDone cluster slot => Sys2Proof.Machine.execPreemptionDone cluster slot s
  | .syscallAppend strand slot => Sys2Proof.Machine.execSyscallAppend strand slot s
  | .serviceReply queue entry => Sys2Proof.Machine.execServiceReply queue entry s
  | .collectiveComplete block number gone => Sys2Proof.Machine.execCollectiveComplete block number gone s
  | .notifyWrite queue value => Sys2Proof.Machine.execNotifyWrite queue value s
  | .packetAccept queue => Sys2Proof.Machine.execPacketAccept queue s
  | .launchStart launch => Sys2Proof.Machine.execLaunchStart launch s
  | .placementReserve unit launch cores => Sys2Proof.Machine.execPlacementReserve unit launch cores s
  | .placementCommit unit tag => Sys2Proof.Machine.execPlacementCommit unit tag s
  | .placementRetry unit => Sys2Proof.Machine.execPlacementRetry unit s
  | .pinRelease tag => Sys2Proof.Machine.execPinRelease tag s
  | .launchComplete launch => Sys2Proof.Machine.execLaunchComplete launch s
  | .heldEventWrite => Sys2Proof.Machine.execHeldEventWrite s
  | .haltStrand operand => Sys2Proof.Machine.execHaltStrand operand s
  | .releaseStrand operand => Sys2Proof.Machine.execReleaseStrand operand s
  | .resumeStrand operand => Sys2Proof.Machine.execResumeStrand operand s
  | .killGang operand => Sys2Proof.Machine.execKillGang operand s
  | .preemptSlot operand => Sys2Proof.Machine.execPreemptSlot operand s
  | .resumeSavedGang operand cores => Sys2Proof.Machine.execResumeSavedGang operand cores s
  | .takeCoreOutOfService operand => Sys2Proof.Machine.execTakeCoreOutOfService operand s
  | .abortQueue operand => Sys2Proof.Machine.execAbortQueue operand s
  | .checkpoint operand => Sys2Proof.Machine.execCheckpoint operand s
  | .attest operand => Sys2Proof.Machine.execAttest operand s
  | .refusedCommand op operand => Sys2Proof.Machine.execRefusedCommand op operand s
  | .controlRegisterWrite place write => Sys2Proof.Machine.execControlRegisterWrite place write s
  | .hostAccess addr write => Sys2Proof.Machine.execHostAccess addr write s
  | .hartAccess hart addr write acquire release => Sys2Proof.Machine.execHartAccess hart addr write acquire release s
  | .tractTeardown tract => Sys2Proof.Machine.execTractTeardown tract s
  | .teardownReport tract => Sys2Proof.Machine.execTeardownReport tract s
  | .patrolScrub granule bad => Sys2Proof.Machine.execPatrolScrub granule bad s
  | .busBeatError core group wrong words => Sys2Proof.Machine.execBusBeatError core group wrong words s
  | .sensorSample core sensor reading estimate busier => Sys2Proof.Machine.execSensorSample core sensor reading estimate busier s
  | .powerHoldStep power enough => Sys2Proof.Machine.execPowerHoldStep power enough s
  | .thermalStop core sensor => Sys2Proof.Machine.execThermalStop core sensor s
  | .packageReset => Sys2Proof.Machine.execPackageReset s
  | .packageBoot slots found => Sys2Proof.Machine.execPackageBoot slots found s
  | .recoveryImageWrite image => Sys2Proof.Machine.execRecoveryImageWrite image s
  | .bypassLoadDelivery flight lot => Sys2Proof.Machine.execBypassLoadDelivery flight lot s
  | .checkpointWritesComplete => Sys2Proof.Machine.execCheckpointWritesComplete s

end Sys2Proof.Machine
end

