-- ==== Sys2Proof/Machine/Step.lean ====
section
/-!
DEFINITION. One step of the package, and the placing of one instruction where the next step runs it.
-/
namespace Sys2Proof.Machine

/-- One step: time advances, the agenda or the arbiter names what happens, and that happens. -/
def step (s : State) : Host.Outcome State Fault Refusal :=
  let p := s.nextMove
  match p.1 with
  | .run i => exec i p.2
  | .bad e => .next (p.2.raiseBad e)
  | .release => .next p.2.releaseHold
  | .idle => .next p.2

/-- `s` with the instruction whose bits are `w` stored where the next step fetches its word. -/
def State.withFetchWord (s : State) (nbits w : Nat) : State := s.placeWord nbits w

end Sys2Proof.Machine
end

