-- ==== Sys2Proof/Safety.lean ====
section
/-!
DEFINITION. What a good state is and what a safe step is, and the other terms that statements use.
-/
namespace Sys2Proof.Machine

/-- The bytes of HBM4E are in their one canonical form. -/
abbrev State.memWf (s : State) : Prop := Tbl.sorted s.mem = true ∧ Tbl.noDefault Config.unlistedByte s.mem = true

/-- A step ends in a next state. -/
abbrev State.goesOn (s : State) : Prop := ∃ t, step s = .next t

/-- R38: the fragment whose turn it is issues `i` with the context `c`, and its operand codes and TYPE are legal. -/
abbrev Issued (i : Instr) (s : State) (c : Ctx) : Prop :=
  s.ctx i = some c ∧ codesOk c.st c.f i = true ∧ typeOk i c.type = true

/-- The bits of a register or pair. -/
def regBits (wide : Bool) : Nat := if wide then 64 else 32

/-- What lane `L` of the register or pair `d` of strand `k` holds. -/
def State.laneOf (s : State) (k : Nat) (wide : Bool) (d : BitVec 8) (L : Nat) : Option Nat :=
  (s.strand k).map (fun st => (st.regs wide d.toNat).at L)

/-- `i` completes, and lane `L` of D then holds `x`. -/
def Results (i : Instr) (s : State) (wide : Bool) (d : BitVec 8) (L x : Nat) : Prop :=
  ∃ t, exec i s = .next t ∧ t.laneOf s.cur wide d L = some x

/-- Two states that differ in strand `k` at most. -/
def State.onlyStrand (s t : State) (k : Nat) : Prop :=
  { t with strands := s.strands } = s ∧ ∀ j, j ≠ k → t.strand j = s.strand j

/-- `int_fit` of R136, on an exact integer. -/
def fitted (sat signed : Bool) (w : Nat) (x : Int) : Int :=
  if !sat then x % 2 ^ w
  else if signed then min (max x (-(2 ^ (w - 1)))) (2 ^ (w - 1) - 1) % 2 ^ w
  else min (max x 0) (2 ^ w - 1)

/-- The words whose whole effect is a result in D, or in the registers from D, and at most the latch of the pipe, p15 and the
generators (05 R132 to R146, 03 R63 to R67, 04 R101). -/
def registerWord (i : Instr) : Bool :=
  match i with
  | .getmode .. | .mov .. | .lil .. | .lih .. | .sel .. | .add .. | .addc .. | .sub .. | .subb .. | .mul .. | .mulh .. | .mad ..
  | .abs .. | .neg .. | .min .. | .max .. | .lea .. | .and .. | .or .. | .xor .. | .andn .. | .not .. | .shl .. | .shr .. | .sar ..
  | .rotl .. | .bfx .. | .bfi .. | .clz .. | .ctz .. | .popc .. | .brev .. | .fadd .. | .fsub .. | .fmul .. | .ffma .. | .fmin ..
  | .fmax .. | .fminp .. | .fmaxp .. | .fabs .. | .fneg .. | .frnd .. | .fcls .. | .fscl .. | .fdot4 .. | .p2v .. | .shfl .. | .rot ..
  | .vote .. | .lanes .. | .getfmt .. | .cvt .. | .nfpk .. | .nfupk .. => true
  | _ => false

/-- R126, R101: the lanes of its destination that a word of `registerWord` writes: the active ones, and for `getmode` and `sel`, which no
guard holds back, those of the fragment that it is issued for. -/
def Ctx.written (c : Ctx) (i : Instr) : Mask :=
  match i, c.f.only with
  | .getmode _, _ => c.f.mask
  | .sel .., some o => c.f.mask &&& o
  | .sel .., none => c.f.mask
  | _, _ => c.act

/-- R118: the words of `registerWord` that write the latch of their pipe. -/
def latchWord (i : Instr) : Bool :=
  match i with
  | .getmode _ | .nfupk .. => false
  | _ => registerWord i

/-- The registers from code `d` that a destination operand names under the MODE of the fragment (R17). -/
def Ctx.destCount (c : Ctx) (r : Role) : Nat :=
  Role.count c.wide (c.type == 6 || c.type == 7) (packLen c.f) r

/-- R29: the targets of the lanes of `m` pass their checks, which may fill translations; the state after them. -/
def Ctx.targetsPass (c : Ctx) (m : Mask) (t : Nat → DWord) (s1 : State) : Prop :=
  c.s.checkTargets (c.st.agent c.s c.sid) m t = (s1, []) ∧ s1.strand c.sid = some c.st

/-- What fragment slot `slot` of strand `k` holds. -/
def State.fragOf (s : State) (k : Nat) (slot : Bool) : Option Frag := (s.strand k).bind (fun st => st.frag slot)

/-- R31, R24: a fragment that holds nothing, and whose clause is to be fetched and checked again. -/
def Frag.unchecked (f : Frag) : Frag :=
  if f.started then { f with clause := [], started := false, resumed := true, claims := 0 } else { f with clause := [] }

/-- R103, R30: a fragment that has left its clause for `t`. -/
def Frag.went (f : Frag) (t : DWord) : Frag := { f.atHeader t with hold := .none }

/-- The destination registers of a word in flight are all held by a strand (R116). -/
def Strand.writable (st : Strand) (f : Flight) : Prop := ∀ n ∈ f.dests, n < 192 → st.granules.getLsbD (n / 8) = true

/-- The word of `c` goes into flight as `fl`, and its fragment goes on: the state after. -/
def State.flew (s : State) (c : Ctx) (fl : Flight) (t : State) : Prop :=
  t.flights = s.flights ++ [fl] ∧ t.fragOf s.cur s.curSlot = some c.f.next ∧ t.mem = s.mem ∧ t.blocks = s.blocks ∧
    fl.strand = s.cur ∧ fl.id = s.nextFlight

/-- The bytes of a lane's access: its list of addresses, as a value lowest address first (R4). -/
def State.valueAt (s : State) (as : List Nat) : Nat := bytesValue (as.map s.byte)

/-- A word in flight of which one request is left, and nothing else to wait for. -/
def Flight.lastReq (f : Flight) (r : Req) : Prop :=
  f.reqs = [r] ∧ f.localL = 0 ∧ f.gangL = 0 ∧ f.xlatL = 0 ∧ f.bad = [] ∧ f.first = 0

/-- The words in flight hold the strand's fragment in a holding word: the strand's other parts are as before. -/
def State.holds (s : State) (t : State) (h : Hold) : Prop :=
  t.mem = s.mem ∧ (t.fragOf s.cur s.curSlot).map Frag.hold = some h

/-- R348, R425: the sequencer of the block whose turn it is runs a stream, and may perform a word. -/
def State.seqRuns (s : State) (b : Block) (r : Stream) : Prop :=
  s.block s.cur = some b ∧ b.seq.running = some r ∧ b.seq.halt = none ∧ b.seq.aborting = none ∧ s.board.stopped = false ∧
    s.seqGoesOn s.cur r = true

/-- R344: a stream whose word has ended, and which goes on at `spc`. -/
def Stream.went (r : Stream) (spc : DWord) : Stream :=
  { r with ready := none, busy := false, depth := 0, row := 0, col := 0, reported := [], arrived := none, waiting := false, spc := spc }

/-- The stream that runs in a block. -/
def State.streamOf (s : State) (k : Nat) : Option Stream := (s.block k).bind (fun b => b.seq.running)

/-- The sequence number of a block's sequencer. -/
def State.seqnoOf (s : State) (k : Nat) : Option Word := (s.block k).map (fun b => b.seq.seqno)

/-- R379, R381: the streams that a request names lie below ZCOUNT, and each lane's are as long as a block. -/
def Ctx.streamsOk (c : Ctx) (b : Block) (l : List (Bool × BitVec 6)) : Prop :=
  (∀ p ∈ l, b.zOk c.act p.1 p.2 = true) ∧
    ∀ p ∈ l, ∀ L, L < 32 → Mask.has c.act L = true → (b.stoch.reg (zAt p.1 p.2 L)).len = lenCode b.stoch.lb

end Sys2Proof.Machine
end

