-- ==== Sys2Proof/Certificates/Slice0/Obligations.lean ====
section
/-!
DEFINITION. The statements for the provers.  Each docstring names the rules of spec/ that it formalises.
-/
open Sys2Proof Sys2Proof.Machine

/-- 05 R136: every element of the nine integer words is the exact result, fitted. MODE.SAT saturates; `mulh`, `min` and `max`
need no fit. 05 R137: `addc` and `subb` take the carry of a lane from p15 and leave it there. -/
def Obligations.IntegerWordsAndCarryChains : Prop :=
  (∀ (s : State) (c : Ctx) (d a b : BitVec 8) (L e : Nat), L < 32 → e < typeCount c.type → Mask.has c.act L = true →
    let w := typeWidth c.type
    let sg := typeSigned c.type
    let sat := modeSat c.f.mode
    let x := elemInt sg w (elem w ((c.source 1 c.wide a).at L) e)
    let y := elemInt sg w (elem w ((c.source 2 c.wide b).at L) e)
    let z := elemInt sg w (elem w ((c.st.regs c.wide d.toNat).at L) e)
    ∀ p ∈ [(Instr.add d a b, fitted sat sg w (x + y)), (.sub d a b, fitted sat sg w (x - y)), (.mul d a b, fitted sat sg w (x * y)),
           (.mad d a b, fitted sat sg w (z + x * y)), (.mulh d a b, x * y / 2 ^ w % 2 ^ w),
           (.abs d a, if sg then fitted sat sg w (x.natAbs : Int) else x), (.neg d a, fitted sat sg w (-x)),
           (.min d a b, min x y % 2 ^ w), (.max d a b, max x y % 2 ^ w)],
      Issued p.1 s c → ∃ r, Results p.1 s c.wide d L r ∧ (elem w r e : Int) = p.2) ∧
  (∀ (s : State) (c : Ctx) (d a b : BitVec 8) (L : Nat), L < 32 → Mask.has c.act L = true →
    let w := regBits c.wide
    let x := (c.source 1 c.wide a).at L % 2 ^ w
    let y := (c.source 2 c.wide b).at L % 2 ^ w
    let k := if Mask.has (c.st.pred 15) L then 1 else 0
    (Issued (.addc d a b) s c → ∃ t, exec (.addc d a b) s = .next t ∧ t.laneOf s.cur c.wide d L = some ((x + y + k) % 2 ^ w) ∧
      (t.strand s.cur).map (fun st => Mask.has (st.pred 15) L) = some (decide (2 ^ w ≤ x + y + k))) ∧
    (Issued (.subb d a b) s c → ∃ t r, exec (.subb d a b) s = .next t ∧ t.laneOf s.cur c.wide d L = some r ∧
      (r : Int) = ((x : Int) - y - k) % 2 ^ w ∧
      (t.strand s.cur).map (fun st => Mask.has (st.pred 15) L) = some (decide (x < y + k))))

/-- 05 R138: the logic words act on whole registers or pairs. 05 R149, R150: `icmp`, `fcmp` and the predicate words set the
active bits of their predicate, and no other. -/
def Obligations.LogicComparesAndPredicates : Prop :=
  (∀ (s : State) (c : Ctx) (d a b : BitVec 8) (L : Nat), L < 32 → Mask.has c.act L = true →
    let w := regBits c.wide
    let x := (c.source 1 c.wide a).at L % 2 ^ w
    let y := (c.source 2 c.wide b).at L % 2 ^ w
    ∀ p ∈ [(Instr.and d a b, x &&& y), (.or d a b, x ||| y), (.xor d a b, x ^^^ y), (.andn d a b, x &&& (2 ^ w - 1 - y)),
           (.not d a, 2 ^ w - 1 - x)],
      Issued p.1 s c → Results p.1 s c.wide d L p.2) ∧
  (∀ (s : State) (c : Ctx) (k p : BitVec 4) (a b : BitVec 8) (d n m : BitVec 4) (L : Nat), L < 32 →
    let bit (q : BitVec 4) (cond : Bool) (t : State) : Prop :=
      s.onlyStrand t s.cur ∧
      (t.strand s.cur).map (fun st => Mask.has (st.pred q.toNat) L) =
        some (if q = 0 then true else if Mask.has c.act L then cond else Mask.has (c.st.pred q.toNat) L)
    let w := regBits c.wide
    let sg := typeSigned c.type
    let x := (c.source 1 c.wide a).at L
    let y := (c.source 2 c.wide b).at L
    (∀ r, icmpCond k.toNat (elemInt sg w x) (elemInt sg w y) = some r → Issued (.icmp k p a b) s c →
      ∃ t, exec (.icmp k p a b) s = .next t ∧ bit p r t) ∧
    (∀ r, fcmpCond k.toNat ((typeFmt c.type).decode x) ((typeFmt c.type).decode y) = some r → Issued (.fcmp k p a b) s c →
      ∃ t, exec (.fcmp k p a b) s = .next t ∧ bit p r t) ∧
    (Issued (.pand d n m) s c → ∃ t, exec (.pand d n m) s = .next t ∧
      bit d (Mask.has (c.st.pred n.toNat) L && Mask.has (c.st.pred m.toNat) L) t) ∧
    (Issued (.por d n m) s c → ∃ t, exec (.por d n m) s = .next t ∧
      bit d (Mask.has (c.st.pred n.toNat) L || Mask.has (c.st.pred m.toNat) L) t) ∧
    (Issued (.pxor d n m) s c → ∃ t, exec (.pxor d n m) s = .next t ∧
      bit d (Mask.has (c.st.pred n.toNat) L ^^ Mask.has (c.st.pred m.toNat) L) t) ∧
    (Issued (.v2p p a) s c → ∃ t, exec (.v2p p a) s = .next t ∧ bit p (((c.source 1 false a).at L).testBit L) t))

/-- 05 R139: the shifts act on each element, by the matching element of B modulo the width. -/
def Obligations.ShiftsActOnEachElement : Prop :=
  ∀ (s : State) (c : Ctx) (d a b : BitVec 8) (L e : Nat), L < 32 → e < typeCount c.type → Mask.has c.act L = true →
    let w := typeWidth c.type
    let x := elem w ((c.source 1 c.wide a).at L) e
    let n := elem w ((c.source 2 c.wide b).at L) e % w
    ∀ p ∈ [(Instr.shl d a b, ((x * 2 ^ n % 2 ^ w : Nat) : Int)), (.shr d a b, ((x / 2 ^ n : Nat) : Int)),
           (.sar d a b, toSigned w x / 2 ^ n % 2 ^ w), (.rotl d a b, ((x * 2 ^ n % 2 ^ w + x / 2 ^ (w - n) : Nat) : Int))],
      Issued p.1 s c → ∃ r, Results p.1 s c.wide d L r ∧ (elem w r e : Int) = p.2

/-- 05 R140: `bfx` and `bfi`, with the position and the length as B gives them. 05 R141: the counting words, on each element. -/
def Obligations.BitFieldAndCountingWords : Prop :=
  (∀ (s : State) (c : Ctx) (d a b : BitVec 8) (L : Nat), L < 32 → Mask.has c.act L = true →
    let w := regBits c.wide
    let x := (c.source 1 c.wide a).at L % 2 ^ w
    let y := (c.source 2 false b).at L
    let z := (c.st.regs c.wide d.toNat).at L % 2 ^ w
    let pos := y % 64 % w
    let len := if y / 256 % w = 0 then w else y / 256 % w
    let m := (2 ^ len - 1) * 2 ^ pos % 2 ^ w
    (Issued (.bfx d a b) s c → ∃ r, Results (.bfx d a b) s c.wide d L r ∧
      (r : Int) = if typeSigned c.type then toSigned len ((toSigned w x / 2 ^ pos % 2 ^ len).toNat) % 2 ^ w
        else ((x / 2 ^ pos % 2 ^ len : Nat) : Int)) ∧
    (Issued (.bfi d a b) s c → Results (.bfi d a b) s c.wide d L ((z &&& (2 ^ w - 1 - m)) ||| (x * 2 ^ pos &&& m)))) ∧
  (∀ (s : State) (c : Ctx) (d a : BitVec 8) (L e : Nat), L < 32 → e < typeCount c.type → Mask.has c.act L = true →
    let w := typeWidth c.type
    let x := elem w ((c.source 1 c.wide a).at L) e
    (Issued (.clz d a) s c → ∃ r, Results (.clz d a) s c.wide d L r ∧
      if x = 0 then elem w r e = w else elem w r e < w ∧ 2 ^ (w - 1 - elem w r e) ≤ x ∧ x < 2 ^ (w - elem w r e)) ∧
    (Issued (.ctz d a) s c → ∃ r, Results (.ctz d a) s c.wide d L r ∧
      if x = 0 then elem w r e = w else elem w r e < w ∧ x % 2 ^ elem w r e = 0 ∧ x / 2 ^ elem w r e % 2 = 1) ∧
    (Issued (.popc d a) s c → ∃ r, Results (.popc d a) s c.wide d L r ∧
      elem w r e = ((List.range w).filter (fun j => x.testBit j)).length) ∧
    (Issued (.brev d a) s c → ∃ r, Results (.brev d a) s c.wide d L r ∧
      ∀ j, j < w → (elem w r e).testBit (w - 1 - j) = x.testBit j))

/-- 05 R142: `lea` adds the scaled index, extended as TYPE says, to the base pair. -/
def Obligations.LeaAddsTheScaledIndex : Prop :=
  ∀ (s : State) (c : Ctx) (d a b : BitVec 8) (L : Nat), L < 32 → Mask.has c.act L = true → Issued (.lea d a b) s c →
    let base := (c.source 1 true a).at L
    let i := (c.source 2 (c.type == 6 || c.type == 7) b).at L
    let off : Int :=
      if c.type = 6 ∨ c.type = 7 then (i : Int)
      else if c.type = 0 ∨ c.type = 2 ∨ c.type = 4 then toSigned 32 i
      else ((i % 2 ^ 32 : Nat) : Int)
    ∃ r, Results (.lea d a b) s true d L r ∧ (r : Int) = ((base : Int) + off * 2 ^ modeLeaScale c.f.mode) % 2 ^ 64

/-- 05 R132: the moves. `sel` writes every lane of the fragment's mask, by the guard. 05 R133, R134, R135: the words that
exchange values between lanes or tell of them. -/
def Obligations.MovesAndLaneExchange : Prop :=
  (∀ (s : State) (c : Ctx) (d a b : BitVec 8) (i : BitVec 16) (L : Nat), L < 32 →
    let w := regBits c.wide
    (Mask.has c.act L = true →
      (Issued (.mov d a) s c → Results (.mov d a) s c.wide d L ((c.source 1 c.wide a).at L % 2 ^ w)) ∧
      (Issued (.lil d i) s c → Results (.lil d i) s false d L i.toNat) ∧
      (Issued (.lih d i) s c →
        Results (.lih d i) s false d L (i.toNat * 65536 + (c.st.regs false d.toNat).at L % 65536))) ∧
    (Mask.has c.f.mask L = true → c.f.only = none → Issued (.sel d a b) s c →
      Results (.sel d a b) s c.wide d L
        ((if Mask.has (guardMask c.st c.f.mode) L then (c.source 1 c.wide a).at L else (c.source 2 c.wide b).at L) % 2 ^ w))) ∧
  (∀ (s : State) (c : Ctx) (d a b k : BitVec 8) (n : BitVec 4) (L F : Nat), L < 32 → Mask.has c.act L = true → c.act.lowest = some F →
    let w := regBits c.wide
    let va := c.source 1 c.wide a
    let one := c.source 1 false a
    let set := Mask.ofPred (fun j => Mask.has c.act j && one.at j != 0)
    (Issued (.shfl d a b) s c → Results (.shfl d a b) s c.wide d L (va.at ((c.source 2 false b).at L % 32) % 2 ^ w)) ∧
    (Issued (.rot d a b) s c → Results (.rot d a b) s c.wide d L (va.at ((L + (c.source 2 false b).at F % 32) % 32) % 2 ^ w)) ∧
    (Issued (.vote d a k) s c → ∃ r, Results (.vote d a k) s false d L r ∧
      (k = 0 → r = set.toNat) ∧ (k = 1 → r = if set = 0 then 0 else 1) ∧ (k = 2 → r = if set = c.act then 1 else 0) ∧
      (k = 3 → r ≤ 1 ∧ (r = 1 ↔ ∀ j, j < 32 → Mask.has c.act j = true → one.at j = one.at F))) ∧
    (Issued (.lanes d k) s c → ∃ r, Results (.lanes d k) s false d L r ∧
      (k = 0 → r = Mask.count c.act) ∧ (k = 1 → r = Mask.count (c.act &&& BitVec.ofNat 32 (2 ^ L - 1))) ∧ (k = 2 → r = F) ∧
      (k = 3 → Mask.has c.act r = true ∧ ∀ j, j < 32 → Mask.has c.act j = true → j ≤ r)) ∧
    (Issued (.p2v d n) s c → Results (.p2v d n) s false d L (c.st.pred n.toNat).toNat))

/-- 04 R99 to R101, R108: `setmode` and `setmodeh` write the low or the high half of the issuing fragment's MODE, which its next
word runs under, and refuse the reserved values of R100; `getmode` writes MODE in the lanes of the fragment's mask, and no latch;
`nop` changes nothing. Every other part of the strand stays, but for the place of the next word and SIG (R443), and so does all
of the machine outside the strand. -/
def Obligations.ModeWordsActOnTheirFragment : Prop :=
  ∀ (s : State) (c : Ctx) (i : BitVec 16) (d : BitVec 8),
    let quiet (st : Strand) : Prop := { st.setFrag s.curSlot (c.st.frag s.curSlot) with sig := c.st.sig } = c.st
    let mode (hi lo : BitVec 16) (t : State) : Prop :=
      s.onlyStrand t s.cur ∧ ∃ st m, t.strand s.cur = some st ∧ quiet st ∧ st.frag s.curSlot = some { c.f.next with mode := m } ∧
        BitVec.extractLsb' 16 16 m = hi ∧ BitVec.extractLsb' 0 16 m = lo
    let high := BitVec.extractLsb' 16 16 c.f.mode
    let low := BitVec.extractLsb' 0 16 c.f.mode
    let reserved := 12 ≤ bits i.toNat 3 0 ∨ 6 ≤ bits i.toNat 6 4 ∨ bits i.toNat 14 13 = 3
    let reservedHigh := bits i.toNat 7 6 ≠ 0 ∨ bits i.toNat 15 11 ≠ 0
    (s.ctx (.setmode i) = some c → ¬reserved → ∃ t, exec (.setmode i) s = .next t ∧ mode high i t) ∧
    (s.ctx (.setmodeh i) = some c → ¬reservedHigh → ∃ t, exec (.setmodeh i) s = .next t ∧ mode i low t) ∧
    (s.ctx (.setmode i) = some c → reserved → exec (.setmode i) s = .next (c.raiseWide .illegalOperand 0)) ∧
    (s.ctx (.setmodeh i) = some c → reservedHigh → exec (.setmodeh i) s = .next (c.raiseWide .illegalOperand 0)) ∧
    (Issued (.getmode d) s c → ∃ t st, exec (.getmode d) s = .next t ∧ s.onlyStrand t s.cur ∧ t.strand s.cur = some st ∧
      st.frag s.curSlot = some c.f.next ∧ st.frag (!s.curSlot) = c.st.frag (!s.curSlot) ∧ st.p = c.st.p ∧
      (st.l0, st.l1) = (c.st.l0, c.st.l1) ∧ (∀ n, n ≠ d.toNat → st.reg n = c.st.reg n) ∧
      ∀ L, L < 32 → (st.regs false d.toNat).at L = if Mask.has c.f.mask L then c.f.mode.toNat else (c.st.regs false d.toNat).at L) ∧
    (s.ctx .nop = some c → ∃ t, exec .nop s = .next t ∧ mode high low t)

/-- 05 R143, R131, 03 R44, R49, R50: the rounding words form the exact result of each element and round it once. Under RND 5 each
element takes one draw of its lane, in ascending order; otherwise no generator moves. -/
def Obligations.FloatWordsRoundTheExactResultOnce : Prop :=
  ∀ (s : State) (c : Ctx) (d a b : BitVec 8) (L e : Nat), L < 32 → e < typeCount c.type → Mask.has c.act L = true → c.rnd ≤ 5 →
    let sr (j : Nat) : Word := if c.rnd = 5 then (List.range j).foldl (fun x _ => srStep x) (c.st.srAt L) else c.st.srAt L
    let draw : Nat := if c.rnd = 5 then srDraw (sr e) else 0
    let w := typeWidth c.type
    let f := typeFmt c.type
    let val (x : Nat) : Exact := f.decode (elem w x e)
    let x := val ((c.source 1 c.wide a).at L)
    let y := val ((c.source 2 c.wide b).at L)
    let z := val ((c.st.regs c.wide d.toNat).at L)
    let down := c.rnd == 3
    let n := toSigned w (elem w ((broadcast c.f.mode c.act 2 (c.st.source true (fsclType c.type) c.wide b.toNat)).at L) e)
    ∀ p ∈ [(Instr.fadd d a b, x.add down y), (.fsub d a b, x.add down y.neg), (.fmul d a b, x.mul y), (.ffma d a b, (x.mul y).add down z),
           (.frnd d a, x.integral c.rnd draw), (.fscl d a b, x.scale n)],
      Issued p.1 s c → ∃ t r, exec p.1 s = .next t ∧ t.laneOf s.cur c.wide d L = some r ∧
        elem w r e = f.round c.rnd false draw p.2 % 2 ^ w ∧
        (t.strand s.cur).map (fun st => st.srAt L) = some (sr (typeCount c.type))

/-- 05 R144, R145: the float words that select, change a sign or classify, and never round. -/
def Obligations.FloatSelectionKeepsBitPatterns : Prop :=
  ∀ (s : State) (c : Ctx) (d a b : BitVec 8) (L e : Nat), L < 32 → e < typeCount c.type → Mask.has c.act L = true →
    let w := typeWidth c.type
    let f := typeFmt c.type
    let x := elem w ((c.source 1 c.wide a).at L) e
    let y := elem w ((c.source 2 c.wide b).at L) e
    let nx := f.decode x = .nan
    let ny := f.decode y = .nan
    let lt := Exact.lt (f.decode y) (f.decode x) = true
    (∀ p ∈ [(Instr.fmin d a b, true), (.fmax d a b, false)], Issued p.1 s c → ∃ r, Results p.1 s c.wide d L r ∧
      (nx → ny → elem w r e = f.nanCode % 2 ^ w) ∧ (nx → ¬ny → elem w r e = y) ∧ (¬nx → ny → elem w r e = x) ∧
      (¬nx → ¬ny → lt → elem w r e = if p.2 then y else x) ∧ (¬nx → ¬ny → ¬lt → elem w r e = if p.2 then x else y)) ∧
    (∀ p ∈ [(Instr.fminp d a b, true), (.fmaxp d a b, false)], Issued p.1 s c → ∃ r, Results p.1 s c.wide d L r ∧
      (nx ∨ ny → elem w r e = f.nanCode % 2 ^ w) ∧
      (¬nx → ¬ny → lt → elem w r e = if p.2 then y else x) ∧ (¬nx → ¬ny → ¬lt → elem w r e = if p.2 then x else y)) ∧
    (Issued (.fabs d a) s c → ∃ r, Results (.fabs d a) s c.wide d L r ∧
      ∀ j, j < w → (elem w r e).testBit j = (x.testBit j && j != w - 1)) ∧
    (Issued (.fneg d a) s c → ∃ r, Results (.fneg d a) s c.wide d L r ∧
      ∀ j, j < w → (elem w r e).testBit j = (x.testBit j ^^ j == w - 1)) ∧
    (Issued (.fcls d a) s c → ∃ r k, Results (.fcls d a) s c.wide d L r ∧ elem w r e = 2 ^ k ∧ k ≤ 9 ∧
      (k = 3 ↔ x = 2 ^ (w - 1)) ∧ (k = 4 ↔ x = 0) ∧ (k = 8 ∨ k = 9 ↔ nx))

/-- 05 R146, 03 R65 to R67, R49, R50: `fdot4` rounds the exact sum of its four products and D once, and signs a zero sum by R58;
`cvt` reads each element as its source format gives it and rounds it into the destination's, an integer from an integer being
fitted (R48); `nfpk` rounds the elements of a run into the slots of a word, and `nfupk` writes each as the binary32 value that it
is. Under RND 5 each element takes one draw of its lane, in ascending order; otherwise no generator moves. A pairing that R65
does not list is refused. -/
def Obligations.ConversionsRoundEachLane : Prop :=
  ∀ (s : State) (c : Ctx) (d a b : BitVec 8) (t u : BitVec 4) (n : BitVec 2) (L : Nat), L < 32 → Mask.has c.act L = true → c.rnd ≤ 5 →
    let sr (j : Nat) : Word := if c.rnd = 5 then (List.range j).foldl (fun x _ => srStep x) (c.st.srAt L) else c.st.srAt L
    let draw (e : Nat) : Nat := if c.rnd = 5 then srDraw (sr e) else 0
    let sat := modeSat c.f.mode
    let result (i : Instr) (wide : Bool) (drawn : Nat) (ok : Nat → Prop) : Prop :=
      ∃ x st, exec i s = .next x ∧ s.onlyStrand x s.cur ∧ x.strand s.cur = some st ∧ ok ((st.regs wide d.toNat).at L) ∧
        st.srAt L = sr drawn
    let down := c.rnd == 3
    let product (j : Nat) : Exact := (narrowValue (c.f.q.getD 0 0) (elem 8 ((c.source 1 false a).at L) j)).mul
      (narrowValue (c.f.q.getD 1 0) (elem 8 ((c.source 2 false b).at L) j))
    let addend := Fmt.f32.decode ((c.st.regs false d.toNat).at L)
    let sum := ((((product 0).add down (product 1)).add down (product 2)).add down (product 3)).add down addend
    let zero (neg : Bool) (x : Exact) : Prop := ∃ e h, x = .fin neg 0 e h
    let allNegative := (∀ j, j < 4 → zero true (product j)) ∧ zero true addend
    (Issued (.fdot4 d a b) s c → result (.fdot4 d a b) false 1 (fun r =>
      ((∀ neg, ¬zero neg sum) → r = Fmt.f32.round c.rnd false (draw 0) sum % 2 ^ 32) ∧
      (allNegative → r = 2 ^ 31) ∧
      (∀ neg, zero neg sum → ¬allNegative → r = if c.rnd = 3 then 2 ^ 31 else 0))) ∧
    (let src := c.f.cvtFmt u
     let dst := c.f.cvtFmt t
     let spread := src.count = 1 ∧ dst.count = 2 ∧ src.is64 = false
     let gather := src.count = 2 ∧ dst.count = 1 ∧ dst.is64 = false
     let wideD := dst.is64 || (src.count == 2 && dst.count == 1)
     let from_ (e : Nat) := elem src.width ((c.source 1 (src.is64 || (src.count == 1 && dst.count == 2)) a).at L) e
     let value (e : Nat) : Exact := match src with
       | .lane k => if typeFloat k then (typeFmt k).decode (from_ e) else .int (elemInt (typeSigned k) (typeWidth k) (from_ e))
       | .narrow q => narrowValue q (from_ e)
     let count := max src.count dst.count
     (s.ctx (.cvt d a t u) = some c → src.count ≠ dst.count → ¬spread → ¬gather →
       exec (.cvt d a t u) s = .next (c.raiseWide .illegalOperand 0)) ∧
     (src.count = dst.count ∨ spread ∨ gather → Issued (.cvt d a t u) s c → result (.cvt d a t u) wideD count (fun r =>
       ∀ e, e < count → let y := elem dst.width r e
         (∀ q, dst = .narrow q → y = narrowRound q c.rnd sat (draw e) (value e) % 2 ^ 32) ∧
         (∀ k, dst = .lane k → typeFloat k = true → y = (typeFmt k).round c.rnd sat (draw e) (value e) % 2 ^ typeWidth k) ∧
         (∀ k, dst = .lane k → typeFloat k = false → src.isInt = false →
           (y : Int) = roundInt (typeWidth k) (typeSigned k) c.rnd (draw e) (value e) % 2 ^ typeWidth k) ∧
         (∀ k m, dst = .lane k → src = .lane m → typeFloat k = false → typeFloat m = false →
           (y : Int) = fitted sat (typeSigned k) (typeWidth k) (elemInt (typeSigned m) (typeWidth m) (from_ e)))))) ∧
    (let q := c.f.q.getD n.toNat 0
     let k := packCount q
     (Issued (.nfpk d a n) s c → result (.nfpk d a n) false k (fun r =>
       r < 2 ^ 32 ∧ ∀ e, e < k → elem (32 / k) r e = narrowRound q c.rnd sat (draw e) (Fmt.f32.decode
         ((broadcast c.f.mode c.act 1 (c.st.regs false (a.toNat + e))).at L)) % 2 ^ (32 / k))) ∧
     (Issued (.nfupk d a n) s c → ∃ x st, exec (.nfupk d a n) s = .next x ∧ s.onlyStrand x s.cur ∧ x.strand s.cur = some st ∧
       st.srAt L = c.st.srAt L ∧ ∀ e, e < k → (st.regs false (d.toNat + e)).at L =
         Fmt.f32.round 0 false 0 (narrowValue q (elem (32 / k) ((c.source 1 false a).at L) e)) % 2 ^ 32))

/-- 03 R61 to R63, R68: the format registers of the issuing fragment and the generators. 05 R123, R125, R396: the special
registers. A write needs the kernel right where the register is protected. -/
def Obligations.FormatSeedAndSpecialRegisters : Prop :=
  (∀ (s : State) (c : Ctx) (d a : BitVec 8) (n : BitVec 2) (L : Nat),
    (∀ q, c.act.lowest = some L → q = BitVec.ofNat 32 ((c.source 1 false a).at L) → qValid q = true → Issued (.setfmt n a) s c →
      ∃ t st, exec (.setfmt n a) s = .next t ∧ s.onlyStrand t s.cur ∧ t.strand s.cur = some st ∧
        st.frag s.curSlot = some { c.f.next with q := c.f.q.set n.toNat q } ∧ st.frag (!s.curSlot) = c.st.frag (!s.curSlot)) ∧
    (∀ q, c.act.lowest = some L → q = BitVec.ofNat 32 ((c.source 1 false a).at L) → qValid q = false → Issued (.setfmt n a) s c →
      exec (.setfmt n a) s = .next (c.raiseWide .illegalOperand 0)) ∧
    (L < 32 → Mask.has c.act L = true → Issued (.getfmt d n) s c →
      Results (.getfmt d n) s false d L (c.f.q.getD n.toNat 0).toNat) ∧
    (L < 32 → Issued (.srseed a) s c → ∃ t st, exec (.srseed a) s = .next t ∧ s.onlyStrand t s.cur ∧ t.strand s.cur = some st ∧
      st.srAt L = if Mask.has c.act L then
          (if (c.source 1 false a).at L = 0 then 0x9E3779B9#32 ^^^ BitVec.ofNat 32 L else BitVec.ofNat 32 ((c.source 1 false a).at L))
        else c.st.srAt L)) ∧
  (∀ (s : State) (c : Ctx) (d a k : BitVec 8) (L : Nat),
    (L < 32 → Mask.has c.act L = true →
      ∀ p ∈ [(0#8, c.f.mask.toNat), (1#8, (c.f.mask &&& guardMask c.st c.f.mode).toNat), (2#8, c.st.strandId.toNat),
             (6#8, c.st.ident.toNat), (7#8, c.st.allotment * 2 ^ 24 + c.st.granules.toNat)],
        Issued (.rdsr d p.1) s c → Results (.rdsr d p.1) s false d L (p.2 % 2 ^ 32)) ∧
    (L < 32 → Mask.has c.act L = true →
      ∀ p ∈ [(3#8, c.st.gangInfo), (4#8, c.st.launchShape), (5#8, c.st.launchArg), (8#8, s.dclk), (9#8, (s.core (coreOf s.cur)).hintMiss),
             (10#8, c.st.ctxBase), (11#8, c.st.user0), (12#8, c.st.user1)],
        Issued (.rdsr d p.1) s c → Results (.rdsr d p.1) s true d L p.2.toNat) ∧
    (c.act.lowest = some L →
      let x : DWord := BitVec.ofNat 64 ((c.source 1 true a).at L)
      (c.st.rightKernel = true → Issued (.wrsr 9 a) s c → ∃ t, exec (.wrsr 9 a) s = .next t ∧ (t.core (coreOf s.cur)).hintMiss = x) ∧
      (c.st.rightKernel = true → Issued (.wrsr 10 a) s c → ∃ t, exec (.wrsr 10 a) s = .next t ∧
        (t.strand s.cur).map (fun st => st.ctxBase) = some (x &&& ~~~0xFFF#64)) ∧
      (Issued (.wrsr 11 a) s c → ∃ t, exec (.wrsr 11 a) s = .next t ∧ (t.strand s.cur).map (fun st => st.user0) = some x) ∧
      (Issued (.wrsr 12 a) s c → ∃ t, exec (.wrsr 12 a) s = .next t ∧ (t.strand s.cur).map (fun st => st.user1) = some x)) ∧
    (c.st.rightKernel = false → k = 9 ∨ k = 10 → Issued (.wrsr k a) s c → exec (.wrsr k a) s = .next (c.raiseWide .permission 0)))

/-- 05 R147, R148: a transcendental word goes into flight with the results of its issue, and its completion writes them in the
lanes that were active, and drops the word. -/
def Obligations.TranscendentalWordsWriteAtCompletion : Prop :=
  ∀ (s : State) (c : Ctx) (d a : BitVec 8), c.act ≠ 0 →
    let value (op : FloatOp) (L : Nat) : Nat := (floatLane op c.type c.rnd (c.st.srAt L) ((c.source 1 c.wide a).at L) 0 0).1
    (∀ p ∈ [(Instr.frcp d a, FloatOp.frcp), (.frsq d a, .frsq), (.fsqrt d a, .fsqrt), (.fex2 d a, .fex2), (.flg2 d a, .flg2),
            (.fsin d a, .fsin), (.fcos d a, .fcos)],
      Issued p.1 s c → ∃ t fl, exec p.1 s = .next t ∧ t.flights = s.flights ++ [fl] ∧ fl.op = .func ∧ fl.strand = s.cur ∧
        fl.mask = c.act ∧ fl.dst = d ∧ fl.wide = c.wide ∧ fl.flag = c.f.flagAt c.f.index ∧
        (∀ L, L < 32 → Lanes.at 0 (fl.got.getD 0 []) L = BitVec.ofNat 64 (value p.2 L)) ∧
        (t.strand s.cur).map (fun st => (st.v, st.o, st.p)) = some (c.st.v, c.st.o, c.st.p)) ∧
    (∀ (fl : Flight) (st : Strand) (L : Nat), s.flight fl.id = some fl → fl.op = .func → s.strand fl.strand = some st →
      L < 32 → Mask.has fl.mask L = true → (∀ n, n < (if fl.wide then 2 else 1) → st.granules.getLsbD ((fl.dst.toNat + n) / 8) = true ∨ 192 ≤ fl.dst.toNat + n) →
      (fl.got.getD 0 []).length = 32 →
      ∃ t, exec (.transcendentalComplete fl.id) s = .next t ∧ t.flight fl.id = none ∧
        t.laneOf fl.strand fl.wide fl.dst L = some ((Lanes.at 0 (fl.got.getD 0 []) L).toNat % 2 ^ regBits fl.wide))

/-- 05 R112 to R116: growing and shrinking the vector allotment, and the grant of a request. -/
def Obligations.AllotmentGrowsAndShrinks : Prop :=
  ∀ (s : State) (c : Ctx) (a b : BitVec 8),
    let need := granSet a b &&& ~~~c.st.granules
    (granCount c.st.granules + granCount need ≤ s.share (coreOf s.cur) c.st → need = 0 → Issued (.vgrow a b) s c →
      exec (.vgrow a b) s = .next (c.done c.st)) ∧
    (granCount c.st.granules + granCount need ≤ s.share (coreOf s.cur) c.st → need ≠ 0 → Issued (.vgrow a b) s c →
      ∃ t st, exec (.vgrow a b) s = .next t ∧ t.strand s.cur = some st ∧ st.frag s.curSlot = some { c.f with hold := .grow } ∧
        Tbl.get [] (t.core (coreOf s.cur)).growth (partOf s.cur) =
          (Tbl.get [] (s.core (coreOf s.cur)).growth (partOf s.cur)).filter (fun r => r.refill || r.strand != s.cur || r.slot != s.curSlot) ++
            [⟨s.cur, s.curSlot, need, s.dclk, false⟩]) ∧
    (s.share (coreOf s.cur) c.st < granCount c.st.granules + granCount need → Issued (.vgrow a b) s c →
      exec (.vgrow a b) s = .next (c.raiseWide .domain 0)) ∧
    (Issued (.vshrink a b) s c → ∃ t st, exec (.vshrink a b) s = .next t ∧ s.onlyStrand t s.cur ∧ t.strand s.cur = some st ∧
      st.granules = c.st.granules &&& ~~~granSet a b ∧
      ∀ n, n < 192 → st.reg n = if (granSet a b).getLsbD (n / 8) then Lanes.zero else c.st.reg n) ∧
    (∀ (core part : Nat) (r : GrowReq) (st : Strand), oldestReq (s.growQueue core part) = some r → r.refill = false → s.writesDue r = false →
      granCount r.need ≤ s.freeGranules core part → s.strand r.strand = some st → s.growWaits r = true → st.stopped = false →
      st.openFault = none →
      ∃ t, exec (.growthGrant core part) s = .next t ∧
        (t.strand r.strand).map (fun x => (x.granules, x.frag r.slot)) = some (st.granules ||| r.need, (st.frag r.slot).map Frag.next) ∧
        ∀ x n, t.strand r.strand = some x → n < 192 → x.reg n = if r.need.getLsbD (n / 8) then Lanes.zero else st.reg n) ∧
    (∀ (core part k : Nat) (r : GrowReq) (st : Strand), oldestReq (s.growQueue core part) = some r → s.reliefDue core part r = true →
      s.victim core part r = some (k, st) → s.strand k = some st → (s.flightsOf k).any (fun f => f.dests.any (· < 192)) = false →
      s.granuleFault st st.granules .write = none →
      ∃ t q, exec (.growthRelief core part) s = .next t ∧ (t.strand k).map (fun x => x.spilled) = some true ∧
        Tbl.get [] (t.core core).growth part = q ++ [⟨k, false, st.granules, s.dclk, true⟩]) ∧
    (∀ (k : Nat) (r : GrowReq) (st : Strand), oldestReq (s.growQueue (coreOf k) (partOf k)) = some r → r.refill = true → r.strand = k →
      s.strand k = some st → granCount r.need ≤ s.freeGranules (coreOf k) (partOf k) → s.granuleFault st r.need .read = none →
      ∃ t, exec (.spilledStrandRefill k) s = .next t ∧ (t.strand k).map (fun x => x.spilled) = some false)

/-- 04 R102 to R105, 02 R13, R29, R30: the control words, whose targets have passed. A fragment that arrives at its innermost
record leaves its lanes there, and the last arrival fuses them under the record's MODE and formats (R91). A branch of some lanes
splits them off with the next AGE (R87); where both slots are taken it spills the other fragment, if that has the lower AGE and does
not hold, and else the lanes that stay (R88). A split without a free entry, or whose access to the stack faults, raises (R94). -/
def Obligations.ControlWordsMoveFragments : Prop :=
  ∀ (s s1 : State) (c : Ctx) (h : BitVec 2) (p : BitVec 4) (sg : BitVec 1) (o : BitVec 16) (a d : BitVec 8),
    let t := target c.f.pc o
    let g := c.f.mask &&& (if sg = 0 then c.st.pred p.toNat else ~~~c.st.pred p.toNat)
    let there (u : DWord) (x : State) : Prop :=
      s1.onlyStrand x s.cur ∧ x.fragOf s.cur s.curSlot = some (c.f.went u) ∧ x.fragOf s.cur (!s.curSlot) = c.st.frag (!s.curSlot)
    let goes (i : Instr) (u : DWord) : Prop :=
      (c.st.atJoin (c.f.went u) = false → ∃ x, exec i s = .next x ∧ there u x) ∧
      (∀ (e : Nat) (mask arr : Mask) (mode : Word) (q : Lanes Word) (parent : Option Nat), c.f.join = some e →
        Tbl.find c.st.stack e = some (.join u mask arr mode q parent) →
        let fused : Frag := { c.f.went u with mask := mask, mode := mode, q := q, join := parent }
        (arr ||| c.f.mask ≠ mask → ∃ x st, exec i s = .next x ∧ s1.onlyStrand x s.cur ∧ x.strand s.cur = some st ∧
          st.frag s.curSlot = none ∧ st.frag (!s.curSlot) = c.st.frag (!s.curSlot) ∧
          st.stack = Tbl.put c.st.stack e (.join u mask (arr ||| c.f.mask) mode q parent)) ∧
        (arr ||| c.f.mask = mask → Strand.atJoin { c.st with stack := Tbl.del c.st.stack e } fused = false →
          ∃ x st, exec i s = .next x ∧ s1.onlyStrand x s.cur ∧ x.strand s.cur = some st ∧
            st.frag s.curSlot = some fused ∧ st.frag (!s.curSlot) = c.st.frag (!s.curSlot) ∧ st.stack = Tbl.del c.st.stack e))
    let splits (i : Instr) (g : Mask) (u : DWord) (rest : Frag) : Prop :=
      let kept : Frag := { rest with mask := c.f.mask &&& ~~~g }
      let child : Frag := { rest.went u with mask := g, age := c.st.ageCount + 1 }
      c.st.atJoin (rest.went u) = false →
      (c.st.frag (!s.curSlot) = none → ∃ x, exec i s = .next x ∧ x.fragOf s.cur s.curSlot = some kept ∧
        x.fragOf s.cur (!s.curSlot) = some child) ∧
      (∀ other, c.st.frag (!s.curSlot) = some other →
        (Tbl.freeKey c.st.stack 0 255 = none → exec i s = .next (c.raiseWide .controlIntegrity stackFull)) ∧
        (∀ e s2, Tbl.freeKey c.st.stack 0 255 = some e → s1.stackAccess s.cur c.st .write e = (s2, .ok) → s2.strand s.cur = some c.st →
          ∃ x st, exec i s = .next x ∧ x.strand s.cur = some st ∧
            if other.hold = .none ∧ other.age < c.f.age then
              st.frag s.curSlot = some kept ∧ st.frag (!s.curSlot) = some child ∧ st.stack = Tbl.put c.st.stack e (.frag other s2.dclk)
            else st.frag s.curSlot = some child ∧ st.frag (!s.curSlot) = some other ∧
              st.stack = Tbl.put c.st.stack e (.frag kept s2.dclk)) ∧
        (∀ e s2 k dt, Tbl.freeKey c.st.stack 0 255 = some e → s1.stackAccess s.cur c.st .write e = (s2, .bad k dt) →
          exec i s = .next (c.raise s2 { Raised.wide k c.act dt with addr := BitVec.ofNat 64 (stackVa + 128 * e) })))
    (c.targetsPass c.f.mask (fun _ => t) s1 →
      (Issued (.bra h o) s c → goes (.bra h o) t) ∧
      (Issued (.call d o) s c → goes (.call d o) t ∧ ∃ x, exec (.call d o) s = .next x ∧
        ∀ L, L < 32 → Mask.has c.f.mask L = true → x.laneOf s.cur true d L = some (c.f.pc + 4).toNat) ∧
      (Issued (.brc h p sg o) s c → g = c.f.mask → g ≠ 0 → goes (.brc h p sg o) t)) ∧
    (Issued (.brc h p sg o) s c → g = 0 → ∃ x, exec (.brc h p sg o) s = .next x ∧ s.onlyStrand x s.cur ∧
      x.fragOf s.cur s.curSlot = some c.f.next ∧ x.fragOf s.cur (!s.curSlot) = c.st.frag (!s.curSlot)) ∧
    (c.targetsPass g (fun _ => t) s1 → Issued (.brc h p sg o) s c → g ≠ 0 → g ≠ c.f.mask → splits (.brc h p sg o) g t c.f.next) ∧
    (∀ F, c.f.mask.lowest = some F → c.targetsPass c.f.mask (fun L => BitVec.ofNat 64 ((c.plain true a).at L)) s1 →
      let u : DWord := BitVec.ofNat 64 ((c.plain true a).at F)
      let same := Mask.ofPred (fun L => Mask.has c.f.mask L && BitVec.ofNat 64 ((c.plain true a).at L) == u)
      ∀ i ∈ [Instr.brx h a, .ret a], Issued i s c → (same = c.f.mask → goes i u) ∧ (same ≠ c.f.mask → splits i same u c.f))

/-- 04 R92, R94, R102, R106, R107: `rcv` opens a join record; `exit` ends its fragment, whose lanes leave every record of its chain,
and a strand without another lane; where that completes the innermost record, the lanes that wait there are fused; and `yield`
holds the strand until others have issued or 32 clk have passed. The access of `rcv` to its stack entry may fault. -/
def Obligations.JoinExitAndYield : Prop :=
  ∀ (s s1 : State) (c : Ctx) (o : BitVec 16) (e : Nat),
    (c.targetsPass c.f.mask (fun _ => target c.f.pc o) s1 → Tbl.freeKey c.st.stack 0 255 = some e → Issued (.rcv o) s c →
      (∀ s2, s1.stackAccess s.cur c.st .write e = (s2, .ok) → s2.strand s.cur = some c.st →
        ∃ x st, exec (.rcv o) s = .next x ∧ s2.onlyStrand x s.cur ∧ x.strand s.cur = some st ∧
          st.frag s.curSlot = some { c.f.next with join := some e } ∧
          st.stack = Tbl.put c.st.stack e (.join (target c.f.pc o) c.f.mask 0 c.f.mode c.f.q c.f.join)) ∧
      (∀ s2 k d, s1.stackAccess s.cur c.st .write e = (s2, .bad k d) → exec (.rcv o) s =
        .next (c.raise s2 { Raised.wide k c.act d with addr := BitVec.ofNat 64 (stackVa + 128 * e) }))) ∧
    (c.targetsPass c.f.mask (fun _ => target c.f.pc o) s1 → Tbl.freeKey c.st.stack 0 255 = none → Issued (.rcv o) s c →
      exec (.rcv o) s = .next (c.raiseWide .controlIntegrity stackFull)) ∧
    (Issued .exit s c → c.f.join = none → ∃ x st, exec .exit s = .next x ∧ x.mem = s.mem ∧ x.strand s.cur = some st ∧
      st.frag s.curSlot = none ∧ st.frag (!s.curSlot) = c.st.frag (!s.curSlot) ∧ st.ended = ((c.st.setFrag s.curSlot none).liveLanes == 0)) ∧
    (Issued .exit s c → (∀ j ∈ c.st.chain 256 c.f.join, ∀ ad mask arr mode q parent,
        Tbl.find c.st.stack j = some (.join ad mask arr mode q parent) → arr = mask &&& ~~~c.f.mask → arr = 0) →
      ∃ x st, exec .exit s = .next x ∧ x.strand s.cur = some st ∧ st.frag s.curSlot = none ∧
        st.frag (!s.curSlot) = c.st.frag (!s.curSlot) ∧ st.ended = (st.liveLanes == 0) ∧
        (∀ j, j ∉ c.st.chain 256 c.f.join → Tbl.find st.stack j = Tbl.find c.st.stack j) ∧
        ∀ j ∈ c.st.chain 256 c.f.join, ∀ ad mask arr mode q parent, Tbl.find c.st.stack j = some (.join ad mask arr mode q parent) →
          Tbl.find st.stack j = if mask &&& ~~~c.f.mask = 0 then none else some (.join ad (mask &&& ~~~c.f.mask) arr mode q parent)) ∧
    (∀ j ad mask arr mode q parent, Issued .exit s c → c.f.join = some j → Tbl.find c.st.stack j = some (.join ad mask arr mode q parent) →
      arr = mask &&& ~~~c.f.mask → arr ≠ 0 → c.st.atJoin { c.f.went ad with join := parent } = false →
      ∃ x, exec .exit s = .next x ∧ x.fragOf s.cur (!s.curSlot) = c.st.frag (!s.curSlot) ∧
        x.fragOf s.cur s.curSlot = some { c.f.went ad with mask := arr, mode := mode, q := q, join := parent } ∧
        (x.strand s.cur).map (fun st => Tbl.find st.stack j) = some none) ∧
    (Issued .yield s c → ∃ x, exec .yield s = .next x ∧ s.onlyStrand x s.cur ∧ x.fragOf s.cur s.curSlot = some c.f.next ∧
      ((x.strand s.cur).bind Strand.yielding).map Prod.snd = some (s.dclk + 32)) ∧
    (∀ (k : Nat) (st : Strand) (l : List Nat) (stop : DWord), s.strand k = some st → st.yielding = some (l, stop) →
      ∃ x, exec (.yieldRelease k) s = .next x ∧ s.onlyStrand x k ∧
        (x.strand k).map Strand.yielding = some (if l = [] ∨ stop ≤ s.dclk then none else some (l, stop)))

/-- 02 R10, R24, R26, R31, 04 R82: a clause is fetched whole, and starts once its flags are clear and the other fragment's started
clause claims none of them; where both could start, it claims the flags that both set. One that the clause decoder refuses
raises ILLEGAL_CLAUSE with the header's PC. -/
def Obligations.ClausesAreFetchedAndStarted : Prop :=
  ∀ (s : State) (st : Strand) (f : Frag) (l : BitVec 4) (w : BitVec 12) (a b : BitVec 4) (head : Word),
    s.strand s.cur = some st → st.frag s.curSlot = some f → encode (.clauseStart l w a b) = some head →
    let ws := head :: f.clause.drop 1
    (∀ s1 l, s.fetchClause (st.agent s s.cur) f.header = (s1, .ok l) → s1.strand s.cur = some st → ∃ x, exec .clauseFetch s = .next x ∧
      s1.onlyStrand x s.cur ∧ x.fragOf s.cur s.curSlot = some { f with clause := l }) ∧
    (∀ s1 e d, s.fetchClause (st.agent s s.cur) f.header = (s1, .error (e, d)) →
      exec .clauseFetch s = .next (s1.raise s.cur s.curSlot f.header (s1.fetchRaised (st.agent s s.cur) f.header e f.mask d) none false)) ∧
    (f.started = false → st.atJoin f = false →
      (clauseOk ws = false → exec (.clauseStart l w a b) s =
        .next (s.raise s.cur s.curSlot f.header (Raised.wide .illegalClause f.mask 0) none false)) ∧
      let other := st.frag !s.curSlot
      let taken := (other.map Frag.claimed).getD 0
      (clauseOk ws = true → f.resumed = false → (st.flags ||| taken) &&& clauseFlags head ≠ 0 → exec (.clauseStart l w a b) s = .next s) ∧
      (clauseOk ws = true → f.resumed = true ∨ (st.flags ||| taken) &&& clauseFlags head = 0 → ∃ x, exec (.clauseStart l w a b) s = .next x ∧
        s.onlyStrand x s.cur ∧ x.fragOf s.cur s.curSlot =
          some { f with
            clause := ws
            started := true
            pc := f.header + 4 + BitVec.ofNat 64 (4 * f.index)
            claims := (other.map (st.rivalFlags { f with clause := ws })).getD 0 }))

/-- 04 R88, R89, R92, 06 R154: what the device does with fragments, strands and blocks by itself. An exchange whose access to the
stack faults is dropped. -/
def Obligations.FragmentsAndBlocksAreMovedByTheDevice : Prop :=
  ∀ (s : State) (k : Nat),
    (∀ (st : Strand), s.strand k = some st → st.movable = true → st.fragB = none → st.fragA.isSome = true → st.spilledFrags ≠ [] →
      (∀ p ∈ st.spilledFrags, (s.stackAccess k st .read p.1).2 = .ok ∧ (s.stackAccess k st .read p.1).1.strand k = some st) →
      ∃ x e f u, exec (.fragmentRefill k) s = .next x ∧ (s.stackAccess k st .read e).1.onlyStrand x k ∧ (e, f, u) ∈ st.spilledFrags ∧
        (∀ y ∈ st.spilledFrags, y.2.1.age.toNat ≤ f.age.toNat) ∧
        x.strand k = some { st with fragB := some f, stack := Tbl.del st.stack e }) ∧
    (∀ (st : Strand) (f : Frag), s.strand k = some st → st.movable = true → ¬ s.dclk < st.nextExchange → st.fragA = some f →
      st.fragB = none → f.hold = .none → st.spilledFrags ≠ [] →
      let read (e : Nat) := s.stackAccess k st .read e
      let both (e : Nat) := (read e).1.stackAccess k st .write ((Tbl.freeKey st.stack 0 255).getD e)
      (∀ p ∈ st.spilledFrags, (read p.1).2 = .ok ∧ (both p.1).2 = .ok ∧ (both p.1).1.strand k = some st ∧ (both p.1).1.dclk = s.dclk) →
      ∃ x e g u st2, exec (.fragmentExchange k) s = .next x ∧ (both e).1.onlyStrand x k ∧ (e, g, u) ∈ st.spilledFrags ∧
        (∀ y ∈ st.spilledFrags, u.toNat ≤ y.2.2.toNat) ∧ x.strand k = some st2 ∧ st2.fragA = some g ∧ st2.fragB = none ∧
        st2.nextExchange = s.dclk + 4096) ∧
    (∀ (st : Strand) (f : Frag), s.strand k = some st → st.movable = true → ¬ s.dclk < st.nextExchange → st.fragA = some f →
      st.fragB = none → f.hold = .none → st.spilledFrags ≠ [] →
      (∀ p ∈ st.spilledFrags, (s.stackAccess k st .read p.1).2 ≠ .ok ∧ (s.stackAccess k st .read p.1).1.strand k = some st) →
      ∃ x, exec (.fragmentExchange k) s = .next x ∧ ∃ st2, x.strand k = some st2 ∧ st2.fragA = some f ∧ st2.stack = st.stack) ∧
    (∀ (st : Strand), s.strand k = some st → st.ended = true → s.flightsOf k = [] → st.opLog = [] →
      ∃ x, exec (.strandReclaim k) s = .next x ∧ x.strands = Tbl.del s.strands k ∧ x.mem = s.mem) ∧
    (∀ (b : Block), s.block k = some b → s.strandsOf k = [] → b.idle = true →
      ∃ x, exec (.blockEnd k) s = .next x ∧ x.blocks = Tbl.del s.blocks k ∧
        (x.core (k / 8)).clearing = (s.core (k / 8)).clearing ++ b.areas (s.dpr (k / 8) b.domSlot)) ∧
    (∃ x, exec (.allotmentClear k) s = .next x ∧ (x.core k).clearing = (s.core k).clearing.drop 1)

/-- 06 R166 to R168, 07 R203 to R213, 11 R307 to R311, 10 R269, R270: an accessing word whose lanes all pass their checks at
issue goes into flight with its operation, lanes, addresses, data and destination, and its fragment goes on. A word with no
active lane completes at once, and its flag clears (02 R27). -/
def Obligations.AccessWordsGoIntoFlight : Prop :=
  ∀ (s : State) (c : Ctx) (d a x : BitVec 8) (n : BitVec 4) (z r : BitVec 2) (sg y : BitVec 1) (o sc : BitVec 3),
    let w := c.wide
    let t := c.type
    let len := n.toNat + 1
    let run := (List.range len).map (fun j => (c.source 2 false (x + BitVec.ofNat 8 j)).lanes64)
    let runPlain := (List.range len).map (fun j => (c.plain false (x + BitVec.ofNat 8 j)).lanes64)
    let one (wd : Bool) := [(c.source 2 wd x).lanes64]
    let pair := (c.source 1 true a).lanes64
    let off := (c.source 1 false a).lanes64
    let atomic (res : Bool) := FlightOp.atom o.toNat t res
    let next : BitVec 8 := x + (if w then 2 else 1)
    ∀ p ∈ [(Instr.lds d a sg z, FlightOp.load (sg == 1) (sizeBytes z) true, off, [], d, z == 1, 1),
           (.sts z a x, .store (sizeBytes z) true, off, one (z == 1), 0, false, 0),
           (.ldsm d a n, .loadRun len, (c.plain false a).lanes64, [], d, false, len),
           (.stsm n a x, .storeRun len, (c.plain false a).lanes64, runPlain, 0, false, 0),
           (.ld d a sg z, .load (sg == 1) (sizeBytes z) true, pair, [], d, z == 1, 1),
           (.ldb d a sg z, .load (sg == 1) (sizeBytes z) false, pair, [], d, z == 1, 1),
           (.st z a x, .store (sizeBytes z) true, pair, one (z == 1), 0, false, 0),
           (.stb z a x, .store (sizeBytes z) false, pair, one (z == 1), 0, false, 0),
           (.ldm d a n, .loadRun len, pair, [], d, false, len), (.stm n a x, .storeRun len, pair, run, 0, false, 0),
           (.pref a, .pref, pair, [], 0, false, 0), (.chain d a, .chain, pair, [], d, false, 1), (.pin a, .pin, pair, [], 0, false, 0),
           (.unpin a, .unpin, pair, [], 0, false, 0), (.lotwb a, .lotwb, pair, [], 0, false, 0),
           (.lotdrop a, .lotdrop, pair, [], 0, false, 0),
           (.atom o sc r a x, atomic true, pair, one w, x, w, 1), (.atomn o sc r a x, atomic false, pair, one w, 0, false, 0),
           (.atomsc o a x, atomic true, pair, one w, x, w, 1),
           (.cas sc r a x, .cas w, pair, one w ++ [(c.source 2 w next).lanes64], x, w, 1),
           (.lda d a y sc, .load false (sizeBytes (y.zeroExtend 2)) true, pair, [], d, y == 1, 1),
           (.stl y sc a x, .store (sizeBytes (y.zeroExtend 2)) true, pair, one (y == 1), 0, false, 0)],
      Issued p.1 s c →
        (c.act = 0 → exec p.1 s = .next ((c.done c.st).clearFlag s.cur (c.f.flagAt c.f.index))) ∧
        (∀ ask, askOf p.1 t = some ask → c.act ≠ 0 →
          (∀ L j, L < 32 → Mask.has c.act L = true → j < p.2.1.runLen →
            ∃ g, s.laneTarget c.st ask ((Lanes.at 0 p.2.2.1 L).toNat + p.2.1.stride * j) = .ok g) →
          ∃ u fl, exec p.1 s = .next u ∧ s.flew c fl u ∧ fl.op = p.2.1 ∧ fl.mask = c.act ∧ fl.addr = p.2.2.1 ∧ fl.data = p.2.2.2.1 ∧
            (fl.dst, fl.wide, fl.regs) = p.2.2.2.2 ∧ fl.bad = [] ∧ fl.promoting = false)

/-- 07 R203, 06 R161: where one access goes. Misalignment is found first; then the window, in the order of the table. 06 R169,
R170: `spt` answers the window kind of each lane's address, 4 where its checks fail, and writes no latch; `spc` answers what
its valid addresses name. -/
def Obligations.WindowsAreCheckedAndClassified : Prop :=
  (∀ (s : State) (st : Strand) (x : Ask) (b : Block) (a : Nat), s.block st.block = some b → a < 2 ^ 64 → x.windows = .all →
    let core := bits a 47 40
    let off := a % 2 ^ 32
    let fits := off + x.size ≤ b.sa ∨ (0x1000000 ≤ off ∧ off + x.size ≤ 0x1000000 + b.ca)
    ((x.aligned = true ∧ a % x.size ≠ 0) ∨ a % x.align ≠ 0 → s.laneTarget st x a = .error .misaligned) ∧
    ((x.aligned = false ∨ a % x.size = 0) → a % x.align = 0 →
      (addrKind a = 0 → s.laneTarget st x a = .ok (.mem false)) ∧ (addrKind a = 1 → s.laneTarget st x a = .ok (.mem true)) ∧
      (addrKind a = 4 → s.laneTarget st x a = .error .badWindow) ∧
      (addrKind a = 2 → 191 < core ∨ bits a 36 32 ≠ 0 → s.laneTarget st x a = .error .badWindow) ∧
      (addrKind a = 2 → core ≤ 191 → bits a 36 32 = 0 → core * 8 + bits a 39 37 ≠ st.block →
        s.laneTarget st x a = .error .foreignWindow) ∧
      (addrKind a = 2 → core ≤ 191 → bits a 36 32 = 0 → core * 8 + bits a 39 37 = st.block → st.block < 1536 → ¬fits →
        s.laneTarget st x a = .error .badWindow) ∧
      (addrKind a = 2 → core ≤ 191 → bits a 36 32 = 0 → core * 8 + bits a 39 37 = st.block → st.block < 1536 → fits →
        x.access = .read → s.laneTarget st x a = .ok (.own off)) ∧
      (addrKind a = 3 → bits a 47 35 ≠ b.tag.toNat → s.laneTarget st x a = .error .foreignWindow) ∧
      (addrKind a = 3 → bits a 47 35 = b.tag.toNat → st.gangBlocks ≤ bits a 34 32 → s.laneTarget st x a = .error .badWindow))) ∧
  (∀ (s : State) (c : Ctx) (d a : BitVec 8) (L : Nat), L < 32 → Mask.has c.act L = true →
    let v := (c.plain true a).at L
    (Issued (.spt d a) s c → Results (.spt d a) s false d L (if s.window c.st v matches .error .badWindow then 4 else addrKind v) ∧
      ∃ t st, exec (.spt d a) s = .next t ∧ s.onlyStrand t s.cur ∧ t.strand s.cur = some st ∧ st.l0 = c.st.l0 ∧ st.l1 = c.st.l1) ∧
    ((∀ H, H < 32 → Mask.has c.act H = true → ∃ g, s.window c.st ((c.plain true a).at H) = .ok g) → Issued (.spc d a) s c →
      Results (.spc d a) s true d L ((if addrKind v = 0 then v else if addrKind v = 1 then v % 2 ^ 48 else v % 2 ^ 32) % 2 ^ 64)))

/-- 06 R156, R159, R163, R165, R166: a load or store at the scratchpad or column of the own block, or of another block of the
gang, when every lane goes there and no earlier word is to access the same words of the own block, or the same block of the gang: a
load writes each lane's register from the block's bytes, extended; a store writes the bytes, the highest lane's where lanes meet, and
no other byte. -/
def Obligations.LocalAccessesReadAndWriteTheBlock : Prop :=
  ∀ (s : State) (f : Flight) (st : Strand) (x : Ask) (b : Block) (gang : Bool) (off : Nat → Nat) (k : Nat),
    let m := if gang then f.gangL else f.localL
    let event := if gang then Instr.gangWindowArrival f.id else .localAccessComplete f.id
    s.flight f.id = some f → s.strand f.strand = some st → f.ask = some x → s.block k = some b → (gang = false → k = st.block) →
    (∀ g ∈ s.flights, g.pos < f.pos → (if gang then g.agent.block = f.agent.block else g.strand = f.strand) →
      ∀ w ∈ s.wordsNamed g (if gang then g.gangL else g.localL), if gang then w.1 ≠ k else w ∉ s.wordsNamed f m) → s.mayPerform f = true →
    m ≠ 0 → (if gang then f.localL else f.gangL) = 0 → f.xlatL = 0 → f.reqs = [] → f.bad = [] → f.first = 0 → f.stop = 1 →
    f.got = [] → f.mask = m →
    (∀ L, L < 32 → Mask.has m L = true → s.laneTarget st x (f.at_ 0 L) = .ok (if gang then .other k (off L) else .own (off L))) →
    (∀ sg n pl, f.op = .load sg n pl → f.regs = 1 → st.writable f → (∀ L, L < 32 → Mask.has m L = true → b.poisonedAt (off L) n = false ∧
        ∀ i, i < (off L % 4 + n + 3) / 4 → Tbl.find b.ecc (off L / 4 + i) = none) →
      ∃ t, exec event s = .next t ∧ t.flight f.id = none ∧ t.mem = s.mem ∧ (∀ j, t.block j = s.block j) ∧ ∀ L, L < 32 → Mask.has m L = true →
        t.laneOf f.strand f.wide f.dst L = some (extendBytes sg n (b.readN (off L) n) % 2 ^ regBits f.wide)) ∧
    (∀ n pl, f.op = .store n pl → f.regs = 0 → ∃ t b2, exec event s = .next t ∧ t.flight f.id = none ∧ t.mem = s.mem ∧ t.block k = some b2 ∧
      (∀ j, j ≠ k → t.block j = s.block j) ∧
      (∀ o, (∀ L, L < 32 → Mask.has m L = true → o < off L ∨ off L + n ≤ o) → b2.byte o = b.byte o) ∧
      (∀ L, L < 32 → Mask.has m L = true → (∀ H, L < H → H < 32 → Mask.has m H = true → off H + n ≤ off L ∨ off L + n ≤ off H) →
        b2.readN (off L) n = (Lanes.at 0 (f.data.getD 0 []) L).toNat % 256 ^ n))

/-- 06 R171 to R173: `xsend` leaves with its lanes and data, and is accepted, in the order issued, when the partner's queue has
room; `xrecv` takes the oldest entry of its queue once, and writes the lanes that are active in both. -/
def Obligations.EdgeEntriesTravelInOrder : Prop :=
  ∀ (s : State) (c : Ctx) (d a : BitVec 8) (cn r : BitVec 2) (k : Nat),
    (s.partner c.st.block r.toNat = .ok k →
      (Issued (.xsend cn r a) s c → ∃ t fl, exec (.xsend cn r a) s = .next t ∧ s.flew c fl t ∧ fl.op = .xsend r.toNat cn.toNat ∧
        fl.mask = c.act ∧ fl.data = [(c.plain false a).lanes64] ∧ fl.bad = []) ∧
      (Issued (.xrecv d cn r) s c → ∃ t fl, exec (.xrecv d cn r) s = .next t ∧ s.flew c fl t ∧ fl.op = .xrecv r.toNat cn.toNat ∧
        fl.mask = c.act ∧ fl.dst = d ∧ fl.regs = 1 ∧ fl.wide = false)) ∧
    (∀ e, s.partner c.st.block r.toNat = .error e →
      (c.act ≠ 0 → Issued (.xrecv d cn r) s c →
        exec (.xrecv d cn r) s = .next (c.raise s ⟨e, false, c.act, 0, 0, 0, 255⟩)) ∧
      (c.act = 0 → ∀ i ∈ [Instr.xsend cn r a, .xrecv d cn r], Issued i s c →
        exec i s = .next ((c.done c.st).clearFlag s.cur (c.f.flagAt c.f.index)))) ∧
    (∀ (f : Flight) (b : Block) (dir ch : Nat), s.flight f.id = some f → f.op = .xsend dir ch → f.bad = [] →
      s.flights.all (fun g => g.op != f.op || g.agent.block != f.agent.block || f.pos ≤ g.pos || !g.bad.isEmpty) = true →
      s.partner f.agent.block dir = .ok k → s.block k = some b →
      let q := Tbl.get [] b.edges (4 * ((dir + 2) % 4) + ch)
      q.length < 8 → ∃ t b2, exec (.xsendAccept f.id) s = .next t ∧ t.flight f.id = none ∧ t.block k = some b2 ∧
        Tbl.get [] b2.edges (4 * ((dir + 2) % 4) + ch) = q ++ [⟨(f.data.getD 0 []).map (fun x => x.setWidth 32), f.mask⟩] ∧
        (∀ j, j ≠ 4 * ((dir + 2) % 4) + ch → Tbl.get [] b2.edges j = Tbl.get [] b.edges j)) ∧
    (∀ (f : Flight) (b : Block) (st : Strand) (e : Edge) (q : List Edge) (dir ch L : Nat), s.flight f.id = some f → f.op = .xrecv dir ch →
      s.flights.all (fun g => g.op != f.op || g.agent.block != f.agent.block || f.pos ≤ g.pos) = true →
      s.block f.agent.block = some b → Tbl.get [] b.edges (4 * dir + ch) = e :: q → s.strand f.strand = some st → f.wide = false →
      f.regs = 1 → st.writable f → L < 32 →
      ∃ t b2, exec (.edgeEntryArrival f.id) s = .next t ∧ t.flight f.id = none ∧ t.block f.agent.block = some b2 ∧
        Tbl.get [] b2.edges (4 * dir + ch) = q ∧ t.laneOf f.strand false f.dst L =
          some (if Mask.has (f.mask &&& e.mask) L then (Lanes.at 0 e.data L).toNat else (st.regs false f.dst.toNat).at L))

/-- 07 R181, R188, R197, R199, R206, 11 R304: the tag slot of the last request of a load or store, whose lot stands in the
chain of the issuing cluster, under a private page or as the home of a coherent one. A load writes the lanes' registers and no
byte of memory; a store writes the lanes' bytes, the highest lane's where lanes meet, and no other byte. -/
def Obligations.ChainAccessesReadAndWriteMemory : Prop :=
  ∀ (s : State) (f : Flight) (st : Strand) (r : Req) (x : Xlat) (l : Lot) (p : Nat) (as : Nat → List Nat),
    let k := clusterOf f.agent.core
    s.flight f.id = some f → s.strand f.strand = some st → f.lastReq r → f.mask = r.lanes → f.got = [] → r.reg = 0 → r.phase = .tag →
    r.away = false → r.chain = k → s.slotReady f r = true → Tbl.find f.pages r.page = some (.ok x) → inPeer (256 * r.lot) = false →
    (x.cls = 0 ∨ x.cls = 2 ∧ s.homeOf f.agent.tract (256 * r.lot) 256 = k ∧ Tbl.find (s.cluster k).lent r.lot = none) →
    (s.cluster k).lot r.lot = some l → l.place = .station p →
    (∀ L, L < 32 → Mask.has r.lanes L = true → f.lotBytes 0 L r.lot = as L) →
    (∀ sg n pl, f.op = .load sg n pl → f.regs = 1 → st.writable f →
      (∀ L a, L < 32 → Mask.has r.lanes L = true → f.inStack 0 L = false ∧
        (a ∈ as L → s.poisoned a = false ∧ Tbl.find s.ecc (a / 32) ≠ some true)) →
      ∃ t, exec (.tagSlot f.id r.lot) s = .next t ∧ t.mem = s.mem ∧ t.flight f.id = none ∧ ∀ L, L < 32 → Mask.has r.lanes L = true →
        t.laneOf f.strand f.wide f.dst L = some (extendBytes sg n (s.valueAt (as L)) % 2 ^ regBits f.wide)) ∧
    (∀ n pl, f.op = .store n pl → f.regs = 0 → ∃ t, exec (.tagSlot f.id r.lot) s = .next t ∧ t.flight f.id = none ∧
      (∀ a, (∀ L, L < 32 → Mask.has r.lanes L = true → a ∉ as L) → t.byte a = s.byte a) ∧
      (∀ L j a, L < 32 → Mask.has r.lanes L = true → (as L)[j]? = some a → (as L).Nodup →
        (∀ H, L < H → H < 32 → Mask.has r.lanes H = true → a ∉ as H) →
        t.byte a = BitVec.ofNat 8 ((Lanes.at 0 (f.data.getD 0 []) L).toNat / 256 ^ j)))

/-- 07 R189, R190, R192, R193, R200, R201, 10 R252: what ends or goes on with a request: a fill, a reply, a delivery, a retry
and an acknowledgement. What a peer answers is a free value. -/
def Obligations.RequestsAreAnswered : Prop :=
  ∀ (s : State) (f : Flight) (st : Strand) (r : Req) (sg : Bool) (n : Nat) (pl : Bool), s.flight f.id = some f → s.strand f.strand = some st →
    f.lastReq r → st.writable f → f.op = .load sg n pl → f.regs = 1 → f.mask = r.lanes → r.reg = 0 →
    let done (g : Flight) (t : State) : Prop := t.mem = s.mem ∧ t.flight f.id = none ∧ ∀ L, L < 32 → Mask.has f.mask L = true →
      t.laneOf f.strand f.wide f.dst L = some ((g.values 0).at L % 2 ^ regBits f.wide)
    (r.phase = .reply → inPeer (256 * r.lot) = false → ∃ t, exec (.remoteReplyArrival f.id r.lot) s = .next t ∧ done f t) ∧
    (r.phase = .deliver → ∃ t, exec (.bypassLoadDelivery f.id r.lot) s = .next t ∧ done f t) ∧
    (r.phase = .reply → inPeer (256 * r.lot) = true → f.got = [] → ∃ t, exec (.remoteReplyArrival f.id r.lot) s = .next t ∧
      t.fresh = s.fresh + 256 ∧ ∀ L, L < 32 → Mask.has f.mask L = true → t.laneOf f.strand f.wide f.dst L =
        some (extendBytes sg n ((Config.freeDWord (s.fresh + L)).toNat % 2 ^ (8 * min 8 n)) % 2 ^ regBits f.wide)) ∧
    (r.phase = .retry → ∃ t, exec (.missRetry f.id r.lot) s = .next t ∧ t.mem = s.mem ∧
      t.flight f.id = some { f with reqs := [{ r with phase := .tag, age := r.age + 1, since := s.sclk false }] }) ∧
    (∀ (l : Lot) (stream res : Bool) (touch core part : Nat), r.phase = .fill → s.waiting r.chain r.lot .fill = [(f.id, r)] →
      r.chain = clusterOf f.agent.core → (s.cluster r.chain).lot r.lot = some l → l.copy = none →
      l.place = .miss stream touch core part res → ∃ t, exec (.missFillArrival r.chain r.lot) s = .next t ∧ done f t ∧
        ((t.cluster r.chain).lot r.lot).map Lot.place = some (.arrived stream (s.sclk false) touch core part)) ∧
    (∀ w : WriteBack, (s.cluster r.chain).wbs.find? (fun w => w.lot == r.lot) = some w →
      (w.started = false → ∃ t, exec (.writeAcknowledge r.chain r.lot) s = .next t ∧
        (t.cluster r.chain).wbs = (s.cluster r.chain).wbs.replace w { w with started := true }) ∧
      (w.started = true → s.waiting r.chain r.lot .ack = [] → ∃ t, exec (.writeAcknowledge r.chain r.lot) s = .next t ∧
        (t.cluster r.chain).wbs = (s.cluster r.chain).wbs.erase w))

/-- 07 R182, R184 to R187, R212, R306, 08 R242, R244: the device's own steps on a chain. A lot that lands stands at the first
unpinned station at its gate, and the unpinned lots from there to its hole each move to the next unpinned station outward. A sweep leaves no expired copy. -/
def Obligations.LotsLandAndClocksAdvance : Prop :=
  ∀ (s : State) (k lot i : Nat) (l : Lot), (s.cluster k).lot lot = some l → l.sub = i → i < 4 →
    let c := s.cluster k
    (∀ gate ring h cap rd t co pa e q m a, l.place = .moving ring (some h) cap rd t co pa e → q ≠ lot → c.lot q = some m → m.sub = i →
      m.place = .station a → ∃ c2, c.land lot gate = some c2 ∧
        (c2.lot lot).map Lot.place = some (.station (freeStation (c.pinnedAt i) gate)) ∧
        (c2.lot q).map Lot.place = some (.station
          (if gate ≤ a ∧ a < h ∧ a ∉ c.pinnedAt i then freeStation (c.pinnedAt i) (a + 1) else a))) ∧
    (∀ c2 half, c.subValid i = true → Tbl.get 0 c.landed i ≤ s.sclk half → c.candidates k i 0 (s.sclk half) = [lot] →
      0 < c.ports i (s.sclk half) → c.land lot 0 = some c2 →
      ∃ t, exec (.frontLanding k i half) s = .next t ∧ (t.cluster k).lots = c2.lots ∧ t.mem = s.mem) ∧
    (∀ c2 cap, c.subValid i = true → (c.candidates k i (if cap then 1 else 2) (s.sclk true)).head? = some lot →
      c.land lot (if cap then c.cap i else c.insertion i) = some c2 →
      ∃ t, exec (.gateLanding k i cap) s = .next t ∧ t.cluster k = c2 ∧ t.mem = s.mem) ∧
    (∀ rd h cap ready t co pa, l.place = .moving rd h cap ready t co pa false → ready ≤ s.sclk true →
      ∃ u, exec (.lotMotionEnd k lot) s = .next u ∧
        ((u.cluster k).lot lot).map Lot.place = some (.moving rd h cap ready t co pa true)) ∧
    (∀ q b, Tbl.find c.lent q = some b → (∃ f ∈ s.flights, c.borrower q ≠ some f.agent.core ∧ f.op ≠ .chain ∧ f.op ≠ .mon ∧
        s.homeOf f.agent.tract (256 * q) 256 = k ∧
        ∃ r ∈ f.reqs, r.lot = q ∧ r.phase = .tag ∧ ∃ x, f.pageOf r = some x ∧ x.cls = 2) →
      ∃ t, exec (.lotRecall k q) s = .next t ∧ Tbl.find (t.cluster k).lent q = none ∧ t.mem = s.mem) ∧
    (∀ tag : Nat, BitVec.ofNat 13 tag ∈ s.pinRelease → ∃ t, exec (.pinRelease tag) s = .next t ∧
      BitVec.ofNat 13 tag ∉ t.pinRelease ∧
      ∀ j, j < 24 → (t.cluster j).pins = (s.cluster j).pins.filter (fun p => p.tag != BitVec.ofNat 13 tag)) ∧
    (c.ticks < s.dclk.toNat / 1024 → ∃ t, exec (.logicalClockTick k) s = .next t ∧ (t.cluster k).clock = c.clock + 1 ∧
      (t.cluster k).ticks = c.ticks + 1 ∧ ∀ j, j ≠ k → t.cluster j = s.cluster j) ∧
    (∃ t, exec (.leaseSweep k) s = .next t ∧ t.mem = s.mem ∧ ∀ p ∈ (t.cluster k).lots, ∀ y, p.2.copy = some y →
      (∃ a b d e g, p.2.place = .miss a b d e g) ∨ (y.stop - c.clock).toNat < 2 ^ 19)

/-- 07 R210 to R212: `pin` counts a reference of the gang, where its chain has room for an entry (within 2,048 and the quota of the
sub-chain, the entries of the lots it has lent among them); `unpin` takes one away. -/
def Obligations.PinsCountReferences : Prop :=
  ∀ (s : State) (f : Flight) (r : Req) (x : Xlat) (l : Lot) (a : Nat) (st : Strand),
    let k := s.holdingChain f.agent.tract f.agent.core r.lot x.cls
    let c := s.cluster k
    s.flight f.id = some f → s.strand f.strand = some st → f.dueReq r.lot = some r → s.slotReady f r = true →
    Tbl.find f.pages r.page = some (.ok x) → inPeer (256 * r.lot) = false → f.lastReq r → f.regs = 0 → c.lot r.lot = some l →
    l.dom = f.agent.ident → l.place = .station a → r.chain = k → k = clusterOf f.agent.core → f.acquire = false →
    s.lentAway f r x = false →
    let still := r.phase = .land ∨ r.phase = .tag ∧ c.pinned r.lot = true ∧ l.copy = none
    let refs (t : State) : Nat := (((t.cluster k).pins.find? (fun p => p.lot == r.lot && p.tag == f.agent.gang)).map Pin.count).getD 0
    (f.op = .pin → still → c.pins.any (fun p => p.lot == r.lot && p.tag == f.agent.gang) = false →
      s.pinRoom k (s.homeOf f.agent.tract (256 * r.lot) 256) r.lot l.dom = true →
      ∃ t, exec (.tagSlot f.id r.lot) s = .next t ∧ (t.cluster k).pins = c.pins ++ [⟨r.lot, f.agent.gang, l.sub, 1⟩]) ∧
    (f.op = .pin → still → 0 < refs s → refs s < 255 →
      ∃ t, exec (.tagSlot f.id r.lot) s = .next t ∧ refs t = refs s + 1) ∧
    (f.op = .unpin → (c.pins.filter (fun p => p.lot == r.lot && p.tag == f.agent.gang)).length ≤ 1 →
      ∃ t, exec (.tagSlot f.id r.lot) s = .next t ∧ refs t = refs s - 1) ∧
    (∀ i, c.lent = [] → (s.pinRoomAt k i = true ↔ c.pins.length < 2048 ∧ (c.pins.filter (fun p => p.sub == i)).length < c.quota i))

/-- 08 R231, R245 to R248: the words of translation, and what completes them. -/
def Obligations.TranslationWordsQueryAndInvalidate : Prop :=
  ∀ (s : State) (c : Ctx) (d a b k : BitVec 8) (n : BitVec 4),
    (k.toNat < 3 → c.act ≠ 0 → Issued (.pgq d a k) s c → ∃ t fl, exec (.pgq d a k) s = .next t ∧ s.flew c fl t ∧ fl.op = .pgq k.toNat ∧
      fl.xlatL = c.act ∧ fl.mask = c.act ∧ fl.dst = d ∧ fl.wide = true ∧ fl.regs = 1 ∧ fl.addr = (c.plain true a).lanes64) ∧
    (∀ (f : Flight) (st : Strand) (q L : Nat), s.flight f.id = some f → s.strand f.strand = some st → f.op = .pgq q → f.xlatL = f.mask →
      f.xlatL ≠ 0 → f.localL = 0 → f.gangL = 0 → f.reqs = [] → f.bad = [] → f.got = [] → f.regs = 1 → f.wide = true → st.writable f →
      (s.flightsOf f.strand).all (fun g => f.pos ≤ g.pos || g.xlatL == 0) = true → L < 32 → Mask.has f.mask L = true →
      ∃ t, exec (.tlbWalkComplete f.id) s = .next t ∧ t.mem = s.mem ∧ t.flight f.id = none ∧ t.laneOf f.strand true f.dst L =
        some (s.pgqValue f.agent (if q = 0 then .read else if q = 1 then .write else .fetch) (f.at_ 0 L) L % 2 ^ 64)) ∧
    (∀ (f g : Flight) (s2 : State), s.flight f.id = some f → (∀ q, f.op ≠ .pgq q) → f.xlatL ≠ 0 →
      (s.flightsOf f.strand).all (fun h => f.pos ≤ h.pos || h.xlatL == 0) = true → s.translateFlight f = (s2, g) → s2.flight f.id = some f →
      g.id = f.id → g.bad = f.bad → g.stop = f.stop → g.finished = false →
      ∃ t, exec (.tlbWalkComplete f.id) s = .next t ∧ t.flight f.id = some g) ∧
    (n.toNat < 6 → c.st.rightKernel = true → ∀ L, c.act.lowest = some L → Issued (.tlbinv n a b) s c →
      ∃ t fl, exec (.tlbinv n a b) s = .next t ∧ s.flew c fl t ∧
        fl.op = .tlbinv n.toNat (BitVec.ofNat 64 ((c.plain true a).at L)) (BitVec.ofNat 32 ((c.plain false b).at L))) ∧
    (∀ (f : Flight) (q : Nat) (addr : DWord) (tag : Word), s.flight f.id = some f → f.op = .tlbinv q addr tag →
      let v : Inval := ⟨q, addr.toNat, f.mask.lowest.getD 0, tag.toNat⟩
      ∃ t, exec (.tlbinvComplete f.id) s = .next t ∧ t.mem = s.mem ∧ t.flight f.id = none ∧
        (∀ j, (t.core j).tlb = (s.core j).tlb.filter (fun e => !v.hits e)) ∧
        (∀ j, (t.cluster j).tlb = (s.cluster j).tlb.filter (fun e => !v.hits e)) ∧
        (∀ j, (t.cluster j).walk = (s.cluster j).walk.filter (fun e => !v.uses e))) ∧
    (c.st.rightKernel = true → Issued .tlbsync s c →
      (s.tlbSettled s.cur s.nextFlight = true → exec .tlbsync s = .next (c.done c.st)) ∧
      (s.tlbSettled s.cur s.nextFlight = false → ∃ t, exec .tlbsync s = .next t ∧ s.onlyStrand t s.cur ∧
        (t.fragOf s.cur s.curSlot).map Frag.hold = some (.tlbsync s.nextFlight))) ∧
    (c.st.rightKernel = false → (Issued .tlbsync s c → exec .tlbsync s = .next (c.raiseWide .permission 0)) ∧
      (n.toNat < 6 → Issued (.tlbinv n a b) s c → exec (.tlbinv n a b) s = .next (c.raiseWide .permission 0)))

/-- 08 R236, R237, R239 to R241: the dirty-page scanner and the loss of a peer. A job's leaf is found as log entry 8 says. The end
of a job changes its leaf only where the kernel has not: ACCESSED, which a walker may set, is no change. A failed one is told to
the kernel, once the hub can hold the event (22 R472). -/
def Obligations.ScannerAndPeersUpdateTheirTables : Prop :=
  ∀ (s : State) (tract : Nat),
    (let cons := s.tractField tract 1023 960
     let job := s.readN (s.tractField tract 895 832 + 32 * (cons % 2 ^ s.tractField tract 831 828)) 32
     let s1 := (s.writeN (s.tractAt tract + 120) 8 (cons + 1)).flushLate
     cons < s.tractField tract 959 896 →
      (s1.backed tract (bits job 63 0) (bits job 207 192) = false →
        exec (.scannerJob tract) s = .next { s1 with scanDropped := s.scanDropped + 1 }) ∧
      (∀ at_ w2 w3 pa v2 v3, s1.backed tract (bits job 63 0) (bits job 207 192) = true →
        let sp := scanSpace tract (BitVec.ofNat 16 (bits job 207 192))
        let leaf := s1.readN at_ 8
        physOf s1 0 sp (s1.stage2 sp) (bits job 191 128) = .ok at_ w2 w3 →
        physOf s1 0 sp (s1.stage2 sp) (leafOut (4 - bits job 209 208) leaf 0) = .ok pa v2 v3 →
        entryV leaf = true → pa = bits job 127 64 →
        ∃ t j, exec (.scannerJob tract) s = .next t ∧ t.scans = s.scans ++ [j] ∧ j.leafAt = at_ ∧ j.frame.toNat = pa ∧
          t.readN at_ 8 = leaf ||| 2 ^ 13 ∧ ∀ k, k < at_ ∨ at_ + 8 ≤ k → t.byte k = s1.byte k)) ∧
    (∀ j : ScanJob, s.scan j.id = some j →
      let now : DWord := BitVec.ofNat 64 (s.readN j.leafAt 8)
      let same := (now ^^^ j.leaf) &&& ~~~0x20#64 = 0 ∧ (now.getLsbD 5 = true ∨ j.leaf.getLsbD 5 = false)
      let ended (t : State) (clear : DWord) : Prop := t.scan j.id = none ∧
        (same → t.readN j.leafAt 8 = (now &&& ~~~clear).toNat ∧ ∀ k, k < j.leafAt ∨ j.leafAt + 8 ≤ k → t.byte k = s.byte k) ∧
        (¬same → t.mem = s.mem) ∧
        ∀ k p, p ∈ (t.cluster k).lots → inParts j.parts (256 * p.1) = true → p.2.landed = true → p.2.dirty = false
      ((s.writesPending j.parts = true ∨ s.dirtyMoving j.parts = true) →
        exec (.scannerFlashDone j.id) s = .next s ∧ exec (.scannerFlashFail j.id) s = .next s) ∧
      (s.writesPending j.parts = false → s.dirtyMoving j.parts = false →
        (∃ t, exec (.scannerFlashDone j.id) s = .next t ∧ ended t 0x2040#64) ∧
        (s.eventHeld.length < 4096 → ∃ t u, exec (.scannerFlashFail j.id) s = .next (State.post t 3 0 0 j.jobAt.toNat u) ∧
          ended t 0x2000#64) ∧
        (4096 ≤ s.eventHeld.length → exec (.scannerFlashFail j.id) s = .next s))) ∧
    (∀ peer, tract < 16 → peer < 256 →
      let e := s.readN (s.peerAt tract peer) 2
      ∃ t, exec (.peerGone tract peer) s = .next t ∧
        t.readN (s.peerAt tract peer) 2 = e / 2 % 128 * 2 + (e / 256 + 1) % 256 * 256 ∧
        (∀ p ∈ t.peerStores, p ∈ s.peerStores ∧ ¬(p.tract = tract ∧ p.peer = peer)) ∧
        ∀ p ∈ s.peerStores, (∀ q ∈ s.peerStores, q.id = p.id → ¬(q.tract = tract ∧ q.peer = peer)) → p ∈ t.peerStores) ∧
    (∀ id, ∃ t, exec (.peerStoreAck id) s = .next t ∧ t.peerStores = s.peerStores.filter (fun p => p.id != id) ∧ t.mem = s.mem)

/-- 11 R285, R286, R288, R291, R295, R296: arrivals on a numbered barrier. The strand arrives when its arrived lanes cover its live
ones; the arrival that completes a phase lets it flip two ticks later: the flip publishes the status word and starts the next phase
with what arrived beyond the expectations, and a phase that these complete flips three ticks on; a wait goes on when its phase has
passed. -/
def Obligations.BarrierArrivalsFlipPhases : Prop :=
  ∀ (s : State) (c : Ctx) (b : Block) (k : BitVec 4) (a d : BitVec 8), s.block c.st.block = some b → c.f.resumed = false → c.st.number < 32 →
    let x := b.barrier k.toNat
    let lanes := Tbl.get 0 x.lanes c.st.number ||| c.f.mask
    let bar (t : State) : Option Barrier := (t.block c.st.block).map (fun b => b.barrier k.toNat)
    let on (t : State) : Prop := t.fragOf s.cur s.curSlot = some c.f.next
    (covers lanes c.st.liveLanes = false →
      (Issued (.barar k) s c → ∃ t y, exec (.barar k) s = .next t ∧ on t ∧ bar t = some y ∧ Tbl.get 0 y.lanes c.st.number = lanes ∧
        y.arrivals = x.arrivals ∧ y.phase = x.phase)) ∧
    (covers lanes c.st.liveLanes = true → x.arrivals + 1 < x.strandsExpect →
      (Issued (.barar k) s c → ∃ t y, exec (.barar k) s = .next t ∧ on t ∧ bar t = some y ∧ y.arrivals = x.arrivals + 1 ∧
        y.phase = x.phase ∧ t.flips = s.flips ∧ Mask.has y.arrivedStrands c.st.number = true ∧ Tbl.find y.token c.st.number = some x.phase ∧
        Tbl.get 0 y.lanes c.st.number = 0) ∧
      (x.expired = false → Issued (.bar k) s c → ∃ t y, exec (.bar k) s = .next t ∧ s.holds t (.bar k.toNat x.phase) ∧ bar t = some y ∧
        y.arrivals = x.arrivals + 1)) ∧
    (covers lanes c.st.liveLanes = true → x.arrivals + 1 = x.strandsExpect → x.seqExpect ≤ x.seqArrived →
      (∀ f ∈ s.flips, ¬(f.1 = c.st.block ∧ f.2.1 = k.toNat)) →
      let due (t : State) : Prop := t.flips = s.flips ++ [(c.st.block, k.toNat, s.dclk + 2)] ∧
        (bar t).map (fun y => (y.arrivals, y.phase)) = some (x.strandsExpect, x.phase)
      (Issued (.barar k) s c → ∃ t, exec (.barar k) s = .next t ∧ on t ∧ due t) ∧
      (Issued (.bar k) s c → ∃ t, exec (.bar k) s = .next t ∧ s.holds t (.bar k.toNat x.phase) ∧ due t)) ∧
    (∀ (cur : Nat) (slot : Bool) (d : DWord), s.flips = [(c.st.block, k.toNat, d)] → d ≤ s.dclk + 1 →
      let t := s.tick cur slot
      let e := x.nextExpect.getD (x.strandsExpect, x.seqExpect)
      ∃ b2 y, t.block c.st.block = some b2 ∧ b2.barrier k.toNat = y ∧ b2.readN (b.statusAt k.toNat) 8 = x.pending.toNat ∧
        y.phase = x.phase + 1 ∧ (y.strandsExpect, y.seqExpect) = e ∧ y.nextExpect = none ∧ y.expired = false ∧
        y.arrivals = x.arrivals - x.strandsExpect ∧ y.seqArrived = (if x.seqExpect = 0 then 0 else x.seqArrived - x.seqExpect) ∧
        (x.carry = [] → y.arrivedStrands = 0) ∧ (x.carried = [] → y.pending = 0) ∧
        y.firstWait = (if s.waitsOn c.st.block k.toNat (x.phase + 1) then some (s.dclk + 1) else none) ∧
        t.flips = if y.full then [(c.st.block, k.toNat, s.dclk + 4)] else []) ∧
    (∀ p, x.expired = false → p = (match Tbl.find x.token c.st.number with
        | some q => if phasePassed x.phase q then x.phase else q
        | none => x.phase) →
      Issued (.barw k) s c → ∃ t, exec (.barw k) s = .next t ∧ s.holds t (.bar k.toNat p)) ∧
    (∀ p, c.f.hold = .bar k.toNat p → s.strand s.cur = some c.st → c.st.frag s.curSlot = some c.f → phasePassed x.phase p = true →
      on s.releaseHold) ∧
    (let v := c.lowest false a
     Issued (.bararArm k a) s c →
      ((v / 4096 ≠ 0 ∨ bits v 7 6 ≠ 0 ∨ 32 < bits v 5 0) → exec (.bararArm k a) s = .next (c.raiseWide .illegalOperand 0)) ∧
      (v / 4096 = 0 → bits v 7 6 = 0 → bits v 5 0 ≤ 32 → ∃ t y, exec (.bararArm k a) s = .next t ∧ on t ∧ bar t = some y ∧
        y.phase = x.phase ∧ y.arrivals = x.arrivals ∧
        let e := (if bits v 5 0 = 0 then b.strands else bits v 5 0, bits v 11 8)
        if x.arrivals = 0 ∧ x.seqArrived = 0 then (y.strandsExpect, y.seqExpect) = e else y.nextExpect = some e)) ∧
    (∀ L, L < 32 → Mask.has c.act L = true → Issued (.barst d k) s c →
      Results (.barst d k) s true d L (b.readN (b.statusAt k.toNat) 8 % 2 ^ 64))

/-- 11 R297 to R299, R291: a group barrier. A block that the group does not name, and a group that has broken, are told so; the
arrival of the last member starts the next phase, and the strand goes on. -/
def Obligations.GroupBarriersJoinBlocks : Prop :=
  ∀ (s : State) (c : Ctx) (b : Block) (l : Launch) (g : BitVec 8), s.block c.st.block = some b → s.launch b.launch = some l →
    c.f.resumed = false → Issued (.gbar g) s c →
    (s.memberOf b ∉ Tbl.get [] l.groups g.toNat → exec (.gbar g) s = .next (c.raiseWide .illegalOperand 0)) ∧
    (s.memberOf b ∈ Tbl.get [] l.groups g.toNat → g.toNat ∈ l.groupBroken → exec (.gbar g) s =
      .next (s.raiseTimeout s.cur s.curSlot (s.groupDetail c.st.block g.toNat (s.groupPhaseFor b g.toNat) s.dclk) s.dclk)) ∧
    (Tbl.get [] l.groups g.toNat = [s.memberOf b] → g.toNat ∉ l.groupBroken → Tbl.get [] l.groupArrived g.toNat = [] →
      s.strandsOf c.st.block = [s.cur] → c.st.number < 32 → c.st.block / 8 < 192 →
      covers (Tbl.get 0 b.groupLanes (groupKey g.toNat c.st.number) ||| c.f.mask) c.st.liveLanes = true →
      ∃ t, exec (.gbar g) s = .next t ∧ t.fragOf s.cur s.curSlot = some c.f.next ∧
        (t.launch b.launch).map (fun l => Tbl.get 0 l.groupPhase g.toNat) = some (Tbl.get 0 l.groupPhase g.toNat + 1))

/-- 11 R300 to R303, R313, 08 R241: the words that wait: at once where what they wait for has come, else their fragment is
held. 20 R440, R441, 11 R291, R313: the waits that expire. A wait that is not due, or a phase that is complete, stays as it is; the
record of one that expires has the tick of the expiry. -/
def Obligations.WaitingWordsHoldAndExpire : Prop :=
  (∀ (s : State) (c : Ctx) (b : Block) (m : BitVec 12) (q : BitVec 2) (sc : BitVec 3) (a d : BitVec 8) (L : Nat),
    s.block c.st.block = some b → c.act.lowest = some L →
    let n : DWord := BitVec.ofNat 64 ((c.plain true a).at L)
    let u := (c.plain false a).at L
    (Issued (.fwait m) s c → if c.st.flags &&& m = 0 then exec (.fwait m) s = .next (c.done c.st)
      else ∃ t, exec (.fwait m) s = .next t ∧ s.holds t (.flags m)) ∧
    (Issued (.twait q a) s c →
      ((b.counter q.toNat).2 < n → exec (.twait q a) s = .next (c.raiseWide .illegalOperand 0)) ∧
      (n ≤ (b.counter q.toNat).2 → n ≤ (b.counter q.toNat).1 → b.engineCause q.toNat n c.act = none →
        exec (.twait q a) s = .next ((c.done c.st).acquireCounter c.core c.st.block q.toNat n)) ∧
      (n ≤ (b.counter q.toNat).2 → (b.counter q.toNat).1 < n → ∃ t, exec (.twait q a) s = .next t ∧ s.holds t (.counter q.toNat n s.dclk s.nextFlight))) ∧
    (∀ H, H < 32 → Mask.has c.act H = true → Issued (.tget d q) s c → Results (.tget d q) s true d H (b.counter q.toNat).1.toNat) ∧
    (Issued (.fence sc) s c →
      ((sc = 0 ∨ s.releasable s.cur s.nextFlight (s.scopeFor (coreOf s.cur) sc.toNat) = true) → c.st.lost = 0 →
        ∃ t, exec (.fence sc) s = .next t ∧ t.fragOf s.cur s.curSlot = some c.f.next ∧
          (if sc = 0 then s else s.observed (coreOf s.cur) (s.scopeFor (coreOf s.cur) sc.toNat)).onlyStrand t s.cur) ∧
      (sc ≠ 0 → s.releasable s.cur s.nextFlight (s.scopeFor (coreOf s.cur) sc.toNat) = false →
        ∃ t, exec (.fence sc) s = .next t ∧ s.holds t (.fence sc.toNat s.nextFlight))) ∧
    (Issued (.mwait a) s c →
      (c.st.rightMwait = false → exec (.mwait a) s = .next (c.raiseWide .domain 0)) ∧
      (c.st.rightMwait = true → u = 0 → exec (.mwait a) s = .next (c.raiseWide .illegalOperand 0)) ∧
      (c.st.rightMwait = true → u ≠ 0 → c.st.monitor = none → exec (.mwait a) s = .next (c.done c.st)) ∧
      (∀ w, c.st.rightMwait = true → u ≠ 0 → c.st.monitor = some w →
        if w.fired || w.lost then exec (.mwait a) s = .next (c.done { c.st with monitor := none })
        else ∃ t, exec (.mwait a) s = .next t ∧ s.holds t (.mwait (s.dclk + BitVec.ofNat 64 u) (BitVec.ofNat 32 u)))) ∧
    (∀ ask g, c.st.rightMwait = true → askOf (.mon a) c.type = some ask →
      s.laneTarget c.st ask (Lanes.at 0 (c.source 1 true a).lanes64 L).toNat = .ok g → Issued (.mon a) s c →
      ∃ t fl, exec (.mon a) s = .next t ∧ t.flights = s.flights ++ [fl] ∧ fl.op = .mon ∧ fl.mask = 1#32 <<< L ∧
        (t.strand s.cur).map Strand.monitor = some none)) ∧
  (∀ (s : State) (c : Ctx) (a : BitVec 8), c.act = 0 → c.st.rightMwait = true → Issued (.mwait a) s c →
    exec (.mwait a) s = .next (c.done { c.st with monitor := none })) ∧
  (∀ (s : State) (bk k : Nat) (b : Block),
    (∀ first, s.block bk = some b → k < 16 → (b.barrier k).firstWait = some first → (b.barrier k).expired = false →
      let due := first.toNat + b.limitTicks ≤ s.dclk.toNat
      (¬due ∨ (b.barrier k).full = true → exec (.barrierWatchdogExpiry bk k) s = .next s) ∧
      (due → (b.barrier k).full = false → exec (.barrierWatchdogExpiry bk k) s =
        .next ((s.waiters bk (fun h => h == .bar k (b.barrier k).phase)).foldl
          (fun t h => t.raiseTimeout h.1 h.2 (s.barrierDetail bk k (b.barrier k) (b.barrier k).phase first)
            (first + BitVec.ofNat 64 b.limitTicks))
          (s.setBlock bk (b.setBarrier k { b.barrier k with expired := true }))))) ∧
    (∀ (sid : Nat) (slot : Bool) (st : Strand) (f : Frag), s.strand sid = some st → st.frag slot = some f →
      (∀ q n since from_, f.hold = .counter q n since from_ → s.block st.block = some b → (b.counter q).1 < n →
        (s.dclk.toNat < since.toNat + b.limitTicks → exec (.twaitTimeout sid slot) s = .next s) ∧
        (since.toNat + b.limitTicks ≤ s.dclk.toNat → exec (.twaitTimeout sid slot) s = .next (s.raiseTimeout sid slot
          (timeoutDetail since (s.liveStrands st.block) 0 (n.toNat % 2 ^ 32) 0 0 0 0 2 q) (since + BitVec.ofNat 64 b.limitTicks)))) ∧
      (∀ stop t m, f.hold = .mwait stop t → st.monitor = some m → m.fired = false → m.lost = false →
        (s.dclk < stop → exec (.mwaitExpiry sid slot) s = .next s) ∧
        (stop ≤ s.dclk → exec (.mwaitExpiry sid slot) s = .next ((s.setStrand sid { st with monitor := none }).raise sid slot f.pc
          (Raised.wide .mwaitTimeout (activeMask st f (opcodeOf f.word)) (BitVec.ofNat 512 t.toNat)) none false)))) ∧
    (∀ (r : Stream) (w : SeqWait), s.block bk = some b → b.seq.running = some r → b.seq.wait = some w →
      phasePassed (b.barrier w.k).phase w.phase = false → b.seq.halt = none → b.seq.aborting = none →
      (s.dclk.toNat < w.since.toNat + b.limitTicks → exec (.mwbTimeout bk) s = .next s) ∧
      (w.since.toNat + b.limitTicks ≤ s.dclk.toNat → exec (.mwbTimeout bk) s =
        .next ((s.modSeq bk (fun q => { q with halt := some 0 })).raiseSeq bk r.strand .barrierTimeout r.spc
          (s.barrierDetail bk w.k (b.barrier w.k) w.phase w.since)))))

/-- 11 R304, R307 to R309: an atomic of one lane at the own block's store: it answers the bytes it finds and leaves the new
value. 10 R267 to R270: an acquire load that promotes asks the cores of its scope before it is performed, and `atomsc` waits
for its ticket. -/
def Obligations.AtomicsAndPromotions : Prop :=
  (∀ (s : State) (f : Flight) (st : Strand) (x : Ask) (b : Block) (L off : Nat),
    s.flight f.id = some f → s.strand f.strand = some st → f.ask = some x → s.block st.block = some b →
    (∀ g ∈ s.flightsOf f.strand, g.pos < f.pos → ∀ w ∈ s.wordsNamed g g.localL, w ∉ s.wordsNamed f f.localL) →
    s.mayPerform f = true → L < 32 → f.mask = 1#32 <<< L →
    f.localL = f.mask → f.gangL = 0 → f.xlatL = 0 → f.reqs = [] → f.bad = [] → f.first = 0 → f.stop = 1 → f.got = [] → st.writable f →
    s.laneTarget st x (f.at_ 0 L) = .ok (.own off) → b.poisonedAt off f.size = false →
    (∀ i, i < (off % 4 + f.size + 3) / 4 → Tbl.find b.ecc (off / 4 + i) = none) →
    let old := b.readN off f.size
    let data (j : Nat) := (Lanes.at 0 (f.data.getD j []) L).toNat
    (∀ op t, f.op = .atom op t true → f.regs = 1 → f.wide = type64 t → ∃ u b2, exec (.localAccessComplete f.id) s = .next u ∧
      u.laneOf f.strand f.wide f.dst L = some old ∧ u.block st.block = some b2 ∧
      b2.readN off f.size = atomValue op t old (data 0) % 256 ^ f.size) ∧
    (∀ op t, f.op = .atom op t false → f.regs = 0 → ∃ u b2, exec (.localAccessComplete f.id) s = .next u ∧
      u.block st.block = some b2 ∧ b2.readN off f.size = atomValue op t old (data 0) % 256 ^ f.size) ∧
    (∀ w, f.op = .cas w → f.regs = 1 → f.wide = w → ∃ u b2, exec (.localAccessComplete f.id) s = .next u ∧
      u.laneOf f.strand f.wide f.dst L = some old ∧ u.block st.block = some b2 ∧
      b2.readN off f.size = if old = data 0 then data 1 % 256 ^ f.size else old) ∧
    (∀ t o y, atomValue 6 t o y = y ∧ atomValue 7 t o y = if y ≤ o then 0 else o + 1)) ∧
  (∀ (s : State) (c : Ctx) (d a : BitVec 8) (z : BitVec 1) (sc : BitVec 3),
    (∀ ask, askOf (.ldar d a z sc) c.type = some ask → c.act ≠ 0 → Issued (.ldar d a z sc) s c →
      (∀ L, L < 32 → Mask.has c.act L = true → ∃ g, s.laneTarget c.st ask (Lanes.at 0 (c.source 1 true a).lanes64 L).toNat = .ok g) →
      ∃ t fl, exec (.ldar d a z sc) s = .next t ∧ s.flew c fl t ∧ fl.promoting = true ∧ fl.scope = sc.toNat ∧ fl.acquire = true ∧
        fl.asking = s.promotes (c.st.agent s s.cur) sc.toNat ∧ s.mayPerform fl = false) ∧
    (∀ (f : Flight) (core : Nat), s.flight f.id = some f → f.promoting = true →
      (core ∈ f.asking → (∀ g ∈ s.flights, g.agent.core = core → g.op.writesMemory = true → ∀ r ∈ g.reqs,
          s.partVisible g 1 r = true → s.partVisible g f.scope r = true) →
        (5 ≤ f.scope → ∀ p ∈ s.peerStores, coreOf p.strand = core → p.copy.isSome = true) →
        ∃ t g, exec (.promotionRequest f.id core) s = .next t ∧ t.flight f.id = some g ∧ g.asking = f.asking.filter (· != core) ∧
          g.asked = f.asked ++ [core]) ∧
      (f.asking = [] → ∃ t, exec (.promotionAnswer f.id) s = .next t ∧ t.flight f.id = some { f with promoting := false } ∧
        (t.cluster (clusterOf f.agent.core)).clock = clockMax (s.cluster (clusterOf f.agent.core)).clock f.stamp)) ∧
    (∀ f : Flight, s.flight f.id = some f → opcodeOf f.word = 0x8C → f.ticket = none → f.xlatL = 0 →
      (s.flightsOf f.strand).all (fun g => f.pos ≤ g.pos || opcodeOf g.word != 0x8C || g.ticket.isSome) = true →
      ∃ t, exec (.atomscTicket f.id) s = .next t ∧ t.flight f.id = some { f with ticket := some s.nextTicket } ∧
        t.nextTicket = s.nextTicket + 1))

/-- 13 R315, R318, R319, R327, R329, R332: a copy whose shapes are valid, of one element size and count, aligned, inside their
windows, and whose context has room takes the next number, and D receives the number and its promise. A wrong shape raises
ILLEGAL_OPERAND, a wrong alignment MISALIGNED, and a full context QUEUE_QUOTA. -/
def Obligations.CopyWordsTakeTheNextNumber : Prop :=
  ∀ (s : State) (c : Ctx) (b : Block) (d g : BitVec 8) (x y : BitVec 4) (grp : Bool), s.block c.st.block = some b → c.act ≠ 0 →
    let src := Tbl.get 0 b.shapes y.toNat
    let dst := Tbl.get 0 b.shapes x.toNat
    let i := if grp then Instr.cpym d x y g else .cpy d x y
    let members := if grp then (s.launch b.launch).elim [] (fun l => Tbl.get [] l.groups g.toNat) else []
    let bytes := shCount src * shSize src
    let legal : Prop := shValid src = true ∧ shValid dst = true ∧ shSize src = shSize dst ∧ shCount src = shCount dst ∧ bytes ≤ 2 ^ 32 ∧
      (shTarget src = 1 → shTile src < b.tcount) ∧ (shTarget dst = 1 → shTile dst < b.tcount) ∧
      (grp = true → shTarget dst ≠ 0 ∧ members ≠ [])
    let aligned := shAligned src && shAligned dst
    let open_ := (b.copy.reqs.filter (fun r => !r.finished && !r.deposit)).length
    Issued i s c →
      (¬legal → exec i s = .next (c.raiseWide .illegalOperand 0)) ∧
      (legal → aligned = false → exec i s = .next (c.raiseWide .misaligned 0)) ∧
      (legal → aligned = true → s.sideWindow c.st.block b src = none → s.sideWindow c.st.block b dst = none →
        (b.copy.quota ≤ open_ → exec i s = .next (c.raiseWide .queueQuota 0)) ∧
        (open_ < b.copy.quota → (b.copy.reqs.filter (fun r => r.inQueue && !r.finished)).length < 8 → grp = false →
          ∃ t b2 r, exec i s = .next t ∧ t.fragOf s.cur s.curSlot = some c.f.next ∧ t.block c.st.block = some b2 ∧
            b2.copy.submitted = b.copy.submitted + 1 ∧ b2.copy.reqs = b.copy.reqs ++ [r] ∧ r.n = b.copy.submitted + 1 ∧ r.src = src ∧
            r.dst = dst ∧ r.finished = false ∧ r.promise = s.promise b c.core bytes 0 src dst ∧
            ∀ L, L < 32 → Mask.has c.act L = true → t.laneOf s.cur true d L = some (b.copy.submitted + 1).toNat ∧
              t.laneOf s.cur true (d + 2) L = some (s.promise b c.core bytes 0 src dst).toNat) ∧
        (open_ < b.copy.quota → (b.copy.reqs.filter (fun r => r.inQueue && !r.finished)).length < 8 → grp = true →
          (∀ m ∈ members, s.memberAt b.launch m = .waiting) →
          ∃ t b2 r, exec i s = .next t ∧ t.fragOf s.cur s.curSlot = some c.f.next ∧ t.block c.st.block = some b2 ∧
            b2.copy.reqs = b.copy.reqs ++ [r] ∧ r.n = b.copy.submitted + 1 ∧ r.group = some g.toNat ∧
            t.deposits.length = s.deposits.length + members.length ∧
            ∀ L, L < 32 → Mask.has c.act L = true → t.laneOf s.cur true d L = some (b.copy.submitted + 1).toNat))

/-- 13 R320 to R324, R329, R330, R334, R335, 08 R241: what the engine does with a segment: one that moves bytes inside the block
gives each destination element the bytes of its source element, and writes no other byte; any other, by way of the sides' own
functions; one that leaves its region is an error with its first address, and writes nothing; one that faults becomes a fix-up
entry. The entries are replayed once no other segment is left, and one that faults again is held, which the kernel or the
hypervisor hears of. A deposit whose source has been read is written into its member and completes the member's number. A
sleeping strand goes on, or has its estimate and PROMISE_MISS. -/
def Obligations.CopyEnginePerformsSegments : Prop :=
  ∀ (s : State) (k : Nat) (b : Block) (r : CopyReq) (i : Nat), s.block k = some b → b.copy.req r.n = some r →
    let z := shSize r.src
    let starts : Prop := b.copy.mayStart r = true ∧ s.copyGoesOn k r = true ∧ b.copy.fixups < 32 ∧ r.segs[i]? = some .todo
    let segsAre (t : State) (l : List SegState) : Prop := ∃ b2, t.block k = some b2 ∧ ∀ r2, b2.copy.req r.n = some r2 → r2.segs = l
    (∀ m len, starts → (segments r.src r.dst)[i]? = some (m, len) → r.group = none → shSize r.dst = z →
      shTarget r.src = 2 → shTarget r.dst = 2 →
      let from_ (j : Nat) := (shAt r.src (m + j)).toNat
      let to_ (j : Nat) := (shAt r.dst (m + j)).toNat
      ((∀ j, j < len → 0 ≤ shAt r.src (m + j) ∧ b.inRegion (from_ j) z = true ∧ b.poisonedAt (from_ j) z = false ∧
          ∀ w, w < (from_ j % 4 + z + 3) / 4 → Tbl.find b.ecc (from_ j / 4 + w) ≠ some true) →
        (∀ j, j < len → 0 ≤ shAt r.dst (m + j) ∧ b.inRegion (to_ j) z = true ∧ b.meetsStatus (to_ j) z = false) →
        ∃ t b2, exec (.copySegment k r.n.toNat i) s = .next t ∧ t.mem = s.mem ∧ segsAre t (r.segs.set i .done) ∧ t.block k = some b2 ∧
          (∀ o, (∀ j, j < len → o < to_ j ∨ to_ j + z ≤ o) → b2.byte o = b.byte o) ∧
          ((∀ j g, j < len → g < len → j ≠ g → to_ j + z ≤ to_ g ∨ to_ g + z ≤ to_ j) →
            ∀ j, j < len → b2.readN (to_ j) z = b.readN (from_ j) z)) ∧
      ((∃ j, j < len ∧ (shAt r.src (m + j) < 0 ∨ b.inRegion (from_ j) z = false)) →
        ∃ t b2, exec (.copySegment k r.n.toNat i) s = .next t ∧ t.mem = s.mem ∧
          segsAre t (r.segs.set i (.error .badWindow false (BitVec.ofInt 64 (shAt r.src m)))) ∧ t.block k = some b2 ∧
          b2.store = b.store)) ∧
    (∀ (s1 s2 s3 : State) (m len : Nat) (fr sp : List Spot) (x x2 : Option Xlat) (data : List Byte), starts →
      (segments r.src r.dst)[i]? = some (m, len) → r.group = none → s.side k b r.agent r.src m len false = (s1, .ok fr x) →
      s1.sideTurn r fr x z false = .goes → s1.side k b r.agent r.dst m len true = (s2, .ok sp x2) →
      s2.sideTurn r sp x2 z true = .goes → s2.readSide r.agent fr x z = (s3, some data) →
      exec (.copySegment k r.n.toNat i) s =
        .next (s.unlessFull (((((s3.noteTurn k r .goes).writeSide r.agent sp x2 z data).peerWrites k r sp).setSeg k r.n i .done).settleCopy
          k r.n))) ∧
    (∀ (s1 : State) (m len lo hi a : Nat) (e : Cause) (w : Bool), starts → (segments r.src r.dst)[i]? = some (m, len) →
      s.side k b r.agent r.src m len false = (s1, .fix e a lo hi w) → s1.block k = some b → s1.eventHeld = s.eventHeld →
      ∃ t b2 r2, exec (.copySegment k r.n.toNat i) s = .next t ∧ t.block k = some b2 ∧ b2.copy.req r.n = some r2 ∧
        r2.segs = r.segs.set i (.fix false e false (BitVec.ofNat 64 a) lo hi r.agent.asid r.agent.vmid w)) ∧
    (∀ s1 g, s.copyGoesOn k r = true → s.attempt k b r i = (s1, g) → (s1.block k).map Block.copy = some b.copy →
      (∀ f ∈ s1.flights, ∀ x y, f.op ≠ .fixq x y) → s1.eventHeld.length < 4096 →
      let replays (event : Instr) : Prop :=
        (g = .done → ∃ t, exec event s = .next t ∧ segsAre t (r.segs.set i .done)) ∧
        (∀ c d a lo hi as vm w, g = .fix false c d a lo hi as vm w →
          let u := s1.setSeg k r.n i (.fix true c d a lo hi as vm w)
          (w = true → exec event s = .next u) ∧
          (w = false → c ≠ .stage2 → ∃ id, (s1.strand r.strand = none → id = r.who.toNat) ∧
            exec event s = .next (u.post 2 c.code id r.ctx.toNat (r.n.toNat + a.toNat * 2 ^ 64))) ∧
          (w = false → c = .stage2 → ∃ h, exec event s = .next { u with hyper := s1.hyper ++ [h] } ∧ h.tract = r.agent.tract ∧
            h.request = r.n ∧ h.addr = a))
      (r.segs.any SegState.isTodo = false → (∀ j, (r.segs[j]?.any (fun g => g.isFix && !g.held)) = true ↔ j = i) →
        replays (.fixupReplay k r.n.toNat)) ∧
      (∀ c d a lo hi as vm, r.segs[i]? = some (.fix true c d a lo hi as vm true) → replays (.scannerHoldRetry k r.n.toNat i))) ∧
    (∀ (d : Deposit) (m len : Nat) (b2 : Block), s.deposits.find? (fun x => x.id == d.id) = some d → d.left = 0 →
      s.memberAt d.launch d.member = .live m → s.block m = some b2 → segments d.src d.dst = [(0, len)] → shTarget d.dst = 2 →
      shSize d.dst = shSize d.src → (∀ j, j < len * shSize d.src → (Tbl.find d.data j).isSome = true) →
      let to_ (j : Nat) := (shAt d.dst j).toNat
      let w := shSize d.src
      (∀ j, j < len → 0 ≤ shAt d.dst j ∧ b2.inRegion (to_ j) w = true ∧ b2.meetsStatus (to_ j) w = false) →
      ∃ t b3, exec (.multicastDeposit d.id) s = .next t ∧ t.mem = s.mem ∧ t.deposits = s.deposits.filter (fun x => x.id != d.id) ∧
        t.block m = some b3 ∧ (∀ o, (∀ j, j < len → o < to_ j ∨ to_ j + w ≤ o) → b3.byte o = b2.byte o) ∧
        (∀ q, b2.copy.req d.n = some q → q.deposit = true → ∀ q2, b3.copy.req d.n = some q2 → q2.finished = true) ∧
        ((∀ j g, j < len → g < len → j ≠ g → to_ j + w ≤ to_ g ∨ to_ g + w ≤ to_ j) →
          ∀ j e, j < len → e < w → b3.byte (to_ j + e) = Tbl.get 0 d.data (j * w + e))) ∧
    (∀ (sid : Nat) (slot quiet : Bool) (st : Strand) (f : Frag) (n t : DWord) (a : BitVec 8) (q : BitVec 1), s.strand sid = some st →
      st.frag slot = some f → f.hold = .promise n t quiet → st.block = k → decode f.word = .ok (.sleepu a q) → t ≤ s.dclk →
      st.stopped = false → st.halted = false → st.spilled = false → st.openFault = none →
      let m := activeMask st f (opcodeOf f.word)
      let e := s.estimate (b.copy.req n)
      let told (u : State) : Prop := u.fresh = s.fresh + 1 ∧ u.mem = s.mem ∧ u.fragOf sid slot = some f.next ∧
        (st.granules.getLsbD ((a.toNat + 2) / 8) = true → (a.toNat + 3) / 8 = (a.toNat + 2) / 8 → a.toNat + 3 < 192 →
          ∀ L, L < 32 → Mask.has m L = true → u.laneOf sid true (a + 2) L = some (e % 2 ^ 64))
      (n ≤ b.copy.tlc → b.engineCause 0 n m = none →
        ∃ u, exec (.promiseDue sid slot) s = .next u ∧ u.mem = s.mem ∧ u.blocks = s.blocks ∧ u.fragOf sid slot = some f.next) ∧
      (b.copy.tlc < n → quiet = true → ∃ u, exec (.promiseDue sid slot) s = .next u ∧ told u) ∧
      (b.copy.tlc < n → quiet = false → ∃ u, told u ∧ exec (.promiseDue sid slot) s = .next (u.raiseEnded sid slot f.pc
        (Raised.wide .promiseMiss m (BitVec.ofNat 512 (n.toNat + t.toNat * 2 ^ 64 + e * 2 ^ 128))))))

/-- 13 R333 to R336: the other words of the engine. A `fixq` completes at once where it leaves no entry to be replayed, and is in
flight until they have been replayed otherwise. What the spec leaves open of an estimate is a free value (log entry 4). -/
def Obligations.CopyStatusSleepAndShapes : Prop :=
  ∀ (s : State) (c : Ctx) (b : Block) (d a e : BitVec 8) (q : BitVec 1) (w k : BitVec 4) (L : Nat), s.block c.st.block = some b →
    c.act.lowest = some L →
    let one := (c.source 1 false a).at L
    let shape := Tbl.get 0 b.shapes k.toNat
    (Issued (.cpyq d a) s c → (∃ H, H < 32 ∧ Mask.has c.act H = true ∧ ((c.plain true a).at H = 0 ∨ b.copy.submitted.toNat < (c.plain true a).at H)) →
      exec (.cpyq d a) s = .next (c.raiseWide .illegalOperand 0)) ∧
    (Issued (.cpyq d a) s c → (∀ H, H < 32 → Mask.has c.act H = true → (c.plain true a).at H ≠ 0 ∧ (c.plain true a).at H ≤ b.copy.submitted.toNat) →
      ∃ t, exec (.cpyq d a) s = .next t ∧ t.fragOf s.cur s.curSlot = some c.f.next ∧
        ∀ H r, H < 32 → Mask.has c.act H = true → b.copy.req (BitVec.ofNat 64 ((c.plain true a).at H)) = r →
          (r = none → t.laneOf s.cur true d H = some (2 * 2 ^ 62)) ∧
          ((c.plain true a).at H + 256 ≤ b.copy.submitted.toNat → t.laneOf s.cur true d H = some (2 * 2 ^ 62)) ∧
          (∀ x, r = some x → x.finished = true → x.error = none → t.laneOf s.cur true d H = some (2 * 2 ^ 62))) ∧
    (Issued (.sleepu a q) s c → ∃ t, exec (.sleepu a q) s = .next t ∧ s.onlyStrand t s.cur ∧ s.holds t (.promise
      (BitVec.ofNat 64 ((c.plain true a).at L)) (BitVec.ofNat 64 ((c.plain true (a + 2)).at L)) (q == 1))) ∧
    (c.st.rightKernel = false → ∀ i ∈ [Instr.fixqRetry a e, .fixqFail a e], Issued i s c → exec i s = .next (c.raiseWide .permission 0)) ∧
    (c.st.rightKernel = true → ∀ p ∈ [(Instr.fixqRetry a e, false), (.fixqFail a e, true)], Issued p.1 s c →
      let x := (c.plain true a).at L
      let y := (c.plain false e).at L
      let u := (s.fixq p.2 x y).fixqSaved p.2 x y
      (u.fixqLeft x y ≤ s.fixqLeft x y → exec p.1 s = .next (c.over u)) ∧
      (s.fixqLeft x y < u.fixqLeft x y →
        ∃ t fl, exec p.1 s = .next t ∧ t.flights = u.flights ++ [fl] ∧ fl.op = .fixq x y ∧ fl.strand = s.cur ∧ t.mem = u.mem)) ∧
    (∀ (n m x y : Nat) (fl : Flight), s.block n = none → s.flights = [fl] → fl.op = .fixq x y →
      (s.fixqLeft x y = 0 → exec (.fixupReplay n m) s = .next (s.completeFlight fl)) ∧
      (s.fixqLeft x y ≠ 0 → exec (.fixupReplay n m) s = .next s)) ∧
    (Issued (.shset w k a) s c → ∃ t b2, exec (.shset w k a) s = .next t ∧ t.fragOf s.cur s.curSlot = some c.f.next ∧
      t.block c.st.block = some b2 ∧ (∀ j, j ≠ k.toNat → Tbl.get 0 b2.shapes j = Tbl.get 0 b.shapes j) ∧
      ∀ j, j < 16 → bits (Tbl.get 0 b2.shapes k.toNat).toNat (32 * j + 31) (32 * j) =
        if j = 0 then (if w = 0 then one else bits shape.toNat 31 0) % 16
        else if j ∈ [1, 4, 5, 14, 15] then 0
        else if j = w.toNat then one else bits shape.toNat (32 * j + 31) (32 * j)) ∧
    (∀ p ∈ [(Instr.shld k a, FlightOp.shapeLoad k.toNat, 0), (.shst k a, .shapeStore k.toNat, shape.toNat)],
      ∀ x g, askOf p.1 c.type = some x → Issued p.1 s c → s.laneTarget c.st x (Lanes.at 0 (c.plain true a).lanes64 L).toNat = .ok g →
        ∃ t fl, exec p.1 s = .next t ∧ s.flew c fl t ∧ fl.op = p.2.1 ∧ fl.image = p.2.2 ∧ fl.mask = 1#32 <<< L)

/-- 14 R344, R348, R357 to R359: the words that set the state of a stream, and its loops and jumps. A word that fails a check
halts the sequencer with the detail code of R348 and the registers as they were. -/
def Obligations.StreamWordsSetTheirState : Prop :=
  ∀ (s : State) (b : Block) (r : Stream) (im n : BitVec 4) (j o e : BitVec 3) (sg : BitVec 1) (q : BitVec 2) (u : BitVec 16) (v : BitVec 19)
    (off : BitVec 24), s.seqRuns b r →
    let x := r.x.getD j.toNat 0
    let next := r.spc + 4
    let to_ (r2 : Stream) (i : Instr) : Prop := ∃ t, exec i s = .next t ∧ t.streamOf s.cur = some r2 ∧
      t.seqnoOf s.cur = some (nextSeqno b.seq.seqno) ∧ t.mem = s.mem ∧ t.strands = s.strands
    let halts (i : Instr) (k : Nat) : Prop := exec i s = .next (s.haltSeq s.cur r k)
    let set (w : Word) : Stream := if j = 0 then r else { r with x := r.x.set j.toNat w }
    (if b.tcount < im.toNat + n.toNat + 1 then halts (.mta im n) 3
      else to_ { r.went next with tiles := some (BitVec.ofNat 24 (im.toNat * 2 ^ 20 + n.toNat * 2 ^ 16)) } (.mta im n)) ∧
    (let base : Word := x + BitVec.ofNat 32 (512 * u.toNat)
     if base.toNat % 512 ≠ 0 then halts (.mbind j u) 5 else to_ { r.went next with bbase := some base } (.mbind j u)) ∧
    (if 6 ≤ j.toNat ∨ 6 ≤ o.toNat ∨ 6 ≤ e.toNat then halts (.mfmt j o e sg) 4
      else to_ { r.went next with fmt := BitVec.ofNat 24 (j.toNat * 2 ^ 21 + o.toNat * 2 ^ 18 + e.toNat * 2 ^ 15 + sg.toNat * 2 ^ 14) }
        (.mfmt j o e sg)) ∧
    (seqFieldsOk (.mscl q im j) = true →
      (q = 0 → if b.tcount ≤ im.toNat then halts (.mscl q im j) 3 else to_ { r.went next with ascale := some im.toNat } (.mscl q im j)) ∧
      (q = 1 → if x.toNat % 512 ≠ 0 then halts (.mscl q im j) 5 else to_ { r.went next with bsbase := some x } (.mscl q im j)) ∧
      (q = 2 → to_ { r.went next with tsa := x } (.mscl q im j)) ∧ (q = 3 → to_ { r.went next with tsb := x } (.mscl q im j))) ∧
    (seqFieldsOk (.mset j q v) = true →
      to_ ((set (if q = 0 then v.signExtend 32 else if q = 1 then x + v.signExtend 32 else if q = 2 then BitVec.ofNat 32 (v.toNat * 2 ^ 13)
        else x + 512 * v.signExtend 32)).went next) (.mset j q v)) ∧
    (seqFieldsOk (.mloop sg j u) = true →
      let count : Word := if sg = 1 then x else BitVec.ofNat 32 (u.toNat + 1)
      if 4 ≤ r.loops.length ∨ count = 0 then halts (.mloop sg j u) 6
      else to_ { r.went next with loops := r.loops ++ [⟨next, count⟩] } (.mloop sg j u)) ∧
    (r.loops = [] → halts .mendl 6) ∧
    (∀ l rest, r.loops = rest ++ [l] → if l.count = 1 then to_ { r.went next with loops := rest } .mendl
      else to_ { r.went l.start with loops := rest ++ [{ l with count := l.count - 1 }] } .mendl) ∧
    to_ (r.went (r.spc + (off.signExtend 64 <<< 2))) (.mjmp off)

/-- 14 R346, R347, R359, 11 R287, R288: `marr` arrives on a barrier with its report and clears it, the last arrival of a phase
lets it flip two ticks later, one beyond the expectation is carried, `mwb` waits for the phase of its last arrival there, and `mstop` ends the stream and completes its
request. -/
def Obligations.StreamsArriveWaitAndStop : Prop :=
  ∀ (s : State) (b : Block) (r : Stream) (k : BitVec 4), s.seqRuns b r →
    let x := b.barrier k.toNat
    let report : DWord := BitVec.ofNat 64 ((nextSeqno b.seq.seqno).toNat * 2 ^ 32 + r.carry.toNat)
    (x.seqArrived + 1 < x.seqExpect → ∃ t b2 r2, exec (.marr k) s = .next t ∧ t.block s.cur = some b2 ∧
      b2.seq.seqno = nextSeqno b.seq.seqno ∧ b2.seq.running = some r2 ∧ r2.spc = r.spc + 4 ∧ r2.carry = 0 ∧
      Tbl.find r2.stok k.toNat = some x.phase ∧ (b2.barrier k.toNat).seqArrived = x.seqArrived + 1 ∧
      (b2.barrier k.toNat).pending = mergeReport x.pending report ∧ (b2.barrier k.toNat).phase = x.phase ∧ t.flips = s.flips) ∧
    (x.seqArrived + 1 = x.seqExpect → x.strandsExpect ≤ x.arrivals → (∀ f ∈ s.flips, ¬(f.1 = s.cur ∧ f.2.1 = k.toNat)) → ∃ t b2 r2,
      exec (.marr k) s = .next t ∧ t.block s.cur = some b2 ∧ b2.seq.running = some r2 ∧ r2.spc = r.spc + 4 ∧ r2.carry = 0 ∧
      (b2.barrier k.toNat).pending = mergeReport x.pending report ∧ (b2.barrier k.toNat).phase = x.phase ∧
      t.flips = s.flips ++ [(s.cur, k.toNat, s.dclk + 2)]) ∧
    (x.seqExpect ≠ 0 → x.seqExpect ≤ x.seqArrived → ∃ t b2 r2, exec (.marr k) s = .next t ∧ t.block s.cur = some b2 ∧
      b2.seq.running = some r2 ∧ r2.carry = 0 ∧ Tbl.find r2.stok k.toNat = some (x.phase + 1) ∧
      (b2.barrier k.toNat).pending = x.pending ∧ (b2.barrier k.toNat).carried = x.carried ++ [report]) ∧
    (∀ p, b.seq.wait = none → r.arrived ≠ some k.toNat → r.waiting = false → p = (match Tbl.find r.stok k.toNat with
        | some t => if phasePassed x.phase t then x.phase else t
        | none => x.phase) →
      ∃ t b2, exec (.mwb k) s = .next t ∧ t.block s.cur = some b2 ∧ b2.seq.wait = some ⟨k.toNat, p, s.dclk⟩ ∧ b2.seq.running = some r) ∧
    (∀ w, b.seq.wait = some w → phasePassed (b.barrier w.k).phase w.phase = false ∧ w.k = k.toNat → exec (.mwb k) s = .next s) ∧
    (∀ w, b.seq.wait = some w → w.k = k.toNat → phasePassed x.phase w.phase = true → ∃ t b2, exec (.mwb k) s = .next t ∧
      t.block s.cur = some b2 ∧ b2.seq.wait = none ∧ b2.seq.running = some (r.went (r.spc + 4))) ∧
    (∃ t b2, exec .mstop s = .next t ∧ t.block s.cur = some b2 ∧ b2.seq.running = none ∧ b2.seq.seqno = nextSeqno b.seq.seqno ∧
      (b.seq.finished = [] → r.n = b.seq.tlm + 1 → b2.seq.tlm = r.n) ∧
      (b2.seq.causes = if r.carry = 0 then b.seq.causes else b.seq.causes ++ [r.n]))

/-- 14 R342, R343, R348, R360 to R364: an operation word whose checks pass does one unit in a granted frame slot: a depth beat,
a row or a line, and after its last unit the stream goes on, with E = 1 arriving on its barrier (R346). Without a grant it
waits. `mzero` leaves every element of its accumulator zero. -/
def Obligations.ArrayWordsWorkByUnits : Prop :=
  ∀ (s : State) (b : Block) (r : Stream) (e : BitVec 1) (bar im : BitVec 4) (j x f : BitVec 3) (p : BitVec 10) (k : BitVec 16), s.seqRuns b r →
    let K := k.toNat + 1
    let base := (r.x.getD x.toNat 0).toNat
    let beats := (K + 15) / 16
    let y := b.barrier bar.toNat
    ∀ q ∈ [(Instr.mmul e bar j k, SeqCtx.mulChecks ⟨s, s.cur, b, r⟩ j.toNat K, r.depth, beats, b.mulBeat r j.toNat K r.depth),
           (.mzero e bar j, [(decide (b.acount ≤ j.toNat), 3)], 0, 1, (b.zeroAcc j.toNat, r.sg, [], 0, 0)),
           (.maddt e bar j im, [(decide (b.acount ≤ j.toNat) || decide (b.tcount ≤ im.toNat), 3)], r.row, 128,
             b.addRow r j.toNat im.toNat r.row),
           (.mout e bar j x f p, [(decide (b.acount ≤ j.toNat), 3), (base % 64 != 0 || decide (64 * p.toNat < 128 * outBytes f.toNat) ||
             !b.outOk base (64 * p.toNat * 127 + 128 * outBytes f.toNat), 5)], r.row, 128, b.outRow r j.toNat f.toNat base p.toNat r.row),
           (.mmax e bar j x, [(decide (b.acount ≤ j.toNat), 3), (base % 64 != 0 || !b.outOk base 512, 5)], r.row, 128,
             b.maxRow r j.toNat base r.row),
           (.mtrn e bar im x, [(decide (b.tcount ≤ im.toNat), 3), (base % 512 != 0 || !b.inColumn base 32768, 5)], r.col, 64,
             b.trnLine r im.toNat base r.col)],
      seqFieldsOk q.1 = true → q.2.2.1 < q.2.2.2.1 →
        (∀ n, firstHalt q.2.1 = some n → exec q.1 s = .next (s.haltSeq s.cur r n)) ∧
        (firstHalt q.2.1 = none → s.granted s.cur = false → exec q.1 s = .next (s.grantArray (s.cur / 8))) ∧
        (firstHalt q.2.1 = none → s.granted s.cur = true →
          (e = 0 ∨ q.2.2.1 + 1 < q.2.2.2.1 ∨ y.seqArrived + 1 < y.seqExpect) → ∃ t b2 r2, exec q.1 s = .next t ∧ t.block s.cur = some b2 ∧
          b2.acc = q.2.2.2.2.1.acc ∧ b2.store = q.2.2.2.2.1.store ∧ b2.tiles = b.tiles ∧ t.mem = s.mem ∧ b2.seq.running = some r2 ∧
          r2.sg = q.2.2.2.2.2.1 ∧
          (q.2.2.1 + 1 < q.2.2.2.1 → r2.spc = r.spc ∧ b2.seq.seqno = b.seq.seqno ∧ r2.busy = true ∧
            r2.depth + r2.row + r2.col = r.depth + r.row + r.col + 1) ∧
          (q.2.2.1 + 1 = q.2.2.2.1 → r2.spc = r.spc + 4 ∧ b2.seq.seqno = nextSeqno b.seq.seqno ∧ r2.busy = false ∧
            (e = 1 → r2.carry = 0 ∧ Tbl.find r2.stok bar.toNat = some y.phase ∧ (b2.barrier bar.toNat).seqArrived = y.seqArrived + 1 ∧
              (b2.barrier bar.toNat).phase = y.phase))) ∧
      ∀ y z, y < 128 → z < 128 → (b.zeroAcc j.toNat).acc_ j.toNat y z = ⟨0, false⟩

/-- 14 R342, R348, R351 to R356: the strand words that start, query, stop and resume streams, and the sequencer's own steps. -/
def Obligations.StreamsAreStartedAndFetched : Prop :=
  ∀ (s : State) (c : Ctx) (b : Block) (d a e : BitVec 8) (L : Nat), c.act.lowest = some L →
    let x := (c.plain true a).at L
    let n := b.seq.submitted + 1
    let pair (t : State) (v : DWord) : Prop := ∀ H, H < 32 → Mask.has c.act H = true → t.laneOf s.cur true d H = some v.toNat
    (s.block c.st.block = some b →
      (∀ p ∈ [(Instr.mgo d a e, 4), (.mres d a, 256), (.mabort d a, 256)], Issued p.1 s c →
        (x % p.2 ≠ 0 → exec p.1 s = .next (c.raise s { Raised.wide .misaligned c.act 0 with addr := BitVec.ofNat 64 x })) ∧
        (x % p.2 = 0 → addrKind x ≠ 0 →
          exec p.1 s = .next (c.raise s { Raised.wide .badWindow c.act 0 with addr := BitVec.ofNat 64 x }))) ∧
      (addrKind x = 0 → b.seq.full = true → (x % 4 = 0 → Issued (.mgo d a e) s c → exec (.mgo d a e) s = .next (c.raiseWide .queueQuota 0)) ∧
        (x % 256 = 0 → Issued (.mres d a) s c → exec (.mres d a) s = .next (c.raiseWide .queueQuota 0))) ∧
      (addrKind x = 0 → x % 4 = 0 → b.seq.full = false → Issued (.mgo d a e) s c → ∃ t b2 r, exec (.mgo d a e) s = .next t ∧
        t.fragOf s.cur s.curSlot = some c.f.next ∧ pair t n ∧ t.block c.st.block = some b2 ∧ b2.seq.submitted = n ∧
        b2.seq.queued = b.seq.queued ++ [r] ∧ r.n = n ∧ r.spc = BitVec.ofNat 64 x ∧ r.sq = c.f.q ∧ r.loading = false ∧
        ∀ y, y < 128 → r.sg.getD y 0 = rowSeed (BitVec.ofNat 32 ((c.plain false e).at L)) y) ∧
      (addrKind x = 0 → x % 256 = 0 → b.seq.full = false → Issued (.mres d a) s c → ∃ t b2 r fl, exec (.mres d a) s = .next t ∧ pair t n ∧
        t.block c.st.block = some b2 ∧ b2.seq.queued = b.seq.queued ++ [r] ∧ r.n = n ∧ r.loading = true ∧ t.flights = s.flights ++ [fl] ∧
        fl.op = .mres n ∧ fl.mask = 1#32 <<< L) ∧
      (addrKind x = 0 → x % 256 = 0 → Issued (.mabort d a) s c →
        (b.seq.running = none → b.seq.queued = [] → ∃ t, exec (.mabort d a) s = .next t ∧ pair t 0 ∧ t.flights = s.flights) ∧
        (∀ r, b.seq.running = some r → ∃ t b2 fl, exec (.mabort d a) s = .next t ∧ pair t r.n ∧ t.block c.st.block = some b2 ∧
          b2.seq.aborting = some b.seq.submitted ∧ t.flights = s.flights ++ [fl] ∧ fl.op = .mabort ∧ fl.mask = 1#32 <<< L)) ∧
      (Issued (.mq d) s c → ∃ t, exec (.mq d) s = .next t ∧ pair t (BitVec.ofNat 64 (s.seqStatus c.st.block b.seq)))) ∧
    (∀ k r rest, s.block k = some b → b.seq.running = none → b.seq.queued = r :: rest → b.seq.aborting = none → s.preempting k = false →
      r.loading = false → r.malformed = false → ∃ t b2, exec (.seqStreamStart k) s = .next t ∧ t.block k = some b2 ∧
        b2.seq.running = some r ∧ b2.seq.queued = rest ∧ b2.seq.halt = none ∧ b2.seq.seqno = r.seqno.getD b.seq.seqno) ∧
    (∀ k r s1 w i, s.block k = some b → b.seq.pend = none → b.seq.running = some r → b.seq.halt = none → b.seq.aborting = none →
      r.ready = none → s.board.stopped = false → s.seqGoesOn k r = true → r.spc.toNat < 2 ^ 57 →
      s.fetchWord r.agent r.spc = (s1, .ok w) → s1.block k = some b → decodeSeq w = .ok i →
      ∃ t, exec (.seqFetch k) s = .next t ∧ t.streamOf k = some { r with ready := some w } ∧ t.mem = s1.mem) ∧
    (∀ core, (s.core core).arraySlot ≠ s.frameSlot → ∃ t, exec (.arraySlotGrant core) s = .next t ∧
      (t.core core).arraySlot = s.frameSlot ∧ ∀ j, (t.core core).arrayFor = some j → j < 8)

/-- 16 R373 to R375, R379 to R390: a stochastic request whose streams are in range, of the block's length and not correlated
takes the next number, and its destination's tags at once; with no active lane it is complete when those before it are (R376). A
shorter stream raises STREAM_LENGTH, a correlated one CORRELATED_MIX. -/
def Obligations.StochasticRequestsAreSubmitted : Prop :=
  ∀ (s : State) (c : Ctx) (b : Block) (d a e x : BitVec 6) (v w : BitVec 8) (p r : BitVec 1) (n : BitVec 4) (k : BitVec 5),
    s.block c.st.block = some b →
    let z := b.stoch
    let reg (run : Bool) (y : BitVec 6) (L : Nat) := z.reg (zAt run y L)
    let one (y : BitVec 6) (L : Nat) := (reg true y L).classes
    let two (L : Nat) := (reg (r == 1) e L).classes
    let apart (L : Nat) : Prop := one a L &&& two L = 0
    let mixes := [(true, a), (r == 1, e)]
    ∀ q ∈ [(Instr.zenc d v p n, ([] : List (Bool × BitVec 6)), some d, fun _ : Nat => True, fun _ : Nat => 1#16 <<< n.toNat),
           (.zregen d a n, [(true, a)], some d, fun _ => True, fun _ => 1#16 <<< n.toNat),
           (.zand d a r e, mixes, some d, apart, fun L => one a L ||| two L), (.zxnor d a r e, mixes, some d, apart, fun L => one a L ||| two L),
           (.zmin d a r e, mixes, some d, fun L => one a L = two L ∧ popBits (one a L).toNat = 1, fun L => one a L ||| two L),
           (.zmux d a e x, [(true, a), (true, e), (false, x)], some d,
             fun L => one a L &&& (reg false x L).classes = 0 ∧ one e L &&& (reg false x L).classes = 0,
             fun L => one a L ||| one e L ||| (reg false x L).classes),
           (.zdec w a p, [(true, a)], none, fun _ => True, fun _ => 0), (.zcnt w a, [(true, a)], none, fun _ => True, fun _ => 0),
           (.zdot w p a e, [(true, a), (false, e)], none, fun L => one a L &&& (reg false e L).classes = 0, fun _ => 0),
           (.ztop w v k, [], none, fun _ => True, fun _ => 0)],
      Issued q.1 s c → (∀ y ∈ q.2.2.1, b.zOk c.act true y = true) →
        (c.streamsOk b q.2.1 → c.act = 0 → z.reqs = [] → ∃ t b2, exec q.1 s = .next t ∧ t.fragOf s.cur s.curSlot = some c.f.next ∧
          t.flights = s.flights ∧ t.block c.st.block = some b2 ∧ b2.stoch.submitted = z.submitted + 1 ∧ b2.stoch.reqs = [] ∧
          b2.stoch.tls = z.submitted + 1 ∧ b2.stoch.z = z.z) ∧
        (c.streamsOk b q.2.1 → c.act ≠ 0 → (∀ y, z.reqs.head? = some y → y.mask ≠ 0) →
          (∀ L, L < 32 → Mask.has c.act L = true → q.2.2.2.1 L) → ∃ t b2 fl rq, exec q.1 s = .next t ∧
          t.fragOf s.cur s.curSlot = some c.f.next ∧ t.block c.st.block = some b2 ∧ b2.stoch.submitted = z.submitted + 1 ∧
          b2.stoch.reqs = z.reqs ++ [rq] ∧ rq.n = z.submitted + 1 ∧ rq.mask = c.act ∧ rq.lb = z.lb ∧ rq.seeds = z.seeds ∧
          t.flights = s.flights ++ [fl] ∧ fl.op = .stream (z.submitted + 1) ∧ rq.flight = fl.id ∧
          ∀ y ∈ q.2.2.1, ∀ L, L < 32 → Mask.has c.act L = true → (b2.stoch.reg (y.toNat + L)).len = lenCode z.lb ∧
            (b2.stoch.reg (y.toNat + L)).classes = q.2.2.2.2 L ∧ (b2.stoch.reg (y.toNat + L)).bits = (z.reg (y.toNat + L)).bits) ∧
        ((∃ y ∈ q.2.1, b.zOk c.act y.1 y.2 = false) → exec q.1 s = .next (c.raiseWide .illegalOperand 0)) ∧
        ((∀ y ∈ q.2.1, b.zOk c.act y.1 y.2 = true) → (∃ y ∈ q.2.1, ∃ L, L < 32 ∧ Mask.has c.act L = true ∧ (reg y.1 y.2 L).len ≠ lenCode z.lb) →
          ∃ D, exec q.1 s = .next (c.raiseWide .streamLength D)) ∧
        (c.streamsOk b q.2.1 → (∃ L, L < 32 ∧ Mask.has c.act L = true ∧ ¬q.2.2.2.1 L) →
          ∃ D, exec q.1 s = .next (c.raiseWide .correlatedMix D))

/-- 16 R374, R376, R378, R384 to R390: the oldest request of a block, in a slot given to its context, reads its sources once, writes
four stream words in a clk, and with its last word has written the bits of its streams or the values of its lanes, and completes its
number. 16 R369, R371, R382, R383, R389, R376: the words that act at once, and the giving of the engine's slots. -/
def Obligations.StochasticRequestsAndState : Prop :=
  (∀ (s : State) (bk : Nat) (b : Block) (q : ZReq) (rest : List ZReq) (f : Flight) (st : Strand), s.block bk = some b → b.stoch.reqs = q :: rest →
    s.preempting bk = false → s.stochServed bk = true → (∀ i, Tbl.find b.zEcc i = none) → s.flight q.flight = some f → s.strand f.strand = some st →
    q.bad = 0 → q.lb = 256 ∨ q.lb = 1024 ∨ q.lb = 4096 → (∀ y, rest.head? = some y → y.mask ≠ 0) →
    let N := q.lb
    let of (i : Nat) : Nat := (b.stoch.reg i).bits.toNat % 2 ^ N
    let src (L : Nat) := (Lanes.at 0 q.src L).toNat
    let seed (n : BitVec 4) := (q.seeds.getD n.toNat 0).toNat
    let event := Instr.stochasticRequestComplete bk
    let lanes := Mask.lanes q.mask
    let at_ := if q.begun then q.next else 0
    let word (x i : Nat) : Nat := bits x (256 * (i % (N / 256)) + 255) (256 * (i % (N / 256)))
    let out (d : BitVec 6) (g : Nat → Nat) := lanes.map (fun L => (d.toNat + L, g L))
    let written (z : Sys2Proof.Machine.Stoch) (d : BitVec 6) (g : Nat → Nat) (n : Nat) : Prop := ∀ i, i < n →
      ∀ L, lanes[i / (N / 256)]? = some L → word (z.reg (d.toNat + L)).bits.toNat i = word (g L) i
    let goesOn (b2 : Block) (q2 : ZReq) : Prop := b2.stoch.reqs = q2 :: rest ∧ q2.begun = true ∧ q2.next = at_ + 4 ∧
      (q2.n, q2.mask, q2.bad, q2.flight) = (q.n, q.mask, q.bad, q.flight) ∧ b2.stoch.tls = b.stoch.tls
    let ends (t : State) (b2 : Block) : Prop := b2.stoch.tls = q.n ∧ b2.stoch.reqs = rest ∧ t.flight q.flight = none
    let streams (d : BitVec 6) (g : Nat → Nat) : Prop := f.regs = 0 → ∃ t b2, exec event s = .next t ∧ t.block bk = some b2 ∧
      (at_ + 4 < q.total → ∃ q2, goesOn b2 q2 ∧ q2.out = out d g ∧ written b2.stoch d g (at_ + 4)) ∧
      (q.total ≤ at_ + 4 → ends t b2 ∧
        ∀ L, L < 32 → Mask.has q.mask L = true → (b2.stoch.reg (d.toNat + L)).bits.toNat = g L % 2 ^ N) ∧
      ∀ i, (∀ L, L < 32 → Mask.has q.mask L = true → i ≠ d.toNat + L) → b2.stoch.reg i = b.stoch.reg i
    let values (g : Nat → Nat) : Prop := f.regs = 1 → f.wide = false → st.writable f → ∃ t b2, exec event s = .next t ∧
      t.block bk = some b2 ∧ b2.stoch.z = b.stoch.z ∧
      (at_ + 4 < q.total → ∃ q2, goesOn b2 q2 ∧ q2.out = [] ∧
        ∀ L, L < 32 → Mask.has q.mask L = true → (Lanes.at 0 q2.vals L).toNat % 2 ^ 32 = g L % 2 ^ 32) ∧
      (q.total ≤ at_ + 4 → ends t b2 ∧
        ∀ L, L < 32 → Mask.has q.mask L = true → t.laneOf f.strand false f.dst L = some (g L % 2 ^ 32))
    (q.begun = true → (∀ d g, q.total = lanes.length * (N / 256) → q.out = out d g → written b.stoch d g q.next → streams d g) ∧
      ∀ g, q.out = [] → (∀ L, L < 32 → Mask.has q.mask L = true → (Lanes.at 0 q.vals L).toNat % 2 ^ 32 = g L % 2 ^ 32) → values g) ∧
    (q.begun = false → ∀ (d a x y : BitVec 6) (v w : BitVec 8) (p r : BitVec 1) (n : BitVec 4) (k : BitVec 5),
      let other (L : Nat) := of (zAt (r == 1) x L)
      (decode q.word = .ok (.zenc d v p n) → streams d (fun L => zEncode (threshold (p == 1) (src L)) (seed n) N)) ∧
      (decode q.word = .ok (.zregen d a n) → streams d (fun L => zEncode (popBits (of (a.toNat + L)) * 65536 / N) (seed n) N)) ∧
      (decode q.word = .ok (.zand d a r x) ∨ decode q.word = .ok (.zmin d a r x) → streams d (fun L => of (a.toNat + L) &&& other L)) ∧
      (decode q.word = .ok (.zxnor d a r x) → streams d (fun L => (2 ^ N - 1) ^^^ (of (a.toNat + L) ^^^ other L))) ∧
      (decode q.word = .ok (.zmux d a x y) → streams d (fun L =>
        (of (x.toNat + L) &&& of y.toNat) ||| (of (a.toNat + L) &&& (2 ^ N - 1 - of y.toNat)))) ∧
      (decode q.word = .ok (.zcnt w a) → values (fun L => popBits (of (a.toNat + L)))) ∧
      (decode q.word = .ok (.zdec w a p) → values (fun L =>
        if p = 1 then ratio32 (2 * (popBits (of (a.toNat + L)) : Int) - N) N else ratio32 (popBits (of (a.toNat + L))) N)) ∧
      (decode q.word = .ok (.zdot w p a x) → values (fun L => (Lanes.at 0 q.acc L).toNat +
        popBits (if p = 0 then of (a.toNat + L) &&& of x.toNat else (2 ^ N - 1) ^^^ (of (a.toNat + L) ^^^ of x.toNat)))) ∧
      (decode q.word = .ok (.ztop w v k) → values (fun L =>
        let order := rankLanes q.type src (Mask.lanes q.mask)
        if (Mask.lanes q.mask).findIdx (fun M => M == L) ≤ k.toNat then order.getD ((Mask.lanes q.mask).findIdx (fun M => M == L)) 0
        else 0xFFFFFFFF)))) ∧
  (∀ (s : State) (c : Ctx) (b : Block) (l w v : BitVec 8) (n : BitVec 4) (a : BitVec 6), s.block c.st.block = some b →
    let on (t : State) (z : Sys2Proof.Machine.Stoch) : Prop := t.fragOf s.cur s.curSlot = some c.f.next ∧ (t.block c.st.block).map Block.stoch = some z
    (Issued (.zlen l) s c → ∃ t, exec (.zlen l) s = .next t ∧ on t { b.stoch with lb := if l = 0 then 256 else if l = 1 then 1024 else 4096 }) ∧
    (∀ L, c.act.lowest = some L → Issued (.zseed n v) s c → ∃ t, exec (.zseed n v) s = .next t ∧ on t { b.stoch with
      seeds := b.stoch.seeds.set n.toNat (if (c.source 1 false v).at L % 65536 = 0 then resetSeed n.toNat
        else BitVec.ofNat 16 ((c.source 1 false v).at L)) }) ∧
    (Issued (.zcls w a) s c → b.zOk c.act true a = true → ∀ L, L < 32 → Mask.has c.act L = true → (b.stoch.reg (a.toNat + L)).len < 4 →
      Results (.zcls w a) s false w L ((if (b.stoch.reg (a.toNat + L)).poison then 2 ^ 18 else 0) + (b.stoch.reg (a.toNat + L)).len * 2 ^ 16 +
        (b.stoch.reg (a.toNat + L)).classes.toNat)) ∧
    (Issued (.zcls w a) s c → b.zOk c.act true a = false → exec (.zcls w a) s = .next (c.raiseWide .illegalOperand 0)) ∧
    (∀ core, (s.core core).stochSlot ≠ s.stochFrame → ∃ t, exec (.stochasticSlotGrant core) s = .next t ∧
      (t.core core).stochSlot = s.stochFrame ∧ ∀ j, (t.core core).stochFor = some j → j < 8))

/-- 18 R406, R408: a gate call checks the fragment, the gate stack and the descriptor, and then puts what the strand runs under
on the gate stack and goes to the entry under the descriptor's identifier, space and rights; a gate return takes them back. -/
def Obligations.GatesChangeTheDomain : Prop :=
  ∀ (s s1 : State) (c : Ctx) (a : BitVec 8) (fr : GateFrame),
    let d := s.dpr c.core c.domSlot
    let g := c.lowest false a % 2 ^ 32
    let place := bits d 255 192 + 32 * g
    let e := s.readN place 32
    let entry : DWord := BitVec.ofNat 64 (bits e 255 192)
    (Issued (.gcall a) s c →
      (c.st.lone s.curSlot = false ∨ c.st.noneArrived = false ∨ s.slotSealed c.core c.domSlot = true ∨ bits d 191 176 ≤ g ∨
        4 ≤ c.st.gates.length → exec (.gcall a) s = .next (c.raiseWide .gate 0)) ∧
      (c.st.lone s.curSlot = true → c.st.noneArrived = true → s.slotSealed c.core c.domSlot = false → g < bits d 191 176 →
        c.st.gates.length < 4 →
        let read := s.consume c.core (some c.domSlot) (if inHbm place then (List.range 32).map (place + ·) else [])
        (∀ u, read = (u, false) → exec (.gcall a) s = .next (c.raise u (Raised.wide .poisonConsumed c.act 0))) ∧
        (read = (s, true) → bits e 0 0 = 0 ∨ zeroFields e [(127, 64), (47, 40), (37, 32), (19, 1)] = false ∨
          s.sealedDomain (bits e 31 20) = true → exec (.gcall a) s = .next (c.raiseWide .gate 0)) ∧
        (read = (s, true) → bits e 0 0 = 1 → zeroFields e [(127, 64), (47, 40), (37, 32), (19, 1)] = true →
          s.sealedDomain (bits e 31 20) = false → c.targetsPass c.f.mask (fun _ => entry) s1 → c.st.atJoin (c.f.went entry) = false →
          ∃ t st, exec (.gcall a) s = .next t ∧ s1.onlyStrand t s.cur ∧ t.strand s.cur = some st ∧
            st.frag s.curSlot = some (c.f.went entry) ∧ st.gates = c.st.gates ++
              [⟨c.f.pc + 4, c.st.ident, c.st.asid, c.st.groot, c.st.rightMwait, c.st.rightKernel, BitVec.ofNat 16 g⟩] ∧
            st.ident.toNat = bits e 31 20 ∧ st.asid.toNat = bits e 63 48 ∧ st.groot.toNat = bits e 191 128 ∧
            st.rightMwait = e.testBit 39 ∧ st.rightKernel = e.testBit 38 ∧ st.v = c.st.v ∧ st.o = c.st.o ∧ st.p = c.st.p))) ∧
    (Issued .gret s c →
      (c.st.lone s.curSlot = false ∨ c.st.gates = [] → exec .gret s = .next (c.raiseWide .gate 0)) ∧
      (c.st.lone s.curSlot = true → c.st.gates.getLast? = some fr → c.targetsPass c.f.mask (fun _ => fr.ret) s1 →
        c.st.atJoin (c.f.went fr.ret) = false → ∃ t st, exec .gret s = .next t ∧ s1.onlyStrand t s.cur ∧ t.strand s.cur = some st ∧
          st.frag s.curSlot = some (c.f.went fr.ret) ∧ st.gates = c.st.gates.dropLast ∧
          (st.ident, st.asid, st.groot, st.rightMwait, st.rightKernel) = (fr.ident, fr.asid, fr.groot, fr.mwait, fr.kernel) ∧
          st.v = c.st.v ∧ st.o = c.st.o ∧ st.p = c.st.p))

/-- 18 R409: what the three kinds of `didq` answer, in every active lane. 18 R410, R411: a `dpset` is checked against the state
that the earlier ones leave, and its setting waits; what it changes then, and when. -/
def Obligations.DomainQueriesAndSettings : Prop :=
  (∀ (s : State) (c : Ctx) (d a : BitVec 8) (L : Nat), L < 32 → Mask.has c.act L = true →
    let dpr := s.dpr c.core c.domSlot
    let x := c.lowest false a
    (Issued (.didqSelf d) s c → c.domSlot < 4 → c.st.gates.length < 8 → ∃ v, Results (.didqSelf d) s false d L v ∧ bits v 31 20 = bits dpr 11 0 ∧
      bits v 19 17 = c.st.gates.length ∧ v.testBit 16 = c.st.rightMwait ∧ v.testBit 15 = c.st.rightKernel ∧
      v.testBit 14 = dpr.testBit 24 ∧ bits v 13 12 = c.domSlot ∧ bits v 11 0 = c.st.ident.toNat) ∧
    (Issued (.didqGate d) s c → c.st.gates = [] → Results (.didqGate d) s false d L 0) ∧
    (∀ g, Issued (.didqGate d) s c → c.st.gates.getLast? = some g → c.st.gates.length < 16 → ∃ v, Results (.didqGate d) s false d L v ∧
      bits v 31 16 = g.gate.toNat ∧ bits v 15 12 = c.st.gates.length ∧ bits v 11 0 = g.ident.toNat) ∧
    (Issued (.didqDpr d a) s c →
      (c.st.rightKernel = false → exec (.didqDpr d a) s = .next (c.raiseWide .permission 0)) ∧
      (c.st.rightKernel = true → 191 < bits x 7 0 → exec (.didqDpr d a) s = .next (c.raiseWide .illegalOperand 0)) ∧
      (c.st.rightKernel = true → bits x 7 0 ≤ 191 → Results (.didqDpr d a) s false d L
        (bits (s.dpr (bits x 7 0) (bits x 9 8)) (32 * L + 31) (32 * L))))) ∧
  ((∀ (s : State) (c : Ctx) (t a : BitVec 8) (im : BitVec 4),
    ∀ p ∈ [(Instr.dpsetDpr t a im, 0, 32), (.dpsetSub t a im, 1, 4), (.dpsetSeal t a im, 2, 1)], Issued p.1 s c →
      let x : Setting := ⟨s.nextFlight, p.2.1, t.toNat, im.toNat, lanesImage (c.plain false a) p.2.2, s.dclk + 64⟩
      let before := s.settings.foldl State.setRegister s
      let after := before.setRegister x
      (c.st.rightKernel = false → exec p.1 s = .next (c.raiseWide .permission 0)) ∧
      (c.st.rightKernel = true → after.registersOk x = false → exec p.1 s = .next (c.raiseWide .illegalOperand 0)) ∧
      (c.st.rightKernel = true → after.registersOk x = true → (before.slotsOf after x).any (fun p => s.slotBusy p.1 p.2) = true →
        exec p.1 s = .next (c.raiseWide .domain 0)) ∧
      (c.st.rightKernel = true → after.registersOk x = true → (before.slotsOf after x).any (fun p => s.slotBusy p.1 p.2) = false →
        ∃ u, exec p.1 s = .next u ∧ u.settings = s.settings ++ [x] ∧ u.fragOf s.cur s.curSlot = some c.f.next ∧ u.cores = s.cores ∧
          u.clusters = s.clusters ∧ u.sealed = s.sealed ∧ u.mem = s.mem)) ∧
  (∀ (s : State) (x : Setting), s.settings.find? (fun y => y.id == x.id) = some x →
    ((s.settings.find? (fun y => y.kind == x.kind && y.target == x.target) ≠ some x ∨ x.kind ≠ 1 ∧ s.dclk < x.due) →
      exec (.dpsetEffect x.id) s = .next s) ∧
    (s.settings.find? (fun y => y.kind == x.kind && y.target == x.target) = some x → x.kind = 1 ∨ x.due ≤ s.dclk → s.settingLots x = [] →
      ∃ u, exec (.dpsetEffect x.id) s = .next u ∧ u.settings = s.settings.filter (fun y => y.id != x.id) ∧
        (x.kind = 0 → (u.core x.target).dpr = (s.core x.target).dpr.set x.index x.image) ∧
        (x.kind = 1 → (u.cluster x.target).subs = (s.cluster x.target).subs.set x.index (subKept x.index (x.image.setWidth 128))) ∧
        (x.kind = 2 → u.sealed = s.sealed.set x.index (x.image.setWidth 32)))))

/-- 19 R413 to R421, R435: `trap` and `brk` end, and raise their cause word-wide with the stopping PC after them; the record,
final when no word is in flight, is kept while the strand halts and is delivered otherwise: to the trap vector, with MODE 0 at
TVEC and what the handler overwrites saved, or to the resident kernel. -/
def Obligations.TrapsEnterTheVector : Prop :=
  ∀ (s : State) (c : Ctx) (code : BitVec 16) (n : BitVec 8),
    (s.flightsOf s.cur = [] → c.st.openFault = none →
      ∀ p ∈ [(Instr.trap code, Cause.softTrap, code.toNat, c.st.halted), (.brk n, .break, n.toNat, c.st.halted || c.st.debug)],
        Issued p.1 s c →
        let r : Record := {
          cause := p.2.1, wordWide := true, seq := false, frag := s.curSlot, mask := c.act, secondary := 0, seqAddr := 0,
          wordPc := c.f.pc, pc := c.f.next.pc, header := c.f.next.header, index := c.f.next.index, restart := 255,
          oplog := (c.st.opLog.filter (fun e => e.replay != 0)).length, halted := p.2.2.2, addr := 0, time := s.dclk,
          detail := BitVec.ofNat 512 p.2.2.1 }
        ∃ u st, exec p.1 s = .next (if p.2.2.2 then u else u.deliver s.cur st r) ∧ u.strand s.cur = some st ∧ st.record = some r ∧
          st.recordValid = true ∧ st.stopped = true ∧ st.halted = p.2.2.2 ∧ st.inHandler = c.st.inHandler ∧ st.tvec = c.st.tvec ∧
          st.frag s.curSlot = some c.f.next ∧ st.frag (!s.curSlot) = c.st.frag (!s.curSlot) ∧ st.v = c.st.v) ∧
    (∀ (k : Nat) (st : Strand) (f : Frag) (u : State) (r : Record), r.cause = .softTrap ∨ r.cause = .break → st.frag r.frag = some f →
      let slot := r.frag
      let can := !st.inHandler && st.tmask.getLsbD r.cause.code && (r.cause == .softTrap || !st.debug)
      (can = true → s.checkTarget (st.agent s k) st.tvec = (u, none) → ∃ t st2, s.deliver k st r = t ∧ u.onlyStrand t k ∧ t.strand k = some st2 ∧
        st2.frag slot = some { f.atHeader st.tvec with mode := 0, hold := .none } ∧ st2.frag (!slot) = st.frag (!slot) ∧
        st2.inHandler = true ∧ st2.handlerSlot = slot ∧ st2.stopped = false ∧
        (st2.saveMode, st2.saveJoin, st2.saveQ, st2.saveRecord) = (f.mode, f.join, f.q, st.record)) ∧
      (can = false → s.deliver k st r =
        (s.setStrand k { st with stopped := true }).post 1 r.cause.code st.strandId.toNat st.ctxBase.toNat 0)) ∧
    (∀ (k : Nat) (st : Strand) (o : OpenFault), s.strand k = some st → st.openFault = some o →
      (s.trapReady k st o = false → exec (.trapTaken k) s = .next s) ∧
      (s.trapReady k st o = true → s.flightsOf k = [] → (st.frag o.record.frag).isSome = true → st.halted = true →
        ∃ t st2 r, exec (.trapTaken k) s = .next t ∧ t.strand k = some st2 ∧ st2.record = some r ∧ st2.recordValid = true ∧
          st2.openFault = none ∧ st2.stopped = true ∧ (r.cause, r.mask, r.wordPc, r.addr, r.time, r.detail) =
            (o.record.cause, o.record.mask, o.record.wordPc, o.record.addr, o.record.time, o.record.detail) ∧
          r.halted = true ∧ (st.frag r.frag).map (fun f => (f.pc, f.header, f.index)) = some (r.pc, r.header, r.index)))

/-- 19 R436, 02 R29, R31: `tret` outside a handler fails; else the strand leaves the handler for the record's place, or past its
word, with the saved MODE, join and copies, when the target's checks pass, and the clause of its other fragment is checked anew; a
check of the target that fails is raised, a second-stage fault with the address that was not fetched (08 R225). -/
def Obligations.HandlerReturnRestoresTheFragment : Prop :=
  ∀ (s s1 : State) (c : Ctx) (k : BitVec 1) (r : Record), Issued (.tret k) s c → c.f.hold = .none →
    let p := if k = 1 ∧ c.st.entryOf r = none ∧ r.pc = r.wordPc then s.placeAfter (c.st.agent s s.cur) r.pc r.header r.index else (r.pc, r.header, r.index)
    (c.st.inHandler = false → exec (.tret k) s = .next (c.raiseWide .controlIntegrity 0)) ∧
    (c.st.inHandler = true → c.st.saveRecord = some r → p.1.toNat % 4 ≠ 0 → exec (.tret k) s = .next (c.raiseWide .misaligned 0)) ∧
    (∀ e w, c.st.inHandler = true → c.st.saveRecord = some r → p.1.toNat % 4 = 0 →
      s.checkTarget (c.st.agent s s.cur) p.2.1 = (s1, some (e, w)) →
      exec (.tret k) s = .next (c.raise s1 { Raised.wide e c.act w with addr := if e = .stage2 then p.2.1 else 0 })) ∧
    (c.st.inHandler = true → c.st.saveRecord = some r → p.1.toNat % 4 = 0 → c.st.opLog = [] →
      (∀ g, c.st.frag (!s.curSlot) = some g → g.hold = .none) → s.checkTarget (c.st.agent s s.cur) p.2.1 = (s1, none) → s1.strand s.cur = some c.st →
      ∃ t st f, exec (.tret k) s = .next t ∧ s1.onlyStrand t s.cur ∧ t.strand s.cur = some st ∧ st.frag s.curSlot = some f ∧
        st.inHandler = false ∧ st.recordValid = false ∧ st.record = none ∧ st.stopped = false ∧ st.v = c.st.v ∧
        st.frag (!s.curSlot) = (c.st.frag (!s.curSlot)).map Frag.unchecked ∧ (f.mode, f.join, f.q) = (c.st.saveMode, c.st.saveJoin, c.st.saveQ) ∧
        f.pc = p.1 ∧ f.header = p.2.1 ∧ f.mask = c.f.mask)

/-- 19 R434, 22 R460, R475: a `syscall` without a ring fails, one with a ring holds until its reply, and the hub's own calls
are answered with the block's next TLX number; one that a save interrupted holds again on its own entry, or completes if that was
answered. An entry is appended when the ring has room; a reply writes X and X + 1 and ends the hold; a collective that completes moves
TLX, and one whose peers are there is not among the gone. -/
def Obligations.ServiceRequestsHoldUntilTheReply : Prop :=
  ∀ (s : State) (c : Ctx) (x a : BitVec 8),
    let q := c.st.queue
    let n := c.st.callNumber c.f a
    (Issued (.syscall x a) s c →
      (s.queueField q 639 576 = 0 → exec (.syscall x a) s = .next (c.raiseWide .syscall 0)) ∧
      (s.queueField q 639 576 ≠ 0 → c.resumesCall = false → (n < 0xFC000000 ∨ 0xFC000004 ≤ n) →
        ∃ t, exec (.syscall x a) s = .next t ∧ s.holds t (.service none)) ∧
      (s.queueField q 639 576 ≠ 0 → c.resumesCall = true →
        s.services.find? (fun v => v.strand == s.cur && !v.saved && v.mask == c.f.mask) = none →
        ∃ t, exec (.syscall x a) s = .next t ∧ t.fragOf s.cur s.curSlot = some { c.f with calling := false }.next) ∧
      (∀ v, s.queueField q 639 576 ≠ 0 → c.resumesCall = true →
        s.services.find? (fun v => v.strand == s.cur && !v.saved && v.mask == c.f.mask) = some v →
        ∃ t, exec (.syscall x a) s = .next t ∧ s.holds t (.service (some v.entry))) ∧
      (∀ b, s.queueField q 639 576 ≠ 0 → c.resumesCall = false → 0xFC000000 ≤ n → n < 0xFC000004 → s.block c.st.block = some b →
        x.toNat ≤ 184 → ∃ t, exec (.syscall x a) s = .next t ∧ t.fragOf s.cur s.curSlot = some c.f.next ∧
          (t.block c.st.block).map Block.tlxSubmitted = some (b.tlxSubmitted + 1) ∧ t.collectives.length = s.collectives.length + 1 ∧
          ∀ L, L < 32 → Mask.has c.f.mask L = true → t.laneOf s.cur false x L = some ((b.tlxSubmitted + 1).toNat % 2 ^ 32) ∧
            t.laneOf s.cur false (x + 1) L = some 0)) ∧
    (∀ (k : Nat) (slot : Bool) (st : Strand) (f : Frag), s.strand k = some st → st.frag slot = some f → f.hold = .service none →
      decode f.word = .ok (.syscall x a) →
      (s.serviceRoom st.queue = false → exec (.syscallAppend k slot) s = .next s) ∧
      (s.serviceRoom st.queue = true →
        ∃ t, exec (.syscallAppend k slot) s = .next (s.unlessFull t) ∧ t.strand k = some (st.setFrag slot (some { f with
            hold := .service (some (BitVec.ofNat 64 (s.queueField st.queue 767 704))) })) ∧
          t.services = s.services ++ [⟨st.queue, BitVec.ofNat 64 (s.queueField st.queue 767 704), k, st.ctxBase, x.toNat, f.mask, false,
            ((s.block st.block).map Block.tag).getD 0, st.space⟩])) ∧
    (∀ (v : Service) (st : Strand) (f : Frag) (slot : Bool) (m : Nat),
      s.services.find? (fun w => w.queue == v.queue && w.entry == v.entry) = some v → v.saved = false → s.strand v.strand = some st →
      st.spilled = false → st.serviceSlot v.entry = some slot → st.frag slot = some f → v.run < 185 →
      st.granules.getLsbD (v.run / 8) = true → st.granules.getLsbD ((v.run + 1) / 8) = true →
      s.readVa (s.queueSpace v.queue) (s.serviceAt v.queue v.entry.toNat + 0x80) 256 = some m →
      ∃ t st2, exec (.serviceReply v.queue v.entry.toNat) s = .next t ∧ t.strand v.strand = some st2 ∧ st2.frag slot = some f.next ∧
        ∀ L, L < 32 → Mask.has v.mask L = true → (st2.regs false v.run).at L = m / 2 ^ (32 * L) % 2 ^ 32 ∧
          (st2.regs false (v.run + 1)).at L = m / 2 ^ (1024 + 32 * L) % 2 ^ 32) ∧
    (∀ (r : Collective) (b : Block), s.collectives.find? (fun y => y.block == r.block && y.number.toNat == r.number.toNat) = some r →
      s.block r.block = some b → b.tlxDone = [] → b.tlx + 1 = r.number →
      ∃ t b2, exec (.collectiveComplete r.block r.number.toNat true) s = .next t ∧ r ∉ t.collectives ∧ t.block r.block = some b2 ∧
        b2.tlx = r.number ∧ b2.tlxDone = [] ∧ (b2.tlxGone.map Prod.fst) = b.tlxGone.map Prod.fst ++ [r.number] ∧ t.mem = s.mem) ∧
    (∀ (r : Collective) (b : Block), s.collectives.find? (fun y => y.block == r.block && y.number.toNat == r.number.toNat) = some r →
      s.block r.block = some b → b.tlxDone = [] → b.tlx + 1 = r.number →
      ∃ t b2, exec (.collectiveComplete r.block r.number.toNat false) s = .next t ∧ r ∉ t.collectives ∧ t.block r.block = some b2 ∧
        b2.tlx = r.number ∧ b2.tlxDone = [] ∧ b2.tlxGone = b.tlxGone)

/-- 19 R437, R438, 07 R203, 21 R446, R456: `ctxsv` takes the strand's image with D at 1 and gives D the value 0; `ctxld` needs the
kernel right; both need the only fragment, and an address that is not aligned or not of the global window is a fault of the lowest
active lane, which defers (08 R233); with no active lane both complete at once. `sigchk`, `sigrd` and `sigset` compare,
read and set SIG; `errq` reads a value of the error log. -/
def Obligations.ContextSignatureAndErrorWords : Prop :=
  ∀ (s : State) (c : Ctx) (d a : BitVec 8) (im : BitVec 16) (cn : BitVec 1),
    (c.act = 0 → c.st.lone s.curSlot = true →
      (Issued (.ctxsv d a) s c → c.st.inHandler = false → exec (.ctxsv d a) s = .next (c.over s)) ∧
      (Issued (.ctxld a) s c → c.st.rightKernel = true → exec (.ctxld a) s = .next (c.over s))) ∧
    ∀ L : Nat, c.act.lowest = some L →
    let place := (c.plain true a).at L
    let defers (i : Instr) (e : Cause) : Prop := c.st.openFault = none → ∃ t st o, exec i s = .next t ∧ t.strand s.cur = some st ∧
      st.frag s.curSlot = some c.f.next ∧ st.openFault = some o ∧ (o.record.cause, o.record.wordWide, o.record.mask, o.record.wordPc) =
        (e, false, 1#32 <<< L, c.f.pc) ∧ o.record.addr = BitVec.ofNat 64 place
    let lone := c.st.lone s.curSlot
    (Issued (.ctxsv d a) s c →
      (lone = false ∨ c.st.inHandler = true → exec (.ctxsv d a) s = .next (c.raiseWide .illegalOperand 0)) ∧
      (lone = true → c.st.inHandler = false → place % 4096 ≠ 0 → defers (.ctxsv d a) .misaligned) ∧
      (lone = true → c.st.inHandler = false → place % 4096 = 0 → addrKind place ≠ 0 → defers (.ctxsv d a) .badWindow) ∧
      (lone = true → c.st.inHandler = false → place % 4096 = 0 → addrKind place = 0 →
        ∃ t fl, exec (.ctxsv d a) s = .next t ∧ t.flights = s.flights ++ [fl] ∧ fl.op = .ctxSave ∧ fl.mask = 1#32 <<< L ∧
          t.fragOf s.cur s.curSlot = some c.f.next ∧
          fl.image = (c.advance (c.st.setRegs false d.toNat c.act (Vals.gen (fun _ => 1)))).image ∧
          ∀ H, H < 32 → Mask.has c.act H = true → t.laneOf s.cur false d H = some 0)) ∧
    (Issued (.ctxld a) s c →
      (c.st.rightKernel = false → exec (.ctxld a) s = .next (c.raiseWide .permission 0)) ∧
      (c.st.rightKernel = true → lone = false → exec (.ctxld a) s = .next (c.raiseWide .illegalOperand 0)) ∧
      (c.st.rightKernel = true → lone = true → place % 4096 ≠ 0 → defers (.ctxld a) .misaligned) ∧
      (c.st.rightKernel = true → lone = true → place % 4096 = 0 → addrKind place ≠ 0 → defers (.ctxld a) .badWindow) ∧
      (c.st.rightKernel = true → lone = true → place % 4096 = 0 → addrKind place = 0 →
        ∃ t fl, exec (.ctxld a) s = .next t ∧ s.flew c fl t ∧ fl.op = .ctxLoad ∧ fl.mask = 1#32 <<< L)) ∧
    (Issued (.sigchk im) s c →
      let wrong := c.st.whole && modeSig c.f.mode && (sigFold16 c.st.sig).toNat != im.toNat
      (wrong = true → exec (.sigchk im) s = .next (c.raiseWide .controlIntegrity (BitVec.ofNat 512 (c.st.sig.toNat + im.toNat * 2 ^ 32)))) ∧
      (wrong = false → ∃ t st, exec (.sigchk im) s = .next t ∧ s.onlyStrand t s.cur ∧ t.strand s.cur = some st ∧ st.sig = 0 ∧
        st.frag s.curSlot = some c.f.next ∧ st.v = c.st.v)) ∧
    (Issued (.sigrd d) s c → Mask.has c.act L = true → Results (.sigrd d) s false d L c.st.sig.toNat ∧
      ∃ t st, exec (.sigrd d) s = .next t ∧ t.strand s.cur = some st ∧ st.sig = c.st.sig) ∧
    (Issued (.sigset a) s c → ∃ t st, exec (.sigset a) s = .next t ∧ s.onlyStrand t s.cur ∧ t.strand s.cur = some st ∧
      st.sig = BitVec.ofNat 32 ((c.source 1 false a).at L) ∧ st.v = c.st.v) ∧
    (∀ b, s.block c.st.block = some b → Issued (.errq d a cn) s c →
      let i := (c.plain false a).at L
      (10 < i → exec (.errq d a cn) s = .next (c.raiseWide .illegalOperand 0)) ∧
      (i ≤ 10 → cn = 1 → c.st.rightKernel = false → exec (.errq d a cn) s = .next (c.raiseWide .permission 0)) ∧
      (i ≤ 10 → (cn = 1 → c.st.rightKernel = true) → ∀ H, H < 32 → Mask.has c.act H = true →
        Results (.errq d a cn) s true d H ((s.core c.core).logValue (if cn = 1 then none else some b.domSlot) i % 2 ^ 64)))

/-- 22 R458, R460, R463, R464, R467, R76, 24 R493: a notify write moves the write index when it lies in range, once the harts are
released; the next packet of a queue is accepted with the next sequence number and the descriptor as it stands, the queues of one
processor by turns; an accepted launch starts in its turn; and what a strand starts with. -/
def Obligations.LaunchesAreAcceptedAndStarted : Prop :=
  ∀ (s : State) (q : Nat), q < 1024 →
    let r := s.queueField q 255 192
    (∀ v : DWord, (s.board.stage ≠ 2 → exec (.notifyWrite q v) s = .next s) ∧ (s.board.stage = 2 →
      (v.getLsbD 63 = true → exec (.notifyWrite q v) s = .next (s.unlessFull (s.replyService q (v &&& ~~~(1#64 <<< 63))))) ∧
      (v.getLsbD 63 = false → v < Tbl.get 0 s.notify q → exec (.notifyWrite q v) s = .next s) ∧
      (v.getLsbD 63 = false → Tbl.get 0 s.notify q ≤ v → (v.toNat < r ∨ r + 2 ^ s.queueField q 67 64 < v.toNat) →
        exec (.notifyWrite q v) s = .next (s.unlessFull (s.post 6 0 0 q 0))) ∧
      (v.getLsbD 63 = false → Tbl.get 0 s.notify q ≤ v → r ≤ v.toNat → v.toNat ≤ r + 2 ^ s.queueField q 67 64 →
        ∃ t, exec (.notifyWrite q v) s = .next t ∧ Tbl.get 0 t.notify q = v ∧ (∀ j, j ≠ q → Tbl.get 0 t.notify j = Tbl.get 0 s.notify j) ∧
          { t with notify := s.notify } = s))) ∧
    (let tower := s.queueField q 73 73
     let va := s.queueField q 63 0 + 64 * (r % 2 ^ s.queueField q 67 64)
     (s.mayAccept q = false → exec (.packetAccept q) s = .next s) ∧
     (∀ j, s.packetDue j = true → s.queueField j 73 73 = tower →
      turnsTo (Tbl.get 0 s.lastQueue tower) j < turnsTo (Tbl.get 0 s.lastQueue tower) q → exec (.packetAccept q) s = .next s) ∧
     (∀ p, s.mayAccept q = true → (s.vaFault (s.queueSpace q) va 64 .read).isSome = false → s.readVa (s.queueSpace q) va 64 = some p →
      s.packetDetail q p = 0 → ∃ t l, exec (.packetAccept q) s = .next t ∧ t.launches = s.launches ++ [l] ∧ l.queue = q ∧
        l.seq = s.nextSeq.getD tower 0 ∧ l.packet = BitVec.ofNat 512 p ∧
        l.desc = BitVec.ofNat 1024 (s.readN (s.queueAt q) 128) ∧ Tbl.get 0 t.lastQueue tower = (q + 1) % 1024 ∧ l.started = false ∧ l.outcome = none ∧
        t.nextSeq = s.nextSeq.set tower ((l.seq + 1) &&& 0x00FF_FFFF_FFFF_FFFF#64) ∧ t.readN (s.queueAt q + 24) 8 = (r + 1) % 2 ^ 64)) ∧
    (∀ l : Launch, s.launch l.id = some l →
      (s.mayStart l = false → exec (.launchStart l.id) s = .next s) ∧
      (s.mayStart l = true → l.pk 383 320 = 0 → ∃ t l2, exec (.launchStart l.id) s = .next t ∧ t.launch l.id = some l2 ∧ l2.started = true ∧
        l2.groups = [] ∧ l2.packet = l.packet ∧
        l2.outcome = (if l.isLaunch && !s.placeable l true then some (3, 0, 0, 0) else none))) ∧
    (∀ (l : Launch) (gang tag bk num key : Nat) (b : Block), ∃ st f, (s.startStrand l gang tag bk b num key).strand key = some st ∧
      st.fragA = some f ∧ st.fragB = none ∧ f.pc = BitVec.ofNat 64 (l.pk 255 192) ∧ f.mask = Mask.all ∧ f.age = 0 ∧ f.join = none ∧ f.mode = 0 ∧
      f.q = List.replicate 4 0x00010739#32 ∧ st.flags = 0 ∧ st.stack = [] ∧ st.launchArg = BitVec.ofNat 64 (l.pk 319 256) ∧
      st.granules = firstGranules l.granules ∧ (st.queue, st.space, st.tract, st.vmid.toNat) = (l.queue, l.space, l.df 99 96, l.df 127 120))

/-- 04 R72 to R75, 21 R450, R451: a placement unit reserves, waits after a failure, and commits a gang whole under a tag that none
holds; one whose gang is not to be placed then, or whose tract is being torn down, gives its reservations up; a killed gang that may be
relaunched goes back to its launch, once its stores are performed. -/
def Obligations.PlacementCommitsWholeGangs : Prop :=
  ∀ (s : State) (l : Launch) (unit n : Nat) (u : PlaceUnit), s.launch l.id = some l →
    (∀ (cores : List Nat) (seats : List Seat),
      let tract := l.df 99 96
      tract ∉ s.teardowns → l.toPlace = some n → Tbl.find s.units unit = none → unit / 4 = l.tower → s.units.all (fun p => p.1 == unit || p.2.launch != l.id) = true →
      Tbl.find s.tokens l.tower = none ∨ Tbl.find s.tokens l.tower = some unit → s.board.stage = 2 → s.placeable l true = true →
      cores.length = l.blocksPer → cores.Nodup → connected cores = true →
      (∀ c ∈ cores, c ∈ towerCores l.tower ∧ s.tractCore tract c = true) →
      (s.seats l n cores = some seats → ∃ t x, exec (.placementReserve unit l.id cores) s = .next t ∧ Tbl.find t.units unit = some x ∧
        x.reserved = some seats ∧ x.gang = n ∧ { t with units := s.units } = s) ∧
      (s.seats l n cores = none → ∃ t x, exec (.placementReserve unit l.id cores) s = .next t ∧ Tbl.find t.units unit = some x ∧
        x.reserved = none ∧ x.attempts = 1 ∧ ∃ w, w < 128 ∧ x.retryAt = s.dclk + 1 + BitVec.ofNat 64 w)) ∧
    (Tbl.find s.units unit = some u → u.launch = l.id → u.reserved = none → u.retryAt ≠ 0 →
      (s.dclk < u.retryAt → exec (.placementRetry unit) s = .next s) ∧
      (u.retryAt ≤ s.dclk → ∃ t, exec (.placementRetry unit) s = .next t ∧ Tbl.find t.units unit = some { u with retryAt := 0 } ∧
        t.tokens = if 16 ≤ u.attempts ∧ Tbl.find s.tokens l.tower = none then Tbl.put s.tokens l.tower unit else s.tokens)) ∧
    (∀ (seats : List Seat) (tag : Nat), Tbl.find s.units unit = some u → u.launch = l.id → u.reserved = some seats → tag < 8192 →
      ((s.gang (BitVec.ofNat 13 tag)).isSome = true → exec (.placementCommit unit tag) s = .next s) ∧
      (s.storesOf (BitVec.ofNat 13 tag) = true → exec (.placementCommit unit tag) s = .next s) ∧
      (s.gang (BitVec.ofNat 13 tag) = none → BitVec.ofNat 13 tag ∉ s.pinRelease → s.storesOf (BitVec.ofNat 13 tag) = false →
        (l.toPlace ≠ some u.gang ∨ l.df 99 96 ∈ s.teardowns) → exec (.placementCommit unit tag) s = .next (s.dropUnit unit)) ∧
      (s.gang (BitVec.ofNat 13 tag) = none → BitVec.ofNat 13 tag ∉ s.pinRelease → s.storesOf (BitVec.ofNat 13 tag) = false →
        l.toPlace = some u.gang → l.df 99 96 ∉ s.teardowns → s.deposits = [] →
        ∃ t g, exec (.placementCommit unit tag) s = .next t ∧ t.gangs = s.gangs ++ [g] ∧ g.tag = BitVec.ofNat 13 tag ∧ g.launch = l.id ∧
          g.number = u.gang ∧ g.blocks = seats.map Seat.key ∧ g.killed = none ∧ Tbl.find t.units unit = none)) ∧
    (∀ (g : Gang) (cause detail : Nat), s.gang g.tag = some g → g.launch = l.id → g.killed = some (cause, detail) →
      (g.tract ∈ s.teardowns ∨ s.storesOf g.tag = true → exec (.gangRelaunch g.tag.toNat) s = .next s) ∧
      (g.tract ∉ s.teardowns → s.storesOf g.tag = false → ∃ t l2, exec (.gangRelaunch g.tag.toNat) s = .next t ∧ t.gang g.tag = none ∧
        t.launch l.id = some l2 ∧ l2.relaunch = l.relaunch ++ [(g.number, cause, detail)] ∧ ∀ p ∈ t.units, p.2.launch ≠ l.id))

/-- 22 R465, R472, 19 R424 to R426: a launch completes once; the oldest held event is written when the ring has room; a slice
that has ended starts the slot's pre-emption, by save where only that is allowed; and a pre-emption ends when its blocks have
stopped. -/
def Obligations.CompletionsEventsAndSlices : Prop :=
  ∀ s : State,
    (∀ l : Launch, s.launch l.id = some l →
      (s.mayComplete l = false → exec (.launchComplete l.id) s = .next s) ∧
      (s.mayComplete l = true → ∃ t, exec (.launchComplete l.id) s = .next (s.unlessFull t) ∧ t.launches = s.launches.filter (fun x => x.id != l.id) ∧
        (s.control.aborting = some l.queue → (∀ x ∈ s.launches, x.id ≠ l.id → x.queue ≠ l.queue) →
          t.control.busy = false ∧ t.control.refused = false ∧ t.control.aborting = none))) ∧
    (∀ (e : BitVec 512) (r : List (BitVec 512)), s.eventHeld = e :: r →
      (s.control.eventAck.toNat + 65536 ≤ s.eventProd.toNat → exec .heldEventWrite s = .next s) ∧
      (s.eventProd.toNat < s.control.eventAck.toNat + 65536 → ∃ t, exec .heldEventWrite s = .next t ∧ t.eventHeld = r ∧
        t.eventProd = s.eventProd + 1 ∧
        t.readN (s.control.eventBase.toNat + 64 * (s.eventProd.toNat % 65536)) 64 = e.toNat)) ∧
    (∀ cl slot : Nat,
      let due (k : Nat) : Bool := ((s.core k).time slot).due s.dclk
      (4 ≤ slot ∨ (∀ k ∈ coresOf cl, due k = false) → exec (.sliceExpiry cl slot) s = .next s) ∧
      (∀ c, slot < 4 → (coresOf cl).find? due = some c →
        (((s.core c).time slot).courses = 0 ∨ ((s.core c).time slot).courses = 0b010#3) →
        s.preempts.any (fun p => p.cluster == cl && p.slot == slot && p.only.isNone) = false →
        ∃ t, exec (.sliceExpiry cl slot) s = .next (s.unlessFull t) ∧ t.preempts = s.preempts ++ [⟨cl, slot, 1, s.dclk, false, none, []⟩])) ∧
    (∀ p : Preempt,
      (s.preempts.find? (fun p' => p'.cluster == p.cluster && p'.slot == p.slot && s.preemptReady p') = none →
        exec (.preemptionDone p.cluster p.slot) s = .next s) ∧
      (s.preempts.find? (fun p' => p'.cluster == p.cluster && p'.slot == p.slot && s.preemptReady p') = some p →
        s.blocks.filter (fun x => p.covers x.1 x.2) = [] → ∃ t, exec (.preemptionDone p.cluster p.slot) s = .next t ∧
          t.preempts = s.preempts.erase p ∧ t.control.busy = (s.control.busy && !p.command)) ∧
      (∀ (bk : Nat) (b : Block) (g : Gang), s.preempts.find? (fun p' => p'.cluster == p.cluster && p'.slot == p.slot && s.preemptReady p') = some p →
        s.blocks.filter (fun x => p.covers x.1 x.2) = [(bk, b)] → s.block bk = some b → s.gang b.tag = some g → b.idle = false →
        (∀ x ∈ s.flips, x.1 ≠ bk) →
        ∃ t g2 b2, exec (.preemptionDone p.cluster p.slot) s = .next t ∧ t.block bk = none ∧ t.gang b.tag = some g2 ∧
          g2.saved = g.saved ++ [b2] ∧ g2.blocks = g.blocks.filter (· ≠ bk) ∧ b2.index = b.index ∧ b2.store = b.store ∧ b2.savedKey = bk ∧
          t.preempts = s.preempts.erase p))

/-- 19 R422, 21 R449, 22 R470, 02 R31, 08 R225: the commands on strands, gangs and slots. A command that comes while another is busy is
ignored; one that names nothing is refused; the others act. A kill is over when the gang's stores are; a gang that does not fit waits to
be placed. A released strand, and one that goes on, has its clauses checked anew. A strand that a second-stage fault stopped goes on, or
has a first-stage cause reflected to its kernel, as the hypervisor chooses (log entry 59). -/
def Obligations.CommandsActOnStrandsGangsAndSlots : Prop :=
  ∀ (s : State) (x : BitVec 56) (cores : List Nat),
    let n := x.toNat
    let commands := [Instr.haltStrand x, .releaseStrand x, .resumeStrand x, .killGang x, .preemptSlot x, .resumeSavedGang x cores,
      .takeCoreOutOfService x, .abortQueue x, .checkpoint x, .attest x]
    (s.control.busy = true ∨ s.board.stage ≠ 2 → ∀ i ∈ commands, exec i s = .next s) ∧
    (s.control.busy = false → s.board.stage = 2 →
      (2 ^ 32 ≤ n → ∀ i ∈ [Instr.haltStrand x, .releaseStrand x, .resumeStrand x], exec i s = .next (s.endCommand true)) ∧
      (∀ op : BitVec 8, op = 0 ∨ 11 ≤ op.toNat → exec (.refusedCommand op x) s = .next (s.endCommand true)) ∧
      (n < 2 ^ 32 → s.strandNamed n = none → ∀ i ∈ [Instr.haltStrand x, .releaseStrand x, .resumeStrand x],
        exec i s = .next (s.endCommand true)) ∧
      (∀ k st, n < 2 ^ 32 → s.strandNamed n = some (k, st) →
        (∃ t, exec (.haltStrand x) s = .next t ∧ t.strand k = some { st with halted := true } ∧ t.control.busy = false ∧
          t.control.refused = false ∧ t.mem = s.mem) ∧
        ((∀ slot f, st.frag slot = some f → f.hold = .none) →
          let free : Strand := { st with halted := false, fragA := st.fragA.map Frag.unchecked, fragB := st.fragB.map Frag.unchecked }
          (st.recordValid = false → ∃ t, exec (.releaseStrand x) s = .next t ∧ t.strand k = some free ∧
            t.control.refused = false ∧ t.mem = s.mem) ∧
          (∀ r, st.recordValid = true → st.stopped = true → st.record = some r → r.halted = true → (r.cause = .break → st.debug = false) →
            ∃ u, s.onlyStrand u k ∧ u.strand k = some free ∧ exec (.releaseStrand x) s = .next ((u.deliver k free r).endCommand false))) ∧
        (st.recordValid = false ∨ st.stopped = false ∨ st.record = none ∨ s.eventWaits st = true →
          exec (.resumeStrand x) s = .next (s.endCommand true)) ∧
        (∀ r f, s.eventWaits st = false → (∀ g, st.frag (!r.frag) = some g → g.hold = .none) → st.recordValid = true → st.stopped = true → st.record = some r → st.frag r.frag = some f → st.opLog = [] →
          r.cause ≠ .barrierTimeout → r.seq = false → st.inHandler = false → f.hold ≠ .grow →
          let goesOn : Prop := ∃ t st2 g, exec (.resumeStrand x) s = .next t ∧ t.strand k = some st2 ∧ st2.frag r.frag = some g ∧
            st2.stopped = false ∧ st2.recordValid = false ∧ g.pc = r.pc ∧ g.header = r.header ∧ g.mask = f.mask ∧ g.hold = .none ∧
            st2.frag (!r.frag) = (st.frag (!r.frag)).map Frag.unchecked ∧ t.mem = s.mem
          (r.cause ≠ .stage2 → goesOn) ∧
          (r.cause = .stage2 → goesOn ∨ ∃ e, (e = .notPresent ∨ e = .permission) ∧
            let told := { r with cause := e, detail := 0 }
            let u := ({ s with fresh := s.fresh + 1 }).setStrand k { st with record := some told }
            exec (.resumeStrand x) s =
              .next (((u.writeCtx { st with record := some told } 0x7000 128 told.bits).deliver k { st with record := some told } told).endCommand false)))) ∧
      (bits n 15 13 = 0 → n < 2 ^ 24 →
        (s.gang (BitVec.ofNat 13 (bits n 12 0)) = none → exec (.killGang x) s = .next (s.endCommand true)) ∧
        (∀ g, s.gang (BitVec.ofNat 13 (bits n 12 0)) = some g →
          let u := s.killGang g.tag (bits n 23 16) 2
          (u.storesOf g.tag = false → exec (.killGang x) s = .next (u.endCommand false)) ∧
          (u.storesOf g.tag = true → exec (.killGang x) s = .next { u with control := { u.control with busy := true, killing := [g.tag] } }))) ∧
      (n < 2 ^ 12 → 192 ≤ bits n 7 0 ∨ bits n 11 10 = 3 → exec (.preemptSlot x) s = .next (s.endCommand true)) ∧
      (n < 2 ^ 12 → bits n 7 0 < 192 → bits n 11 10 < 2 →
        s.preempts.any (fun p => p.cluster == clusterOf (bits n 7 0) && p.slot == bits n 9 8 && p.only.isNone) = false →
        ∃ t, exec (.preemptSlot x) s = .next t ∧ t.control.busy = true ∧
          t.preempts = s.preempts ++ [⟨clusterOf (bits n 7 0), bits n 9 8, bits n 11 10, s.dclk, true, none, []⟩]) ∧
      (n < 2 ^ 13 → s.gang (BitVec.ofNat 13 n) = none → exec (.resumeSavedGang x cores) s = .next (s.endCommand true)) ∧
      (∀ g l u, n < 2 ^ 13 → s.gang (BitVec.ofNat 13 n) = some g → g.killed = none → g.saved ≠ [] → g.blocks = [] → connected cores = true →
        (∀ c ∈ cores, c ∈ towerCores (cores.getD 0 0 / 96) ∧ s.tractCore g.tract c = true) → Tbl.find s.tokens (cores.getD 0 0 / 96) = none →
        s.savedFits g cores = some l → s.gangBack g l = some u → exec (.resumeSavedGang x cores) s = .next (u.endCommand false)) ∧
      (∀ g, n < 2 ^ 13 → s.gang (BitVec.ofNat 13 n) = some g → g.killed = none → g.saved ≠ [] → g.blocks = [] → s.savedFits g cores = none →
        ∃ t, exec (.resumeSavedGang x cores) s = .next t ∧ t.control.busy = true ∧ t.control.placing = some g.tag ∧ t.blocks = s.blocks ∧
          t.strands = s.strands ∧ ∀ y, t.gang g.tag = some y → y.moving = true))

/-- 22 R469, R470, R471, R476, 21 R455, 07 R213, 19 R424, 24 R495, R496: the commands on cores, queues, tracts and the report, of which
the bytes are the verifier's own, the time and zeros where the spec says so; and the accesses of harts and host to the registers of the
control window. -/
def Obligations.CommandsActOnQueuesCoresAndRegisters : Prop :=
  ∀ (s : State) (x : BitVec 56),
    let n := x.toNat
    (s.control.busy = false → s.board.stage = 2 →
      (n < 256 → 192 ≤ n → exec (.takeCoreOutOfService x) s = .next (s.endCommand true)) ∧
      (n < 192 → (∀ p ∈ s.blocks, p.1 / 8 ≠ n) → (s.core n).outOfService = false →
        ∃ t, exec (.takeCoreOutOfService x) s = .next t ∧ (t.core n).outOfService = true ∧ t.board.outList = s.board.outList ++ [n] ∧
          t.control.busy = false ∧ t.control.refused = false) ∧
      (n < 192 → s.gangsOn n true = [] → (∃ p ∈ s.blocks, p.1 / 8 = n) → (s.core n).outOfService = false →
        ∃ t, exec (.takeCoreOutOfService x) s = .next t ∧ (t.core n).outOfService = true ∧ t.control.busy = true ∧ t.control.outing = some n ∧
          t.blocks = s.blocks ∧ ∀ g ∈ t.gangs, g.tag ∈ s.gangsOn n false → g.moving = true) ∧
      (n < 1024 → s.launches.any (fun l => l.queue == n) = false → ∃ t, exec (.abortQueue x) s = .next t ∧
        t.readN (s.queueAt n + 9) 1 = s.readN (s.queueAt n + 9) 1 / 2 * 2 ∧ t.launches = s.launches ∧ t.control.busy = false) ∧
      (n < 1024 → s.launches.any (fun l => l.queue == n) = true → ∃ t, exec (.abortQueue x) s = .next t ∧ t.control.busy = true ∧
        t.control.aborting = some n ∧ ∀ l ∈ t.launches, l.queue = n → l.started = true ∧ l.outcome = some (5, 0, 0, 0)) ∧
      (16 ≤ bits n 7 0 ∨ s.tractField (bits n 7 0) 31 31 = 0 ∨ (∃ p ∈ s.strands, p.2.tract = bits n 7 0) →
        exec (.checkpoint x) s = .next (s.endCommand true)) ∧
      (bits n 7 0 < 16 → s.tractField (bits n 7 0) 31 31 = 1 → (∀ p ∈ s.strands, p.2.tract ≠ bits n 7 0) →
        ∃ t, exec (.checkpoint x) s = .next t ∧ t.checkpoint = some (bits n 7 0) ∧ t.control.busy = true ∧ t.mem = s.mem) ∧
      (n % 16 ≠ 0 ∨ s.inMap (256 * n) = false → exec (.attest x) s = .next (s.endCommand true)) ∧
      (n % 16 = 0 → s.inMap (256 * n) = true → ∃ t, exec (.attest x) s = .next t ∧ t.control.busy = false ∧ t.control.refused = false ∧
        t.readN (256 * n) 32 = s.readN (256 * n) 32 ∧ t.readN (256 * n + 0xC0) 8 = s.dclk.toNat ∧ t.readN (256 * n + 0xD0) 48 = 0)) ∧
    (∀ tract, s.checkpoint = some tract →
      ((∃ k, k < 24 ∧ s.tractCluster tract k = true ∧ (s.cluster k).toClean = true) → exec .checkpointWritesComplete s = .next s) ∧
      ((∀ k, k < 24 → s.tractCluster tract k = true → (s.cluster k).toClean = false) → ∃ t, exec .checkpointWritesComplete s = .next t ∧
        t.checkpoint = none ∧ t.control.busy = false ∧ t.control.refused = false)) ∧
    (∀ (o : Nat) (w : Option DWord), o < 0x10000 →
      (∀ h, 4 ≤ h → h < 32 → s.board.stage = 2 → exec (.controlRegisterWrite ⟨h, o⟩ w) s = .next (s.refuseOutside h)) ∧
      (∀ h, h < 4 → s.board.stage = 2 →
        exec (.controlRegisterWrite ⟨h, o⟩ none) s = .next ({ s with fresh := s.fresh + 1 }.answer h (.done (s.windowWord o)))) ∧
      (∀ h, h < 32 → s.board.stage ≠ 2 → exec (.controlRegisterWrite ⟨h, o⟩ w) s = .next s) ∧
      (∀ v, exec (.controlRegisterWrite ⟨hostAgent, o⟩ (some v)) s = .next s) ∧
      (o < 0x1000 →
        exec (.controlRegisterWrite ⟨hostAgent, o⟩ none) s = .next ({ s with fresh := s.fresh + 1 }.answer hostAgent (.done (s.windowWord o))))) ∧
    (bits (s.windowWord 8).toNat 0 0 = flagBit s.control.busy ∧ bits (s.windowWord 8).toNat 15 8 = flagBit s.control.refused ∧
      s.windowWord 0x10 = s.control.qdBase ∧ s.windowWord 0x40 = s.control.eventAck ∧ s.windowWord 0x4000 = s.control.telemetry) ∧
    (∀ (h : Nat) (v : DWord), h < 4 → s.board.stage = 2 →
      let page := v &&& ~~~0xFFF#64
      let c := s.control
      let write (o : Nat) : Host.Outcome State Fault Refusal := exec (.controlRegisterWrite ⟨h, o⟩ (some v)) s
      let over_ (t : State) : Host.Outcome State Fault Refusal := .next (t.answer h (.done 0))
      (s.queuesOff = true → write 0x10 = over_ { s with control := { c with qdBase := page } } ∧
        write 0x18 = over_ { s with control := { c with fbBase := c.fbBase.set 0 page } } ∧
        write 0x20 = over_ { s with control := { c with fbBase := c.fbBase.set 1 page } } ∧
        write 0x38 = over_ { s with control := { c with eventBase := page } } ∧
        write 0x50 = over_ { s with control := { c with tractBase := page } }) ∧
      (s.queuesOff = false → ∀ o ∈ [0x10, 0x18, 0x20, 0x38, 0x50], write o = over_ s) ∧
      write 0x28 = over_ { s with control := { c with fbAck := c.fbAck.set 0 v } } ∧
      write 0x30 = over_ { s with control := { c with fbAck := c.fbAck.set 1 v } } ∧
      write 0x40 = over_ { s with control := { c with eventAck := v } } ∧
      write 0x48 = over_ { s with control := { c with hartClass := v } } ∧
      (∀ k slot, k < 192 → slot < 4 → (s.core k).times.length = 4 →
        (∃ t, write (0x1000 + 64 * k + 16 * slot) = .next t ∧ ((t.core k).time slot).sliceEnd = v) ∧
        ∃ t, write (0x1000 + 64 * k + 16 * slot + 8) = .next t ∧ ((t.core k).time slot).deadline.toNat = bits v.toNat 63 32 ∧
          ((t.core k).time slot).courses.toNat = bits v.toNat 31 29 ∧ ((t.core k).time slot).sliceEnd = ((s.core k).time slot).sliceEnd) ∧
      ∃ t, write 0x4000 = .next t ∧ bits t.control.telemetry.toNat 47 32 = bits v.toNat 47 32 ∧
        bits t.control.telemetry.toNat 63 48 = bits c.telemetry.toNat 63 48 ∧ bits t.control.telemetry.toNat 31 0 = bits c.telemetry.toNat 31 0)

/-- 10 R274, R275, 08 R228, R240, 21 R448, R451, 22 R474, R476: accesses of 8 bytes by the host, an application core and a peer. A write
puts the value at its bytes and nowhere else; a read changes no byte, and answers the bytes or that they are poisoned; one outside the
map of R214 changes nothing, one that the class map or the frame table of the peer's tract refuses is answered so and changes nothing,
and none comes through the port of a tract in teardown. A hart's access to a tract peer is performed there. The domain under which a
peer is checked is free, and that of a hart above 3 is free and assigned to its VMID once (log entries 9 and 73). -/
def Obligations.OutsideAccessesReadAndWriteMemory : Prop :=
  ∀ (s : State) (addr peer : Nat) (vmid : BitVec 8) (v : BitVec 64) (w : Option (BitVec 64)) (acq rel : Bool), s.board.stage = 2 →
    let writes (i : Instr) (agent : Nat) : Prop := ∃ t, exec i s = .next t ∧ t.readN addr 8 = v.toNat ∧
      (∀ a, a < addr ∨ addr + 8 ≤ a → t.byte a = s.byte a) ∧ Tbl.find t.answers agent = some (.done 0)
    let reads (i : Instr) (agent : Nat) : Prop := ∃ t x, exec i s = .next t ∧ t.mem = s.mem ∧ Tbl.find t.answers agent = some x ∧
      (x = .poisoned ∨ x = .done (BitVec.ofNat 64 (s.readN addr 8))) ∧
      ((∀ j, j < 8 → s.poisoned (addr + j) = false) → s.scrubbed = [] → s.ecc = [] → (∀ p ∈ s.clusters, p.2.lent = []) →
        x = .done (BitVec.ofNat 64 (s.readN addr 8)))
    let drawn : State := { s with fresh := s.fresh + 1 }
    let tract := peer / 256
    (s.inMap addr = false ∨ s.inMap (addr + 7) = false → exec (.hostAccess addr w) s = .next s ∧
      exec (.peerAccess peer addr w rel) s = .next s ∧
      ((inPeer addr && inPeer (addr + 7)) = false → ∀ h, exec (.hartAccess ⟨h, vmid⟩ addr w acq rel) s = .next s)) ∧
    (16 ≤ tract ∨ tract ∈ s.teardowns → exec (.peerAccess peer addr w rel) s = .next s) ∧
    (s.inMap addr = true → s.inMap (addr + 7) = true →
      writes (.hostAccess addr (some v)) hostAgent ∧ reads (.hostAccess addr none) hostAgent ∧
      (tract < 16 → tract ∉ s.teardowns →
        let ok (write : Bool) := s.foreignFrameOk tract ((Config.freeWord s.fresh).setWidth 12) addr write
        (ok true = true → writes (.peerAccess peer addr (some v) rel) (peerAgent + peer)) ∧
        (ok false = true → reads (.peerAccess peer addr none rel) (peerAgent + peer)) ∧
        (ok w.isSome = false → exec (.peerAccess peer addr w rel) s = .next (drawn.refuseOutside (peerAgent + peer)))) ∧
      (∀ h, h < 32 →
        let who := if h < 4 then ((0 : BitVec 12), s) else s.assignDomain vmid
        let ok (write : Bool) := s.foreignFrameOk s.frameTract who.1 addr write
        (s.classOf addr ≤ 2 → ok true = true → writes (.hartAccess ⟨h, vmid⟩ addr (some v) acq rel) h) ∧
        (s.classOf addr ≤ 2 → ok false = true → reads (.hartAccess ⟨h, vmid⟩ addr none acq rel) h) ∧
        (2 < s.classOf addr ∨ ok w.isSome = false →
          exec (.hartAccess ⟨h, vmid⟩ addr w acq rel) s = .next (who.2.refuseOutside h)))) ∧
    (∀ d u, s.assignDomain vmid = (d, u) → u.assignDomain vmid = (d, u)) ∧
    (∀ h, h < 32 → inPeer addr = true → inPeer (addr + 7) = true →
      let up := s.peerUp s.frameTract addr = true ∧ s.frameTract ∉ s.teardowns
      (up → exec (.hartAccess ⟨h, vmid⟩ addr (some v) acq rel) s = .next (s.answer h (.done 0)) ∧
        exec (.hartAccess ⟨h, vmid⟩ addr none acq rel) s = .next (drawn.answer h (.done (Config.freeDWord s.fresh)))) ∧
      (¬up → exec (.hartAccess ⟨h, vmid⟩ addr w acq rel) s = .next (s.refuseOutside h)))

/-- 21 R447, R449, R451 to R455, 24 R497: patrol scrub writes anew what the code corrects and marks what it does not, once no chain holds
the lot (log entry 33); a tract's teardown stops its ports and empties its chains of what no other tract holds; a wire that was wrong in
16 beats in a row fails, and a second one takes the core out of service; a beat with two wrong wires marks its words, or kills the gang
of the block that reads them (what a mark covers in memory is its granule, log entry 70); a sensor that reads outside its range, or too
far from its neighbours, fails, and what stands for it is the highest of them with an estimate (log entry 68). -/
def Obligations.DeviceErrorsAreContained : Prop :=
  ∀ (s : State) (core n : Nat),
    (∀ bad : Bool, let held := s.clusters.any (fun p => p.2.stands (n / 8))
     let found := bad || Tbl.find s.ecc n == some true
     let read : State := { s with ecc := Tbl.del s.ecc n }
     (s.board.stage = 0 → exec (.patrolScrub n bad) s = .next s) ∧
     (s.board.stage ≠ 0 → (found = false ∨ inHbm (32 * n) = false → exec (.patrolScrub n bad) s = .next read) ∧
      (found = true → held = true → inHbm (32 * n) = true →
        exec (.patrolScrub n bad) s = .next { read with scrubbed := Tbl.put s.scrubbed n () }) ∧
      (found = true → held = false → inHbm (32 * n) = true → ∃ t, exec (.patrolScrub n bad) s = .next t ∧ t.poisoned (32 * n) = true ∧
        t.mem = s.mem ∧ ∀ m, m ≠ n → t.poisoned (32 * m) = s.poisoned (32 * m)))) ∧
    (n ∈ s.teardowns ∨ s.tractField n 31 31 = 0 → exec (.tractTeardown n) s = .next s) ∧
    (n ∉ s.teardowns → s.tractField n 31 31 = 1 → ∃ t, exec (.tractTeardown n) s = .next t ∧ t.teardowns = s.teardowns ++ [n] ∧
      (∀ p ∈ t.peerStores, p.tract ≠ n) ∧ t.checkpoint = (if s.checkpoint = some n then none else s.checkpoint)) ∧
    (n ∉ s.teardowns ∨ (∃ f ∈ s.flights, f.agent.tract = n) → exec (.teardownReport n) s = .next s) ∧
    (n ∈ s.teardowns → (∀ f ∈ s.flights, f.agent.tract ≠ n) → ∃ t, exec (.teardownReport n) s = .next (s.unlessFull t) ∧ n ∉ t.teardowns ∧
      ∀ cl, cl < 24 → s.tractCluster n cl = true → (t.cluster cl).tlb = [] ∧
        (∀ p ∈ (t.cluster cl).lots, s.heldElsewhere n p.1 = true ∧ p ∈ (s.cluster cl).lots) ∧
        (∀ w ∈ (t.cluster cl).wbs, s.heldElsewhere n w.lot = true) ∧ ∀ p ∈ (t.cluster cl).pins, s.heldElsewhere n p.lot = true) ∧
    (∀ (group addr : Nat) (wrong : List Nat) (reader : Option Nat), core < 192 → group < 32 →
      let event := Instr.busBeatError core group wrong ⟨addr, reader⟩
      let c := s.core core
      let after := c.countBeat group ((List.range 72).filter wrong.contains)
      let some_ := (List.range 72).filter wrong.contains
      (∀ w, w < 72 → Tbl.get 0 after.wires (72 * group + w) = (if w ∈ wrong then Tbl.get 0 c.wires (72 * group + w) + 1 else 0) ∧
        (Tbl.find after.failed (72 * group + w)).isSome =
          ((Tbl.find c.failed (72 * group + w)).isSome || decide (w ∈ wrong ∧ 16 ≤ Tbl.get 0 c.wires (72 * group + w) + 1))) ∧
      (∃ t, exec event s = .next t ∧ (t.core core).wires = after.wires ∧ (t.core core).failed = after.failed ∧
        (after.badWires group < 2 → some_.length < 2 → (t.core core).outOfService = c.outOfService ∧
          Tbl.get 0 (t.core core).errCore 4 = if some_ = [] then Tbl.get 0 c.errCore 4 else satUp (Tbl.get 0 c.errCore 4)) ∧
        (2 ≤ after.badWires group → (t.core core).outOfService = true)) ∧
      (2 ≤ some_.length → reader = none → 16 ≤ group → inHbm addr = true → ∃ t, exec event s = .next t ∧ t.poisoned addr = true) ∧
      (∀ bk b, 2 ≤ some_.length → reader = none → group < 16 → s.columnOwner core addr = some (bk, b) → after.badWires group < 2 →
        ∃ t b2, exec event s = .next t ∧ t.block bk = some b2 ∧
          (Tbl.find b2.poison ((0x1000000 + (addr - b.colBase) / 8 * 8) / 4)).isSome = true) ∧
      (∀ bk b g, 2 ≤ some_.length → reader = some bk → s.block bk = some b → s.gang b.tag = some g → g.killed = none →
        ∃ t, exec event s = .next t ∧ ∀ y, t.gang b.tag = some y → y.killed = some (12, 0))) ∧
    (∀ (sensor : Nat) (reading estimate : Int) (busier : Bool), core < 192 → sensor < 8 →
      let event := Instr.sensorSample core sensor reading estimate busier
      let c := s.core core
      let near := s.sensorNear core sensor
      let stuck := busier = true ∧ ∃ m, 15 ≤ m ∧ Tbl.find c.sensors sensor = some (reading, m)
      ((Tbl.find c.sensorBad sensor).isSome = true → ∃ t, exec event s = .next (s.unlessFull t) ∧ (t.core core).sensorBad = c.sensorBad ∧
        (near = [] → Tbl.find (t.core core).sensors sensor = none) ∧
        ∀ x r, near = x :: r → Tbl.find (t.core core).sensors sensor = some (r.foldl max x + estimate, 1)) ∧
      (Tbl.find c.sensorBad sensor = none → c.sensorBad.length < 3 →
        (reading < -20 ∨ 125 < reading ∨ stuck ∨ (near ≠ [] ∧ 15 * near.length < (reading * near.length - near.foldl (· + ·) 0).natAbs)) →
        ∃ t, exec event s = .next (s.unlessFull t) ∧ (Tbl.find (t.core core).sensorBad sensor).isSome = true ∧
          (t.core core).outOfService = c.outOfService) ∧
      (Tbl.find c.sensorBad sensor = none → -20 ≤ reading → reading ≤ 125 → ¬stuck →
        (near = [] ∨ (reading * near.length - near.foldl (· + ·) 0).natAbs ≤ 15 * near.length) →
        ∃ t m, exec event s = .next (s.unlessFull t) ∧ (t.core core).sensorBad = c.sensorBad ∧
          Tbl.find (t.core core).sensors sensor = some (reading, m) ∧ (reading < 115 → t.board = s.board ∧ t.eventProd = s.eventProd) ∧
          (115 ≤ reading → (∀ x k, Tbl.find c.sensors sensor = some (x, k) → x < 115) → c.outOfService = false → t.board.stopped = true)))

/-- 24 R492 to R494, R496, R497: the hold of issue by power and temperature with what the telemetry register shows of it, the stop at
115 °C and its end (when the strands have gone, log entry 38), with an argument that says whether a hold in force is enough (log entry
38), the package's reset, and its boot from the first image that is
accepted. -/
def Obligations.PowerResetAndBoot : Prop :=
  ∀ (s : State),
    (∀ (power : Nat) (enough : Bool), power < 65536 →
      let hot := s.hottest
      let cap := bits s.control.telemetry.toNat 47 32
      let over_ := (if cap = 0 then 2800 else cap) < power ∨ 105 ≤ hot
      let free := s.board.holdSince = 0 ∨ s.board.holdSince.toNat + 65536 ≤ s.dclk.toNat
      ∃ t, exec (.powerHoldStep power enough) s = .next t ∧ bits t.control.telemetry.toNat 63 48 = power ∧
        bits t.control.telemetry.toNat 47 32 = cap ∧ bits t.control.telemetry.toNat 31 24 = min 255 hot ∧
        bits t.control.telemetry.toNat 23 16 = t.cappedCores ∧ t.control.telemetry.getLsbD 1 = (t.board.capped && t.board.hold != 0) ∧
        t.control.telemetry.getLsbD 0 = (s.readings true).any (fun r => decide (105 ≤ r)) ∧ t.mem = s.mem ∧
        t.board.stopped = (s.board.stopped && !((s.readings true).all (fun r => decide (r < 115)) && s.strands.isEmpty)) ∧
        (over_ → s.board.hold < 3 → free → s.board.hold = 0 ∨ enough = false → t.board.hold = s.board.hold + 1 ∧ t.board.holdSince = s.dclk) ∧
        (over_ → s.board.hold = 3 ∨ ¬free ∨ (0 < s.board.hold ∧ enough = true) → t.board.hold = s.board.hold) ∧
        (∀ since, ¬over_ → 0 < s.board.hold → free → s.board.clearSince = some since → since.toNat + 65536 ≤ s.dclk.toNat →
          t.board.hold = s.board.hold - 1) ∧
        (¬over_ → s.board.hold = 0 ∨ ¬free ∨ s.board.clearSince = none → t.board.hold = s.board.hold)) ∧
    (∀ core sensor r m, core < 192 → sensor < 8 → s.board.stopped = false → Tbl.find (s.core core).sensors sensor = some (r, m) →
      (115 ≤ r → (s.core core).outOfService = false →
        ∃ t, exec (.thermalStop core sensor) s = .next (s.unlessFull t) ∧ t.board.stopped = true) ∧
      (r < 115 ∨ (s.core core).outOfService = true → exec (.thermalStop core sensor) s = .next s)) ∧
    (∃ t, exec .packageReset s = .next t ∧ t.dclk = 0 ∧ t.strands = [] ∧ t.blocks = [] ∧ t.clusters = [] ∧ t.flights = [] ∧
      t.control = State.reset.control ∧ t.board.stage = 0 ∧ t.board.rollback = s.board.rollback ∧ t.board.outList = s.board.outList) ∧
    (∀ (a b : BootImage) (bad : List Nat) (kernel : BitVec 384),
      let first := s.board.slotA.getD a
      (s.board.stage ≠ 0 → exec (.packageBoot ⟨a, b⟩ ⟨bad, kernel⟩) s = .next s) ∧
      (∀ i, s.board.stage = 0 → (imageAccepted first s.board.rollback = true ∧ i = first ∨
          imageAccepted first s.board.rollback = false ∧ imageAccepted b s.board.rollback = true ∧ i = b) →
        ∃ t, exec (.packageBoot ⟨a, b⟩ ⟨bad, kernel⟩) s = .next t ∧ t.board.stage = 2 ∧ t.board.version = i.version ∧
          (t.board.firmware, t.board.kernel, t.board.badStacks) = (i.digest, kernel, bad) ∧ t.ecc = [] ∧
          t.board.rollback = (if i.flags.getLsbD 0 then i.version else s.board.rollback) ∧
          ∀ k ∈ s.board.outList, (t.core k).outOfService = true) ∧
      (s.board.stage = 0 → imageAccepted first s.board.rollback = false → imageAccepted b s.board.rollback = false →
        ∃ t, exec (.packageBoot ⟨a, b⟩ ⟨bad, kernel⟩) s = .next t ∧ t.board.stage = 3)) ∧
    (∀ i : BootImage, (s.board.stage = 3 → ∃ t, exec (.recoveryImageWrite i) s = .next t ∧ t.board.slotA = some i) ∧
      (s.board.stage ≠ 3 → exec (.recoveryImageWrite i) s = .next s))

/-- 02 R11, R12, R15, R34, R40: words of the spec's example columns decode to the instructions that they stand for; words with
an unassigned opcode, an unused bit or a class index out of range do not decode. -/
def Obligations.ExampleWordsDecode : Prop :=
  (∀ p ∈ [(0x01000308#32, Instr.setmode 0x0308), (0x07C00A00#32, .brx 3 10), (0x5800407F#32, .vgrow 64 127), (0x5E060200#32, .rdsr 6 2),
      (0x1401D3F1#32, .add 1 211 241), (0x1F0A0C0E#32, .lea 10 12 14), (0x5A020103#32, .shfl 2 1 3), (0x33010203#32, .ffma 1 2 3),
      (0x51720101#32, .fcmp 7 2 1 1), (0x52040102#32, .pand 4 1 2), (0x68010207#32, .lds 1 2 1 3), (0x73020A03#32, .stb 2 10 3),
      (0x7D000A0C#32, .tlbinv 0 10 12), (0x81020501#32, .bararArm 2 5), (0x89AB0A04#32, .atom 5 2 3 10 4), (0x8D130E03#32, .lda 19 14 0 3),
      (0xA0041000#32, .cpy 4 1 0), (0xA6210800#32, .shset 2 1 8), (0xA8040A0C#32, .mgo 4 10 12), (0xC808F300#32, .syscall 8 243),
      (0xC9000042#32, .trap 0x42), (0xCA000001#32, .tret 1)], decode p.1 = .ok p.2) ∧
  (∀ p ∈ [(0x11300800#32, Instr.mset 1 2 0x800), (0x030000FF#32, .mmul 0 0 0 0xFF), (0x10980000#32, .mmax 1 3 0 0),
      (0x0E009000#32, .mtrn 0 0 1 1), (0x05904804#32, .mout 1 2 0 2 2 4), (0x0D000000#32, .mstop)], decodeSeq p.1 = .ok p.2) ∧
  decode 0x00000000#32 = .bad .illegalWord ∧ decode 0x0A000001#32 = .bad .illegalWord ∧ decode 0x52100000#32 = .bad .illegalOperand ∧
  decode 0xF8000001#32 = .bad .illegalClause ∧ decodeSeq 0x12000000#32 = .bad .seqIllegal

/-- 02 R11 to R15, R21, R23, R40: every bit of a well-formed instruction's word is read back: decoding undoes encoding, for
every word of the strand stream and of the sequencer's. -/
def Obligations.EncodedWordsDecodeBack : Prop :=
  ∀ (i : Instr) (w : Word), i.wf = true → encode i = some w →
    if i.isSequencer then decodeSeq w = .ok i else decode w = .ok i

/-- 04 R79, R80, R81 (that a step is one tick of DCLK, and that the agenda names the turns, is the model's choice: log entry 3): a
turn of a fragment that stands in a started clause, whose word decodes to `i` and may issue, is one tick and `i` itself (R107:
the strands that a `yield` of its partition holds see the issue, and the partition's pointer moves past the slot); a turn of a
sequencer whose word is at hand is one tick and that word; an event of the agenda is one tick and that event. A tick in which no
barrier flips (R288) advances time alone. Before it, what comes due with time happens: watchdogs that expire (20 R440), cores whose
columns have failed (21 R455), commands that are over (22 R470); with none of them nothing does. -/
def Obligations.StepRunsTheDecodedWord : Prop :=
  ∀ (s : State) (i : Instr) (k : Nat) (slot : Bool) (r : List Turn),
    let v := s.settleDue
    let u := { v with agenda := r }
    (∀ (st : Strand) (f : Frag), v.agenda = .issue k slot :: r → v.strand k = some st → st.frag slot = some f → f.hold = .none → f.started = true →
      decode f.word = .ok i → st.mayIssue u slot = true → st.openFault = none → (∀ n ∈ regsOf f i, n ∉ u.pending k st) →
      u.unitsAccept k st (opcodeOf f.word) = true → u.orderReady k st f i = true →
      let t := u.tick k slot
      step s = exec i ({ t with lastPart := k / 16, rot := Tbl.set 0 t.rot (k / 16) ((fragPlace k slot + 1) % 32) }.noteIssue k)) ∧
    (∀ (b : Block) (q : Stream) (w : Word), v.agenda = .seq k :: r → v.block k = some b → b.seq.pend = none → b.seq.running = some q →
      b.seq.halt = none → b.seq.aborting = none → u.seqGoesOn k q = true → q.ready = some w → b.seq.wait = none →
      seqOperation w = false ∨ u.granted k = true → decodeSeq w = .ok i → step s = exec i (u.tick k false)) ∧
    (v.agenda = .event i :: r → step s = exec i (u.tick v.cur v.curSlot)) ∧
    ((∀ x ∈ v.flips, v.dclk + 1 < x.2.2) → u.tick k slot = { u with dclk := v.dclk + 1, cur := k, curSlot := slot }) ∧
    ((∀ p ∈ s.blocks, ∀ x ∈ p.2.barriers, x.2.firstWait = none) → (∀ l ∈ s.launches, l.groupFirst = []) →
      (∀ p ∈ s.cores, p.2.columnFails = false) → s.control.placing = none → s.control.killing = [] → s.control.outing = none → v = s)

/-- What a word leaves alone whose whole effect is a result in registers (05 R132 to R146, 03 R63 to R67): every other
register, the lanes of its own that it does not write (R126), every predicate but the carry p15 of `addc` and `subb` (R137), the other
pipe's latch (04 R118), the other fragment, the rest of the strand but SIG and the generators, every other strand, and every byte of
memory. The latch of the word's pipe takes its result, in the lanes that it writes, when the word is one that writes a latch, and keeps
its value when it is not (R118, 02 R19). -/
def Obligations.RegisterWordsChangeTheirDestinationAlone : Prop :=
  ∀ (i : Instr) (s t : State) (c : Ctx) (r : Role) (d : BitVec 8),
    registerWord i = true → (operandsOf i).head? = some (r, d) → Issued i s c → exec i s = .next t →
      s.onlyStrand t s.cur ∧ (∀ a, t.byte a = s.byte a) ∧
      ∃ st, t.strand s.cur = some st ∧
        (∀ n, (n < d.toNat ∨ d.toNat + c.destCount r ≤ n) → st.reg n = c.st.reg n) ∧
        (∀ n L, L < 32 → Mask.has (c.written i) L = false → Lanes.at 0 (st.reg n) L = Lanes.at 0 (c.st.reg n) L) ∧
        (∀ L, L < 32 → Lanes.at 0 (st.latch c.pipe) L =
          if latchWord i = true ∧ Mask.has (c.written i) L = true then BitVec.ofNat 64 ((st.regs (c.destCount r == 2) d.toNat).at L)
          else Lanes.at 0 (c.st.latch c.pipe) L) ∧
        (∀ n, n ≠ 15 ∨ (∀ x y z, i ≠ .addc x y z ∧ i ≠ .subb x y z) → st.pred n = c.st.pred n) ∧
        st.latch (!c.pipe) = c.st.latch (!c.pipe) ∧
        st.frag s.curSlot = some c.f.next ∧ st.frag (!s.curSlot) = c.st.frag (!s.curSlot) ∧
        { st with fragA := c.st.fragA, fragB := c.st.fragB, v := c.st.v, o := c.st.o, l0 := c.st.l0, l1 := c.st.l1, p := c.st.p,
                  sr := c.st.sr, sig := c.st.sig } = c.st

/-- 24 R492, 19 R424, 07 R177, 04 R85: what reset leaves, as far as the spec gives it: time 0, no strand and no block, every
chain empty, nothing in flight, no slice that ends, no poison mark, a package that has not booted; and the memory's canonical
form (the model's own, log entry 2). -/
def Obligations.ResetLeavesTheStatedValues : Prop :=
  let s := State.reset
  s.dclk = 0 ∧ s.strands = [] ∧ s.blocks = [] ∧ s.flights = [] ∧ s.launches = [] ∧ s.gangs = [] ∧ s.eventHeld = [] ∧ s.board.stage = 0 ∧
    s.memWf ∧ (∀ a, s.poisoned a = false) ∧ (∀ k, (s.cluster k).lots = [] ∧ (s.cluster k).wbs = [] ∧ (s.cluster k).clock = 0) ∧
    (∀ k j, j < 4 → (s.core k).time j = ⟨BitVec.allOnes 64, 0b010#3, 0, false⟩ ∧ (s.core k).outOfService = false) ∧
    (s.control.busy = false ∧ s.control.telemetry = 0)

/-- The model's own form of memory (log entry 2): every step keeps the bytes of HBM4E in their canonical form, from every state
that has it. -/
def Obligations.StepsKeepMemoryCanonical : Prop :=
  ∀ s t : State, s.memWf → step s = .next t → t.memWf
end

