-- ==== Sys2Proof/Laws/Sparse.lean ====
section
/-!
SUPPORT. The laws of sparse tables: what a read gives after a write, and that every write keeps the canonical form.
-/
namespace Sys2Proof.Machine

variable {α : Type}

@[simp] theorem Tbl.find_nil (k : Nat) : Tbl.find ([] : Tbl α) k = none := rfl

@[simp] theorem Tbl.find_put_same (t : Tbl α) (k : Nat) (a : α) : Tbl.find (Tbl.put t k a) k = some a := by
  induction t with
  | nil => simp [Tbl.put, Tbl.find]
  | cons p r ih =>
    obtain ⟨j, b⟩ := p
    simp only [Tbl.put]
    split
    · simp [Tbl.find]
    · split
      · simp [Tbl.find]
      · rw [Tbl.find, if_neg (by omega), ih]

theorem Tbl.find_put_ne (t : Tbl α) {k j : Nat} (a : α) (h : j ≠ k) : Tbl.find (Tbl.put t k a) j = Tbl.find t j := by
  induction t with
  | nil => simp [Tbl.put, Tbl.find, Ne.symm h]
  | cons p r ih =>
    obtain ⟨i, b⟩ := p
    simp only [Tbl.put]
    split
    · rw [Tbl.find, if_neg (Ne.symm h)]
    · split
      · next h2 => subst h2; simp [Tbl.find, Ne.symm h]
      · simp only [Tbl.find, ih]

theorem Tbl.find_put (t : Tbl α) (k j : Nat) (a : α) :
    Tbl.find (Tbl.put t k a) j = if j = k then some a else Tbl.find t j := by
  split
  · next h => rw [h, Tbl.find_put_same]
  · next h => exact Tbl.find_put_ne t a h

@[simp] theorem Tbl.find_del_same (t : Tbl α) (k : Nat) : Tbl.find (Tbl.del t k) k = none := by
  induction t with
  | nil => rfl
  | cons p r ih =>
    obtain ⟨j, b⟩ := p
    simp only [Tbl.del]
    split
    · exact ih
    · next h => rw [Tbl.find, if_neg (Ne.symm h), ih]

theorem Tbl.find_del_ne (t : Tbl α) {k j : Nat} (h : j ≠ k) : Tbl.find (Tbl.del t k) j = Tbl.find t j := by
  induction t with
  | nil => rfl
  | cons p r ih =>
    obtain ⟨i, b⟩ := p
    simp only [Tbl.del]
    split
    · next h2 => subst h2; simp [Tbl.find, Ne.symm h, ih]
    · simp only [Tbl.find, ih]

theorem Tbl.find_del (t : Tbl α) (k j : Nat) :
    Tbl.find (Tbl.del t k) j = if j = k then none else Tbl.find t j := by
  split
  · next h => rw [h, Tbl.find_del_same]
  · next h => exact Tbl.find_del_ne t h

/-- A read after a write to any key. -/
theorem Tbl.get_set [DecidableEq α] (d : α) (t : Tbl α) (k j : Nat) (a : α) :
    Tbl.get d (Tbl.set d t k a) j = if j = k then a else Tbl.get d t j := by
  unfold Tbl.get Tbl.set
  split
  · next h => rw [Tbl.find_del]; split <;> simp [*]
  · rw [Tbl.find_put]; split <;> simp

@[simp] theorem Tbl.get_set_same [DecidableEq α] (d : α) (t : Tbl α) (k : Nat) (a : α) :
    Tbl.get d (Tbl.set d t k a) k = a := by simp [Tbl.get_set]

theorem Tbl.get_set_ne [DecidableEq α] (d : α) (t : Tbl α) {k j : Nat} (a : α) (h : j ≠ k) :
    Tbl.get d (Tbl.set d t k a) j = Tbl.get d t j := by simp [Tbl.get_set, h]

/-! ### The canonical form -/

theorem Tbl.sortedFrom_mono {lo lo' : Nat} {t : Tbl α} (h : Tbl.sortedFrom lo t = true) (hl : lo' ≤ lo) :
    Tbl.sortedFrom lo' t = true := by
  cases t with
  | nil => rfl
  | cons p r =>
    obtain ⟨j, b⟩ := p
    simp only [Tbl.sortedFrom, Bool.and_eq_true, decide_eq_true_eq] at h ⊢
    exact ⟨by omega, h.2⟩

theorem Tbl.sortedFrom_put {lo : Nat} {t : Tbl α} (k : Nat) (a : α) (h : Tbl.sortedFrom lo t = true) (hk : lo ≤ k) :
    Tbl.sortedFrom lo (Tbl.put t k a) = true := by
  induction t generalizing lo with
  | nil => simp [Tbl.put, Tbl.sortedFrom, hk]
  | cons p r ih =>
    obtain ⟨j, b⟩ := p
    simp only [Tbl.sortedFrom, Bool.and_eq_true, decide_eq_true_eq] at h
    simp only [Tbl.put]
    split
    · simp only [Tbl.sortedFrom, Bool.and_eq_true, decide_eq_true_eq]
      exact ⟨hk, by omega, h.2⟩
    · split
      · next h2 => subst h2; simp [Tbl.sortedFrom, h.1, h.2]
      · simp only [Tbl.sortedFrom, Bool.and_eq_true, decide_eq_true_eq]
        exact ⟨h.1, ih h.2 (by omega)⟩

theorem Tbl.sortedFrom_del {lo : Nat} {t : Tbl α} (k : Nat) (h : Tbl.sortedFrom lo t = true) :
    Tbl.sortedFrom lo (Tbl.del t k) = true := by
  induction t generalizing lo with
  | nil => rfl
  | cons p r ih =>
    obtain ⟨j, b⟩ := p
    simp only [Tbl.sortedFrom, Bool.and_eq_true, decide_eq_true_eq] at h
    simp only [Tbl.del]
    split
    · exact Tbl.sortedFrom_mono (ih h.2) (by omega)
    · simp only [Tbl.sortedFrom, Bool.and_eq_true, decide_eq_true_eq]
      exact ⟨h.1, ih h.2⟩

theorem Tbl.sorted_put {t : Tbl α} (k : Nat) (a : α) (h : Tbl.sorted t = true) : Tbl.sorted (Tbl.put t k a) = true :=
  Tbl.sortedFrom_put k a h (Nat.zero_le k)

theorem Tbl.sorted_del {t : Tbl α} (k : Nat) (h : Tbl.sorted t = true) : Tbl.sorted (Tbl.del t k) = true :=
  Tbl.sortedFrom_del k h

theorem Tbl.sorted_set [DecidableEq α] (d : α) {t : Tbl α} (k : Nat) (a : α) (h : Tbl.sorted t = true) :
    Tbl.sorted (Tbl.set d t k a) = true := by
  unfold Tbl.set
  split
  · exact Tbl.sorted_del k h
  · exact Tbl.sorted_put k a h

theorem Tbl.noDefault_put [DecidableEq α] (d : α) {t : Tbl α} (k : Nat) {a : α} (ha : a ≠ d) (h : Tbl.noDefault d t = true) :
    Tbl.noDefault d (Tbl.put t k a) = true := by
  induction t with
  | nil => simp [Tbl.put, Tbl.noDefault, ha]
  | cons p r ih =>
    obtain ⟨j, b⟩ := p
    simp only [Tbl.noDefault, List.all_cons, Bool.and_eq_true, decide_eq_true_eq] at h ih
    simp only [Tbl.put]
    split
    · simp only [Tbl.noDefault, List.all_cons, Bool.and_eq_true, decide_eq_true_eq]
      exact ⟨ha, h⟩
    · split
      · simp only [Tbl.noDefault, List.all_cons, Bool.and_eq_true, decide_eq_true_eq]
        exact ⟨ha, h.2⟩
      · simp only [Tbl.noDefault, List.all_cons, Bool.and_eq_true, decide_eq_true_eq]
        exact ⟨h.1, ih h.2⟩

theorem Tbl.noDefault_del [DecidableEq α] (d : α) {t : Tbl α} (k : Nat) (h : Tbl.noDefault d t = true) :
    Tbl.noDefault d (Tbl.del t k) = true := by
  induction t with
  | nil => rfl
  | cons p r ih =>
    obtain ⟨j, b⟩ := p
    simp only [Tbl.noDefault, List.all_cons, Bool.and_eq_true, decide_eq_true_eq] at h ih
    simp only [Tbl.del]
    split
    · exact ih h.2
    · simp only [Tbl.noDefault, List.all_cons, Bool.and_eq_true, decide_eq_true_eq]
      exact ⟨h.1, ih h.2⟩

theorem Tbl.noDefault_set [DecidableEq α] (d : α) {t : Tbl α} (k : Nat) (a : α) (h : Tbl.noDefault d t = true) :
    Tbl.noDefault d (Tbl.set d t k a) = true := by
  unfold Tbl.set
  split
  · exact Tbl.noDefault_del d k h
  · next ha => exact Tbl.noDefault_put d k ha h

/-- Nothing is listed below the least key. -/
theorem Tbl.find_lt_none {lo : Nat} {t : Tbl α} (h : Tbl.sortedFrom lo t = true) {k : Nat} (hk : k < lo) : Tbl.find t k = none := by
  induction t generalizing lo with
  | nil => rfl
  | cons p r ih =>
    obtain ⟨j, b⟩ := p
    simp only [Tbl.sortedFrom, Bool.and_eq_true, decide_eq_true_eq] at h
    rw [Tbl.find, if_neg (by omega)]
    exact ih h.2 (by omega)

end Sys2Proof.Machine
end

