-- ==== Sys2Proof/Laws/State.lean ====
section
/-!
SUPPORT. What each update of the package's state leaves of every field: one lemma per field per update, true by unfolding.
-/
namespace Sys2Proof.Machine

/-! ### flips -/

/-- The flip of one barrier changes its block and the flips that are to come (11 R288). -/
theorem State.flipNow_frame (s : State) (x : Nat × Nat × DWord) :
    ∃ bs fs, s.flipNow x = { s with blocks := bs, flips := fs } := by
  have h1 : ∀ (u : State) (bk k : Nat), ∃ bs, u.flipPhase bk k = { u with blocks := bs } := by
    intro u bk k
    unfold State.flipPhase
    split
    · exact ⟨u.blocks, rfl⟩
    · exact ⟨_, rfl⟩
  have h2 : ∀ (u : State) (bk k : Nat) (t : DWord), ∃ fs, u.settle bk k t = { u with flips := fs } := by
    intro u bk k t
    unfold State.settle
    split
    · exact ⟨u.flips, rfl⟩
    · split
      · exact ⟨_, rfl⟩
      · exact ⟨u.flips, rfl⟩
  obtain ⟨bs, hb⟩ := h1 { s with flips := s.flips.erase x } x.1 x.2.1
  obtain ⟨fs, hf⟩ := h2 (({ s with flips := s.flips.erase x }).flipPhase x.1 x.2.1) x.1 x.2.1 3
  exact ⟨bs, fs, by rw [State.flipNow, hf, hb]⟩
/-- So do the flips of a tick. -/
theorem State.flipDue_frame (s : State) : ∃ bs fs, s.flipDue = { s with blocks := bs, flips := fs } := by
  unfold State.flipDue
  generalize s.flips.filter (fun x => decide (x.2.2 ≤ s.dclk)) = l
  induction l generalizing s with
  | nil => exact ⟨s.blocks, s.flips, rfl⟩
  | cons x l ih =>
    obtain ⟨bs, fs, h⟩ := s.flipNow_frame x
    obtain ⟨bs', fs', h'⟩ := ih (s.flipNow x)
    exact ⟨bs', fs', by rw [List.foldl_cons, h', h]⟩

/-! ### setByte -/

@[simp] theorem State.setByte_dclk (s : State) (a : Nat) (b : Byte) : (s.setByte a b).dclk = s.dclk := rfl
@[simp] theorem State.setByte_poison (s : State) (a : Nat) (b : Byte) : (s.setByte a b).poison = s.poison := rfl
@[simp] theorem State.setByte_ecc (s : State) (a : Nat) (b : Byte) : (s.setByte a b).ecc = s.ecc := rfl
@[simp] theorem State.setByte_scrubbed (s : State) (a : Nat) (b : Byte) : (s.setByte a b).scrubbed = s.scrubbed := rfl
@[simp] theorem State.setByte_strands (s : State) (a : Nat) (b : Byte) : (s.setByte a b).strands = s.strands := rfl
@[simp] theorem State.setByte_blocks (s : State) (a : Nat) (b : Byte) : (s.setByte a b).blocks = s.blocks := rfl
@[simp] theorem State.setByte_cores (s : State) (a : Nat) (b : Byte) : (s.setByte a b).cores = s.cores := rfl
@[simp] theorem State.setByte_clusters (s : State) (a : Nat) (b : Byte) : (s.setByte a b).clusters = s.clusters := rfl
@[simp] theorem State.setByte_holders (s : State) (a : Nat) (b : Byte) : (s.setByte a b).holders = s.holders := rfl
@[simp] theorem State.setByte_peerStores (s : State) (a : Nat) (b : Byte) : (s.setByte a b).peerStores = s.peerStores := rfl
@[simp] theorem State.setByte_hyper (s : State) (a : Nat) (b : Byte) : (s.setByte a b).hyper = s.hyper := rfl
@[simp] theorem State.setByte_hartDom (s : State) (a : Nat) (b : Byte) : (s.setByte a b).hartDom = s.hartDom := rfl
@[simp] theorem State.setByte_answers (s : State) (a : Nat) (b : Byte) : (s.setByte a b).answers = s.answers := rfl
@[simp] theorem State.setByte_late (s : State) (a : Nat) (b : Byte) : (s.setByte a b).late = s.late := rfl
@[simp] theorem State.setByte_latched (s : State) (a : Nat) (b : Byte) : (s.setByte a b).latched = s.latched := rfl
@[simp] theorem State.setByte_extStamp (s : State) (a : Nat) (b : Byte) : (s.setByte a b).extStamp = s.extStamp := rfl
@[simp] theorem State.setByte_procStamp (s : State) (a : Nat) (b : Byte) : (s.setByte a b).procStamp = s.procStamp := rfl
@[simp] theorem State.setByte_relStamp (s : State) (a : Nat) (b : Byte) : (s.setByte a b).relStamp = s.relStamp := rfl
@[simp] theorem State.setByte_flights (s : State) (a : Nat) (b : Byte) : (s.setByte a b).flights = s.flights := rfl
@[simp] theorem State.setByte_nextFlight (s : State) (a : Nat) (b : Byte) : (s.setByte a b).nextFlight = s.nextFlight := rfl
@[simp] theorem State.setByte_nextOrder (s : State) (a : Nat) (b : Byte) : (s.setByte a b).nextOrder = s.nextOrder := rfl
@[simp] theorem State.setByte_nextTicket (s : State) (a : Nat) (b : Byte) : (s.setByte a b).nextTicket = s.nextTicket := rfl
@[simp] theorem State.setByte_sealed (s : State) (a : Nat) (b : Byte) : (s.setByte a b).sealed = s.sealed := rfl
@[simp] theorem State.setByte_control (s : State) (a : Nat) (b : Byte) : (s.setByte a b).control = s.control := rfl
@[simp] theorem State.setByte_notify (s : State) (a : Nat) (b : Byte) : (s.setByte a b).notify = s.notify := rfl
@[simp] theorem State.setByte_lastQueue (s : State) (a : Nat) (b : Byte) : (s.setByte a b).lastQueue = s.lastQueue := rfl
@[simp] theorem State.setByte_nextSeq (s : State) (a : Nat) (b : Byte) : (s.setByte a b).nextSeq = s.nextSeq := rfl
@[simp] theorem State.setByte_launches (s : State) (a : Nat) (b : Byte) : (s.setByte a b).launches = s.launches := rfl
@[simp] theorem State.setByte_nextLaunch (s : State) (a : Nat) (b : Byte) : (s.setByte a b).nextLaunch = s.nextLaunch := rfl
@[simp] theorem State.setByte_gangs (s : State) (a : Nat) (b : Byte) : (s.setByte a b).gangs = s.gangs := rfl
@[simp] theorem State.setByte_units (s : State) (a : Nat) (b : Byte) : (s.setByte a b).units = s.units := rfl
@[simp] theorem State.setByte_tokens (s : State) (a : Nat) (b : Byte) : (s.setByte a b).tokens = s.tokens := rfl
@[simp] theorem State.setByte_pinRelease (s : State) (a : Nat) (b : Byte) : (s.setByte a b).pinRelease = s.pinRelease := rfl
@[simp] theorem State.setByte_eventProd (s : State) (a : Nat) (b : Byte) : (s.setByte a b).eventProd = s.eventProd := rfl
@[simp] theorem State.setByte_eventHeld (s : State) (a : Nat) (b : Byte) : (s.setByte a b).eventHeld = s.eventHeld := rfl
@[simp] theorem State.setByte_services (s : State) (a : Nat) (b : Byte) : (s.setByte a b).services = s.services := rfl
@[simp] theorem State.setByte_settings (s : State) (a : Nat) (b : Byte) : (s.setByte a b).settings = s.settings := rfl
@[simp] theorem State.setByte_deposits (s : State) (a : Nat) (b : Byte) : (s.setByte a b).deposits = s.deposits := rfl
@[simp] theorem State.setByte_preempts (s : State) (a : Nat) (b : Byte) : (s.setByte a b).preempts = s.preempts := rfl
@[simp] theorem State.setByte_collectives (s : State) (a : Nat) (b : Byte) : (s.setByte a b).collectives = s.collectives := rfl
@[simp] theorem State.setByte_scans (s : State) (a : Nat) (b : Byte) : (s.setByte a b).scans = s.scans := rfl
@[simp] theorem State.setByte_scanDropped (s : State) (a : Nat) (b : Byte) : (s.setByte a b).scanDropped = s.scanDropped := rfl
@[simp] theorem State.setByte_teardowns (s : State) (a : Nat) (b : Byte) : (s.setByte a b).teardowns = s.teardowns := rfl
@[simp] theorem State.setByte_checkpoint (s : State) (a : Nat) (b : Byte) : (s.setByte a b).checkpoint = s.checkpoint := rfl
@[simp] theorem State.setByte_board (s : State) (a : Nat) (b : Byte) : (s.setByte a b).board = s.board := rfl
@[simp] theorem State.setByte_flips (s : State) (a : Nat) (b : Byte) : (s.setByte a b).flips = s.flips := rfl
@[simp] theorem State.setByte_agenda (s : State) (a : Nat) (b : Byte) : (s.setByte a b).agenda = s.agenda := rfl
@[simp] theorem State.setByte_cur (s : State) (a : Nat) (b : Byte) : (s.setByte a b).cur = s.cur := rfl
@[simp] theorem State.setByte_curSlot (s : State) (a : Nat) (b : Byte) : (s.setByte a b).curSlot = s.curSlot := rfl
@[simp] theorem State.setByte_fresh (s : State) (a : Nat) (b : Byte) : (s.setByte a b).fresh = s.fresh := rfl
@[simp] theorem State.setByte_rot (s : State) (a : Nat) (b : Byte) : (s.setByte a b).rot = s.rot := rfl
@[simp] theorem State.setByte_lastPart (s : State) (a : Nat) (b : Byte) : (s.setByte a b).lastPart = s.lastPart := rfl

/-! ### mark -/

@[simp] theorem State.mark_dclk (s : State) (g : Nat) : (s.mark g).dclk = s.dclk := rfl
@[simp] theorem State.mark_mem (s : State) (g : Nat) : (s.mark g).mem = s.mem := rfl
@[simp] theorem State.mark_ecc (s : State) (g : Nat) : (s.mark g).ecc = s.ecc := rfl
@[simp] theorem State.mark_scrubbed (s : State) (g : Nat) : (s.mark g).scrubbed = s.scrubbed := rfl
@[simp] theorem State.mark_strands (s : State) (g : Nat) : (s.mark g).strands = s.strands := rfl
@[simp] theorem State.mark_blocks (s : State) (g : Nat) : (s.mark g).blocks = s.blocks := rfl
@[simp] theorem State.mark_cores (s : State) (g : Nat) : (s.mark g).cores = s.cores := rfl
@[simp] theorem State.mark_clusters (s : State) (g : Nat) : (s.mark g).clusters = s.clusters := rfl
@[simp] theorem State.mark_holders (s : State) (g : Nat) : (s.mark g).holders = s.holders := rfl
@[simp] theorem State.mark_peerStores (s : State) (g : Nat) : (s.mark g).peerStores = s.peerStores := rfl
@[simp] theorem State.mark_hyper (s : State) (g : Nat) : (s.mark g).hyper = s.hyper := rfl
@[simp] theorem State.mark_hartDom (s : State) (g : Nat) : (s.mark g).hartDom = s.hartDom := rfl
@[simp] theorem State.mark_answers (s : State) (g : Nat) : (s.mark g).answers = s.answers := rfl
@[simp] theorem State.mark_late (s : State) (g : Nat) : (s.mark g).late = s.late := rfl
@[simp] theorem State.mark_latched (s : State) (g : Nat) : (s.mark g).latched = s.latched := rfl
@[simp] theorem State.mark_extStamp (s : State) (g : Nat) : (s.mark g).extStamp = s.extStamp := rfl
@[simp] theorem State.mark_procStamp (s : State) (g : Nat) : (s.mark g).procStamp = s.procStamp := rfl
@[simp] theorem State.mark_relStamp (s : State) (g : Nat) : (s.mark g).relStamp = s.relStamp := rfl
@[simp] theorem State.mark_flights (s : State) (g : Nat) : (s.mark g).flights = s.flights := rfl
@[simp] theorem State.mark_nextFlight (s : State) (g : Nat) : (s.mark g).nextFlight = s.nextFlight := rfl
@[simp] theorem State.mark_nextOrder (s : State) (g : Nat) : (s.mark g).nextOrder = s.nextOrder := rfl
@[simp] theorem State.mark_nextTicket (s : State) (g : Nat) : (s.mark g).nextTicket = s.nextTicket := rfl
@[simp] theorem State.mark_sealed (s : State) (g : Nat) : (s.mark g).sealed = s.sealed := rfl
@[simp] theorem State.mark_control (s : State) (g : Nat) : (s.mark g).control = s.control := rfl
@[simp] theorem State.mark_notify (s : State) (g : Nat) : (s.mark g).notify = s.notify := rfl
@[simp] theorem State.mark_lastQueue (s : State) (g : Nat) : (s.mark g).lastQueue = s.lastQueue := rfl
@[simp] theorem State.mark_nextSeq (s : State) (g : Nat) : (s.mark g).nextSeq = s.nextSeq := rfl
@[simp] theorem State.mark_launches (s : State) (g : Nat) : (s.mark g).launches = s.launches := rfl
@[simp] theorem State.mark_nextLaunch (s : State) (g : Nat) : (s.mark g).nextLaunch = s.nextLaunch := rfl
@[simp] theorem State.mark_gangs (s : State) (g : Nat) : (s.mark g).gangs = s.gangs := rfl
@[simp] theorem State.mark_units (s : State) (g : Nat) : (s.mark g).units = s.units := rfl
@[simp] theorem State.mark_tokens (s : State) (g : Nat) : (s.mark g).tokens = s.tokens := rfl
@[simp] theorem State.mark_pinRelease (s : State) (g : Nat) : (s.mark g).pinRelease = s.pinRelease := rfl
@[simp] theorem State.mark_eventProd (s : State) (g : Nat) : (s.mark g).eventProd = s.eventProd := rfl
@[simp] theorem State.mark_eventHeld (s : State) (g : Nat) : (s.mark g).eventHeld = s.eventHeld := rfl
@[simp] theorem State.mark_services (s : State) (g : Nat) : (s.mark g).services = s.services := rfl
@[simp] theorem State.mark_settings (s : State) (g : Nat) : (s.mark g).settings = s.settings := rfl
@[simp] theorem State.mark_deposits (s : State) (g : Nat) : (s.mark g).deposits = s.deposits := rfl
@[simp] theorem State.mark_preempts (s : State) (g : Nat) : (s.mark g).preempts = s.preempts := rfl
@[simp] theorem State.mark_collectives (s : State) (g : Nat) : (s.mark g).collectives = s.collectives := rfl
@[simp] theorem State.mark_scans (s : State) (g : Nat) : (s.mark g).scans = s.scans := rfl
@[simp] theorem State.mark_scanDropped (s : State) (g : Nat) : (s.mark g).scanDropped = s.scanDropped := rfl
@[simp] theorem State.mark_teardowns (s : State) (g : Nat) : (s.mark g).teardowns = s.teardowns := rfl
@[simp] theorem State.mark_checkpoint (s : State) (g : Nat) : (s.mark g).checkpoint = s.checkpoint := rfl
@[simp] theorem State.mark_board (s : State) (g : Nat) : (s.mark g).board = s.board := rfl
@[simp] theorem State.mark_flips (s : State) (g : Nat) : (s.mark g).flips = s.flips := rfl
@[simp] theorem State.mark_agenda (s : State) (g : Nat) : (s.mark g).agenda = s.agenda := rfl
@[simp] theorem State.mark_cur (s : State) (g : Nat) : (s.mark g).cur = s.cur := rfl
@[simp] theorem State.mark_curSlot (s : State) (g : Nat) : (s.mark g).curSlot = s.curSlot := rfl
@[simp] theorem State.mark_fresh (s : State) (g : Nat) : (s.mark g).fresh = s.fresh := rfl
@[simp] theorem State.mark_rot (s : State) (g : Nat) : (s.mark g).rot = s.rot := rfl
@[simp] theorem State.mark_lastPart (s : State) (g : Nat) : (s.mark g).lastPart = s.lastPart := rfl

/-! ### unmark -/

@[simp] theorem State.unmark_dclk (s : State) (g : Nat) : (s.unmark g).dclk = s.dclk := rfl
@[simp] theorem State.unmark_mem (s : State) (g : Nat) : (s.unmark g).mem = s.mem := rfl
@[simp] theorem State.unmark_scrubbed (s : State) (g : Nat) : (s.unmark g).scrubbed = s.scrubbed := rfl
@[simp] theorem State.unmark_strands (s : State) (g : Nat) : (s.unmark g).strands = s.strands := rfl
@[simp] theorem State.unmark_blocks (s : State) (g : Nat) : (s.unmark g).blocks = s.blocks := rfl
@[simp] theorem State.unmark_cores (s : State) (g : Nat) : (s.unmark g).cores = s.cores := rfl
@[simp] theorem State.unmark_clusters (s : State) (g : Nat) : (s.unmark g).clusters = s.clusters := rfl
@[simp] theorem State.unmark_holders (s : State) (g : Nat) : (s.unmark g).holders = s.holders := rfl
@[simp] theorem State.unmark_peerStores (s : State) (g : Nat) : (s.unmark g).peerStores = s.peerStores := rfl
@[simp] theorem State.unmark_hyper (s : State) (g : Nat) : (s.unmark g).hyper = s.hyper := rfl
@[simp] theorem State.unmark_hartDom (s : State) (g : Nat) : (s.unmark g).hartDom = s.hartDom := rfl
@[simp] theorem State.unmark_answers (s : State) (g : Nat) : (s.unmark g).answers = s.answers := rfl
@[simp] theorem State.unmark_late (s : State) (g : Nat) : (s.unmark g).late = s.late := rfl
@[simp] theorem State.unmark_latched (s : State) (g : Nat) : (s.unmark g).latched = s.latched := rfl
@[simp] theorem State.unmark_extStamp (s : State) (g : Nat) : (s.unmark g).extStamp = s.extStamp := rfl
@[simp] theorem State.unmark_procStamp (s : State) (g : Nat) : (s.unmark g).procStamp = s.procStamp := rfl
@[simp] theorem State.unmark_relStamp (s : State) (g : Nat) : (s.unmark g).relStamp = s.relStamp := rfl
@[simp] theorem State.unmark_flights (s : State) (g : Nat) : (s.unmark g).flights = s.flights := rfl
@[simp] theorem State.unmark_nextFlight (s : State) (g : Nat) : (s.unmark g).nextFlight = s.nextFlight := rfl
@[simp] theorem State.unmark_nextOrder (s : State) (g : Nat) : (s.unmark g).nextOrder = s.nextOrder := rfl
@[simp] theorem State.unmark_nextTicket (s : State) (g : Nat) : (s.unmark g).nextTicket = s.nextTicket := rfl
@[simp] theorem State.unmark_sealed (s : State) (g : Nat) : (s.unmark g).sealed = s.sealed := rfl
@[simp] theorem State.unmark_control (s : State) (g : Nat) : (s.unmark g).control = s.control := rfl
@[simp] theorem State.unmark_notify (s : State) (g : Nat) : (s.unmark g).notify = s.notify := rfl
@[simp] theorem State.unmark_lastQueue (s : State) (g : Nat) : (s.unmark g).lastQueue = s.lastQueue := rfl
@[simp] theorem State.unmark_nextSeq (s : State) (g : Nat) : (s.unmark g).nextSeq = s.nextSeq := rfl
@[simp] theorem State.unmark_launches (s : State) (g : Nat) : (s.unmark g).launches = s.launches := rfl
@[simp] theorem State.unmark_nextLaunch (s : State) (g : Nat) : (s.unmark g).nextLaunch = s.nextLaunch := rfl
@[simp] theorem State.unmark_gangs (s : State) (g : Nat) : (s.unmark g).gangs = s.gangs := rfl
@[simp] theorem State.unmark_units (s : State) (g : Nat) : (s.unmark g).units = s.units := rfl
@[simp] theorem State.unmark_tokens (s : State) (g : Nat) : (s.unmark g).tokens = s.tokens := rfl
@[simp] theorem State.unmark_pinRelease (s : State) (g : Nat) : (s.unmark g).pinRelease = s.pinRelease := rfl
@[simp] theorem State.unmark_eventProd (s : State) (g : Nat) : (s.unmark g).eventProd = s.eventProd := rfl
@[simp] theorem State.unmark_eventHeld (s : State) (g : Nat) : (s.unmark g).eventHeld = s.eventHeld := rfl
@[simp] theorem State.unmark_services (s : State) (g : Nat) : (s.unmark g).services = s.services := rfl
@[simp] theorem State.unmark_settings (s : State) (g : Nat) : (s.unmark g).settings = s.settings := rfl
@[simp] theorem State.unmark_deposits (s : State) (g : Nat) : (s.unmark g).deposits = s.deposits := rfl
@[simp] theorem State.unmark_preempts (s : State) (g : Nat) : (s.unmark g).preempts = s.preempts := rfl
@[simp] theorem State.unmark_collectives (s : State) (g : Nat) : (s.unmark g).collectives = s.collectives := rfl
@[simp] theorem State.unmark_scans (s : State) (g : Nat) : (s.unmark g).scans = s.scans := rfl
@[simp] theorem State.unmark_scanDropped (s : State) (g : Nat) : (s.unmark g).scanDropped = s.scanDropped := rfl
@[simp] theorem State.unmark_teardowns (s : State) (g : Nat) : (s.unmark g).teardowns = s.teardowns := rfl
@[simp] theorem State.unmark_checkpoint (s : State) (g : Nat) : (s.unmark g).checkpoint = s.checkpoint := rfl
@[simp] theorem State.unmark_board (s : State) (g : Nat) : (s.unmark g).board = s.board := rfl
@[simp] theorem State.unmark_flips (s : State) (g : Nat) : (s.unmark g).flips = s.flips := rfl
@[simp] theorem State.unmark_agenda (s : State) (g : Nat) : (s.unmark g).agenda = s.agenda := rfl
@[simp] theorem State.unmark_cur (s : State) (g : Nat) : (s.unmark g).cur = s.cur := rfl
@[simp] theorem State.unmark_curSlot (s : State) (g : Nat) : (s.unmark g).curSlot = s.curSlot := rfl
@[simp] theorem State.unmark_fresh (s : State) (g : Nat) : (s.unmark g).fresh = s.fresh := rfl
@[simp] theorem State.unmark_rot (s : State) (g : Nat) : (s.unmark g).rot = s.rot := rfl
@[simp] theorem State.unmark_lastPart (s : State) (g : Nat) : (s.unmark g).lastPart = s.lastPart := rfl

/-! ### setStrand -/

@[simp] theorem State.setStrand_dclk (s : State) (k : Nat) (x : Strand) : (s.setStrand k x).dclk = s.dclk := rfl
@[simp] theorem State.setStrand_mem (s : State) (k : Nat) (x : Strand) : (s.setStrand k x).mem = s.mem := rfl
@[simp] theorem State.setStrand_poison (s : State) (k : Nat) (x : Strand) : (s.setStrand k x).poison = s.poison := rfl
@[simp] theorem State.setStrand_ecc (s : State) (k : Nat) (x : Strand) : (s.setStrand k x).ecc = s.ecc := rfl
@[simp] theorem State.setStrand_scrubbed (s : State) (k : Nat) (x : Strand) : (s.setStrand k x).scrubbed = s.scrubbed := rfl
@[simp] theorem State.setStrand_blocks (s : State) (k : Nat) (x : Strand) : (s.setStrand k x).blocks = s.blocks := rfl
@[simp] theorem State.setStrand_cores (s : State) (k : Nat) (x : Strand) : (s.setStrand k x).cores = s.cores := rfl
@[simp] theorem State.setStrand_clusters (s : State) (k : Nat) (x : Strand) : (s.setStrand k x).clusters = s.clusters := rfl
@[simp] theorem State.setStrand_holders (s : State) (k : Nat) (x : Strand) : (s.setStrand k x).holders = s.holders := rfl
@[simp] theorem State.setStrand_peerStores (s : State) (k : Nat) (x : Strand) : (s.setStrand k x).peerStores = s.peerStores := rfl
@[simp] theorem State.setStrand_hyper (s : State) (k : Nat) (x : Strand) : (s.setStrand k x).hyper = s.hyper := rfl
@[simp] theorem State.setStrand_hartDom (s : State) (k : Nat) (x : Strand) : (s.setStrand k x).hartDom = s.hartDom := rfl
@[simp] theorem State.setStrand_answers (s : State) (k : Nat) (x : Strand) : (s.setStrand k x).answers = s.answers := rfl
@[simp] theorem State.setStrand_late (s : State) (k : Nat) (x : Strand) : (s.setStrand k x).late = s.late := rfl
@[simp] theorem State.setStrand_latched (s : State) (k : Nat) (x : Strand) : (s.setStrand k x).latched = s.latched := rfl
@[simp] theorem State.setStrand_extStamp (s : State) (k : Nat) (x : Strand) : (s.setStrand k x).extStamp = s.extStamp := rfl
@[simp] theorem State.setStrand_procStamp (s : State) (k : Nat) (x : Strand) : (s.setStrand k x).procStamp = s.procStamp := rfl
@[simp] theorem State.setStrand_relStamp (s : State) (k : Nat) (x : Strand) : (s.setStrand k x).relStamp = s.relStamp := rfl
@[simp] theorem State.setStrand_flights (s : State) (k : Nat) (x : Strand) : (s.setStrand k x).flights = s.flights := rfl
@[simp] theorem State.setStrand_nextFlight (s : State) (k : Nat) (x : Strand) : (s.setStrand k x).nextFlight = s.nextFlight := rfl
@[simp] theorem State.setStrand_nextOrder (s : State) (k : Nat) (x : Strand) : (s.setStrand k x).nextOrder = s.nextOrder := rfl
@[simp] theorem State.setStrand_nextTicket (s : State) (k : Nat) (x : Strand) : (s.setStrand k x).nextTicket = s.nextTicket := rfl
@[simp] theorem State.setStrand_sealed (s : State) (k : Nat) (x : Strand) : (s.setStrand k x).sealed = s.sealed := rfl
@[simp] theorem State.setStrand_control (s : State) (k : Nat) (x : Strand) : (s.setStrand k x).control = s.control := rfl
@[simp] theorem State.setStrand_notify (s : State) (k : Nat) (x : Strand) : (s.setStrand k x).notify = s.notify := rfl
@[simp] theorem State.setStrand_lastQueue (s : State) (k : Nat) (x : Strand) : (s.setStrand k x).lastQueue = s.lastQueue := rfl
@[simp] theorem State.setStrand_nextSeq (s : State) (k : Nat) (x : Strand) : (s.setStrand k x).nextSeq = s.nextSeq := rfl
@[simp] theorem State.setStrand_launches (s : State) (k : Nat) (x : Strand) : (s.setStrand k x).launches = s.launches := rfl
@[simp] theorem State.setStrand_nextLaunch (s : State) (k : Nat) (x : Strand) : (s.setStrand k x).nextLaunch = s.nextLaunch := rfl
@[simp] theorem State.setStrand_gangs (s : State) (k : Nat) (x : Strand) : (s.setStrand k x).gangs = s.gangs := rfl
@[simp] theorem State.setStrand_units (s : State) (k : Nat) (x : Strand) : (s.setStrand k x).units = s.units := rfl
@[simp] theorem State.setStrand_tokens (s : State) (k : Nat) (x : Strand) : (s.setStrand k x).tokens = s.tokens := rfl
@[simp] theorem State.setStrand_pinRelease (s : State) (k : Nat) (x : Strand) : (s.setStrand k x).pinRelease = s.pinRelease := rfl
@[simp] theorem State.setStrand_eventProd (s : State) (k : Nat) (x : Strand) : (s.setStrand k x).eventProd = s.eventProd := rfl
@[simp] theorem State.setStrand_eventHeld (s : State) (k : Nat) (x : Strand) : (s.setStrand k x).eventHeld = s.eventHeld := rfl
@[simp] theorem State.setStrand_services (s : State) (k : Nat) (x : Strand) : (s.setStrand k x).services = s.services := rfl
@[simp] theorem State.setStrand_settings (s : State) (k : Nat) (x : Strand) : (s.setStrand k x).settings = s.settings := rfl
@[simp] theorem State.setStrand_deposits (s : State) (k : Nat) (x : Strand) : (s.setStrand k x).deposits = s.deposits := rfl
@[simp] theorem State.setStrand_preempts (s : State) (k : Nat) (x : Strand) : (s.setStrand k x).preempts = s.preempts := rfl
@[simp] theorem State.setStrand_collectives (s : State) (k : Nat) (x : Strand) : (s.setStrand k x).collectives = s.collectives := rfl
@[simp] theorem State.setStrand_scans (s : State) (k : Nat) (x : Strand) : (s.setStrand k x).scans = s.scans := rfl
@[simp] theorem State.setStrand_scanDropped (s : State) (k : Nat) (x : Strand) : (s.setStrand k x).scanDropped = s.scanDropped := rfl
@[simp] theorem State.setStrand_teardowns (s : State) (k : Nat) (x : Strand) : (s.setStrand k x).teardowns = s.teardowns := rfl
@[simp] theorem State.setStrand_checkpoint (s : State) (k : Nat) (x : Strand) : (s.setStrand k x).checkpoint = s.checkpoint := rfl
@[simp] theorem State.setStrand_board (s : State) (k : Nat) (x : Strand) : (s.setStrand k x).board = s.board := rfl
@[simp] theorem State.setStrand_flips (s : State) (k : Nat) (x : Strand) : (s.setStrand k x).flips = s.flips := rfl
@[simp] theorem State.setStrand_agenda (s : State) (k : Nat) (x : Strand) : (s.setStrand k x).agenda = s.agenda := rfl
@[simp] theorem State.setStrand_cur (s : State) (k : Nat) (x : Strand) : (s.setStrand k x).cur = s.cur := rfl
@[simp] theorem State.setStrand_curSlot (s : State) (k : Nat) (x : Strand) : (s.setStrand k x).curSlot = s.curSlot := rfl
@[simp] theorem State.setStrand_fresh (s : State) (k : Nat) (x : Strand) : (s.setStrand k x).fresh = s.fresh := rfl
@[simp] theorem State.setStrand_rot (s : State) (k : Nat) (x : Strand) : (s.setStrand k x).rot = s.rot := rfl
@[simp] theorem State.setStrand_lastPart (s : State) (k : Nat) (x : Strand) : (s.setStrand k x).lastPart = s.lastPart := rfl

/-! ### modStrand -/

@[simp] theorem State.modStrand_dclk (s : State) (k : Nat) (f : Strand → Strand) : (s.modStrand k f).dclk = s.dclk := rfl
@[simp] theorem State.modStrand_mem (s : State) (k : Nat) (f : Strand → Strand) : (s.modStrand k f).mem = s.mem := rfl
@[simp] theorem State.modStrand_poison (s : State) (k : Nat) (f : Strand → Strand) : (s.modStrand k f).poison = s.poison := rfl
@[simp] theorem State.modStrand_ecc (s : State) (k : Nat) (f : Strand → Strand) : (s.modStrand k f).ecc = s.ecc := rfl
@[simp] theorem State.modStrand_scrubbed (s : State) (k : Nat) (f : Strand → Strand) : (s.modStrand k f).scrubbed = s.scrubbed := rfl
@[simp] theorem State.modStrand_blocks (s : State) (k : Nat) (f : Strand → Strand) : (s.modStrand k f).blocks = s.blocks := rfl
@[simp] theorem State.modStrand_cores (s : State) (k : Nat) (f : Strand → Strand) : (s.modStrand k f).cores = s.cores := rfl
@[simp] theorem State.modStrand_clusters (s : State) (k : Nat) (f : Strand → Strand) : (s.modStrand k f).clusters = s.clusters := rfl
@[simp] theorem State.modStrand_holders (s : State) (k : Nat) (f : Strand → Strand) : (s.modStrand k f).holders = s.holders := rfl
@[simp] theorem State.modStrand_peerStores (s : State) (k : Nat) (f : Strand → Strand) : (s.modStrand k f).peerStores = s.peerStores := rfl
@[simp] theorem State.modStrand_hyper (s : State) (k : Nat) (f : Strand → Strand) : (s.modStrand k f).hyper = s.hyper := rfl
@[simp] theorem State.modStrand_hartDom (s : State) (k : Nat) (f : Strand → Strand) : (s.modStrand k f).hartDom = s.hartDom := rfl
@[simp] theorem State.modStrand_answers (s : State) (k : Nat) (f : Strand → Strand) : (s.modStrand k f).answers = s.answers := rfl
@[simp] theorem State.modStrand_late (s : State) (k : Nat) (f : Strand → Strand) : (s.modStrand k f).late = s.late := rfl
@[simp] theorem State.modStrand_latched (s : State) (k : Nat) (f : Strand → Strand) : (s.modStrand k f).latched = s.latched := rfl
@[simp] theorem State.modStrand_extStamp (s : State) (k : Nat) (f : Strand → Strand) : (s.modStrand k f).extStamp = s.extStamp := rfl
@[simp] theorem State.modStrand_procStamp (s : State) (k : Nat) (f : Strand → Strand) : (s.modStrand k f).procStamp = s.procStamp := rfl
@[simp] theorem State.modStrand_relStamp (s : State) (k : Nat) (f : Strand → Strand) : (s.modStrand k f).relStamp = s.relStamp := rfl
@[simp] theorem State.modStrand_flights (s : State) (k : Nat) (f : Strand → Strand) : (s.modStrand k f).flights = s.flights := rfl
@[simp] theorem State.modStrand_nextFlight (s : State) (k : Nat) (f : Strand → Strand) : (s.modStrand k f).nextFlight = s.nextFlight := rfl
@[simp] theorem State.modStrand_nextOrder (s : State) (k : Nat) (f : Strand → Strand) : (s.modStrand k f).nextOrder = s.nextOrder := rfl
@[simp] theorem State.modStrand_nextTicket (s : State) (k : Nat) (f : Strand → Strand) : (s.modStrand k f).nextTicket = s.nextTicket := rfl
@[simp] theorem State.modStrand_sealed (s : State) (k : Nat) (f : Strand → Strand) : (s.modStrand k f).sealed = s.sealed := rfl
@[simp] theorem State.modStrand_control (s : State) (k : Nat) (f : Strand → Strand) : (s.modStrand k f).control = s.control := rfl
@[simp] theorem State.modStrand_notify (s : State) (k : Nat) (f : Strand → Strand) : (s.modStrand k f).notify = s.notify := rfl
@[simp] theorem State.modStrand_lastQueue (s : State) (k : Nat) (f : Strand → Strand) : (s.modStrand k f).lastQueue = s.lastQueue := rfl
@[simp] theorem State.modStrand_nextSeq (s : State) (k : Nat) (f : Strand → Strand) : (s.modStrand k f).nextSeq = s.nextSeq := rfl
@[simp] theorem State.modStrand_launches (s : State) (k : Nat) (f : Strand → Strand) : (s.modStrand k f).launches = s.launches := rfl
@[simp] theorem State.modStrand_nextLaunch (s : State) (k : Nat) (f : Strand → Strand) : (s.modStrand k f).nextLaunch = s.nextLaunch := rfl
@[simp] theorem State.modStrand_gangs (s : State) (k : Nat) (f : Strand → Strand) : (s.modStrand k f).gangs = s.gangs := rfl
@[simp] theorem State.modStrand_units (s : State) (k : Nat) (f : Strand → Strand) : (s.modStrand k f).units = s.units := rfl
@[simp] theorem State.modStrand_tokens (s : State) (k : Nat) (f : Strand → Strand) : (s.modStrand k f).tokens = s.tokens := rfl
@[simp] theorem State.modStrand_pinRelease (s : State) (k : Nat) (f : Strand → Strand) : (s.modStrand k f).pinRelease = s.pinRelease := rfl
@[simp] theorem State.modStrand_eventProd (s : State) (k : Nat) (f : Strand → Strand) : (s.modStrand k f).eventProd = s.eventProd := rfl
@[simp] theorem State.modStrand_eventHeld (s : State) (k : Nat) (f : Strand → Strand) : (s.modStrand k f).eventHeld = s.eventHeld := rfl
@[simp] theorem State.modStrand_services (s : State) (k : Nat) (f : Strand → Strand) : (s.modStrand k f).services = s.services := rfl
@[simp] theorem State.modStrand_settings (s : State) (k : Nat) (f : Strand → Strand) : (s.modStrand k f).settings = s.settings := rfl
@[simp] theorem State.modStrand_deposits (s : State) (k : Nat) (f : Strand → Strand) : (s.modStrand k f).deposits = s.deposits := rfl
@[simp] theorem State.modStrand_preempts (s : State) (k : Nat) (f : Strand → Strand) : (s.modStrand k f).preempts = s.preempts := rfl
@[simp] theorem State.modStrand_collectives (s : State) (k : Nat) (f : Strand → Strand) : (s.modStrand k f).collectives = s.collectives := rfl
@[simp] theorem State.modStrand_scans (s : State) (k : Nat) (f : Strand → Strand) : (s.modStrand k f).scans = s.scans := rfl
@[simp] theorem State.modStrand_scanDropped (s : State) (k : Nat) (f : Strand → Strand) : (s.modStrand k f).scanDropped = s.scanDropped := rfl
@[simp] theorem State.modStrand_teardowns (s : State) (k : Nat) (f : Strand → Strand) : (s.modStrand k f).teardowns = s.teardowns := rfl
@[simp] theorem State.modStrand_checkpoint (s : State) (k : Nat) (f : Strand → Strand) : (s.modStrand k f).checkpoint = s.checkpoint := rfl
@[simp] theorem State.modStrand_board (s : State) (k : Nat) (f : Strand → Strand) : (s.modStrand k f).board = s.board := rfl
@[simp] theorem State.modStrand_flips (s : State) (k : Nat) (f : Strand → Strand) : (s.modStrand k f).flips = s.flips := rfl
@[simp] theorem State.modStrand_agenda (s : State) (k : Nat) (f : Strand → Strand) : (s.modStrand k f).agenda = s.agenda := rfl
@[simp] theorem State.modStrand_cur (s : State) (k : Nat) (f : Strand → Strand) : (s.modStrand k f).cur = s.cur := rfl
@[simp] theorem State.modStrand_curSlot (s : State) (k : Nat) (f : Strand → Strand) : (s.modStrand k f).curSlot = s.curSlot := rfl
@[simp] theorem State.modStrand_fresh (s : State) (k : Nat) (f : Strand → Strand) : (s.modStrand k f).fresh = s.fresh := rfl
@[simp] theorem State.modStrand_rot (s : State) (k : Nat) (f : Strand → Strand) : (s.modStrand k f).rot = s.rot := rfl
@[simp] theorem State.modStrand_lastPart (s : State) (k : Nat) (f : Strand → Strand) : (s.modStrand k f).lastPart = s.lastPart := rfl

/-! ### setBlock -/

@[simp] theorem State.setBlock_dclk (s : State) (k : Nat) (x : Block) : (s.setBlock k x).dclk = s.dclk := rfl
@[simp] theorem State.setBlock_mem (s : State) (k : Nat) (x : Block) : (s.setBlock k x).mem = s.mem := rfl
@[simp] theorem State.setBlock_poison (s : State) (k : Nat) (x : Block) : (s.setBlock k x).poison = s.poison := rfl
@[simp] theorem State.setBlock_ecc (s : State) (k : Nat) (x : Block) : (s.setBlock k x).ecc = s.ecc := rfl
@[simp] theorem State.setBlock_scrubbed (s : State) (k : Nat) (x : Block) : (s.setBlock k x).scrubbed = s.scrubbed := rfl
@[simp] theorem State.setBlock_strands (s : State) (k : Nat) (x : Block) : (s.setBlock k x).strands = s.strands := rfl
@[simp] theorem State.setBlock_cores (s : State) (k : Nat) (x : Block) : (s.setBlock k x).cores = s.cores := rfl
@[simp] theorem State.setBlock_clusters (s : State) (k : Nat) (x : Block) : (s.setBlock k x).clusters = s.clusters := rfl
@[simp] theorem State.setBlock_holders (s : State) (k : Nat) (x : Block) : (s.setBlock k x).holders = s.holders := rfl
@[simp] theorem State.setBlock_peerStores (s : State) (k : Nat) (x : Block) : (s.setBlock k x).peerStores = s.peerStores := rfl
@[simp] theorem State.setBlock_hyper (s : State) (k : Nat) (x : Block) : (s.setBlock k x).hyper = s.hyper := rfl
@[simp] theorem State.setBlock_hartDom (s : State) (k : Nat) (x : Block) : (s.setBlock k x).hartDom = s.hartDom := rfl
@[simp] theorem State.setBlock_answers (s : State) (k : Nat) (x : Block) : (s.setBlock k x).answers = s.answers := rfl
@[simp] theorem State.setBlock_late (s : State) (k : Nat) (x : Block) : (s.setBlock k x).late = s.late := rfl
@[simp] theorem State.setBlock_latched (s : State) (k : Nat) (x : Block) : (s.setBlock k x).latched = s.latched := rfl
@[simp] theorem State.setBlock_extStamp (s : State) (k : Nat) (x : Block) : (s.setBlock k x).extStamp = s.extStamp := rfl
@[simp] theorem State.setBlock_procStamp (s : State) (k : Nat) (x : Block) : (s.setBlock k x).procStamp = s.procStamp := rfl
@[simp] theorem State.setBlock_relStamp (s : State) (k : Nat) (x : Block) : (s.setBlock k x).relStamp = s.relStamp := rfl
@[simp] theorem State.setBlock_flights (s : State) (k : Nat) (x : Block) : (s.setBlock k x).flights = s.flights := rfl
@[simp] theorem State.setBlock_nextFlight (s : State) (k : Nat) (x : Block) : (s.setBlock k x).nextFlight = s.nextFlight := rfl
@[simp] theorem State.setBlock_nextOrder (s : State) (k : Nat) (x : Block) : (s.setBlock k x).nextOrder = s.nextOrder := rfl
@[simp] theorem State.setBlock_nextTicket (s : State) (k : Nat) (x : Block) : (s.setBlock k x).nextTicket = s.nextTicket := rfl
@[simp] theorem State.setBlock_sealed (s : State) (k : Nat) (x : Block) : (s.setBlock k x).sealed = s.sealed := rfl
@[simp] theorem State.setBlock_control (s : State) (k : Nat) (x : Block) : (s.setBlock k x).control = s.control := rfl
@[simp] theorem State.setBlock_notify (s : State) (k : Nat) (x : Block) : (s.setBlock k x).notify = s.notify := rfl
@[simp] theorem State.setBlock_lastQueue (s : State) (k : Nat) (x : Block) : (s.setBlock k x).lastQueue = s.lastQueue := rfl
@[simp] theorem State.setBlock_nextSeq (s : State) (k : Nat) (x : Block) : (s.setBlock k x).nextSeq = s.nextSeq := rfl
@[simp] theorem State.setBlock_launches (s : State) (k : Nat) (x : Block) : (s.setBlock k x).launches = s.launches := rfl
@[simp] theorem State.setBlock_nextLaunch (s : State) (k : Nat) (x : Block) : (s.setBlock k x).nextLaunch = s.nextLaunch := rfl
@[simp] theorem State.setBlock_gangs (s : State) (k : Nat) (x : Block) : (s.setBlock k x).gangs = s.gangs := rfl
@[simp] theorem State.setBlock_units (s : State) (k : Nat) (x : Block) : (s.setBlock k x).units = s.units := rfl
@[simp] theorem State.setBlock_tokens (s : State) (k : Nat) (x : Block) : (s.setBlock k x).tokens = s.tokens := rfl
@[simp] theorem State.setBlock_pinRelease (s : State) (k : Nat) (x : Block) : (s.setBlock k x).pinRelease = s.pinRelease := rfl
@[simp] theorem State.setBlock_eventProd (s : State) (k : Nat) (x : Block) : (s.setBlock k x).eventProd = s.eventProd := rfl
@[simp] theorem State.setBlock_eventHeld (s : State) (k : Nat) (x : Block) : (s.setBlock k x).eventHeld = s.eventHeld := rfl
@[simp] theorem State.setBlock_services (s : State) (k : Nat) (x : Block) : (s.setBlock k x).services = s.services := rfl
@[simp] theorem State.setBlock_settings (s : State) (k : Nat) (x : Block) : (s.setBlock k x).settings = s.settings := rfl
@[simp] theorem State.setBlock_deposits (s : State) (k : Nat) (x : Block) : (s.setBlock k x).deposits = s.deposits := rfl
@[simp] theorem State.setBlock_preempts (s : State) (k : Nat) (x : Block) : (s.setBlock k x).preempts = s.preempts := rfl
@[simp] theorem State.setBlock_collectives (s : State) (k : Nat) (x : Block) : (s.setBlock k x).collectives = s.collectives := rfl
@[simp] theorem State.setBlock_scans (s : State) (k : Nat) (x : Block) : (s.setBlock k x).scans = s.scans := rfl
@[simp] theorem State.setBlock_scanDropped (s : State) (k : Nat) (x : Block) : (s.setBlock k x).scanDropped = s.scanDropped := rfl
@[simp] theorem State.setBlock_teardowns (s : State) (k : Nat) (x : Block) : (s.setBlock k x).teardowns = s.teardowns := rfl
@[simp] theorem State.setBlock_checkpoint (s : State) (k : Nat) (x : Block) : (s.setBlock k x).checkpoint = s.checkpoint := rfl
@[simp] theorem State.setBlock_board (s : State) (k : Nat) (x : Block) : (s.setBlock k x).board = s.board := rfl
@[simp] theorem State.setBlock_flips (s : State) (k : Nat) (x : Block) : (s.setBlock k x).flips = s.flips := rfl
@[simp] theorem State.setBlock_agenda (s : State) (k : Nat) (x : Block) : (s.setBlock k x).agenda = s.agenda := rfl
@[simp] theorem State.setBlock_cur (s : State) (k : Nat) (x : Block) : (s.setBlock k x).cur = s.cur := rfl
@[simp] theorem State.setBlock_curSlot (s : State) (k : Nat) (x : Block) : (s.setBlock k x).curSlot = s.curSlot := rfl
@[simp] theorem State.setBlock_fresh (s : State) (k : Nat) (x : Block) : (s.setBlock k x).fresh = s.fresh := rfl
@[simp] theorem State.setBlock_rot (s : State) (k : Nat) (x : Block) : (s.setBlock k x).rot = s.rot := rfl
@[simp] theorem State.setBlock_lastPart (s : State) (k : Nat) (x : Block) : (s.setBlock k x).lastPart = s.lastPart := rfl

/-! ### modBlock -/

@[simp] theorem State.modBlock_dclk (s : State) (k : Nat) (f : Block → Block) : (s.modBlock k f).dclk = s.dclk := rfl
@[simp] theorem State.modBlock_mem (s : State) (k : Nat) (f : Block → Block) : (s.modBlock k f).mem = s.mem := rfl
@[simp] theorem State.modBlock_poison (s : State) (k : Nat) (f : Block → Block) : (s.modBlock k f).poison = s.poison := rfl
@[simp] theorem State.modBlock_ecc (s : State) (k : Nat) (f : Block → Block) : (s.modBlock k f).ecc = s.ecc := rfl
@[simp] theorem State.modBlock_scrubbed (s : State) (k : Nat) (f : Block → Block) : (s.modBlock k f).scrubbed = s.scrubbed := rfl
@[simp] theorem State.modBlock_strands (s : State) (k : Nat) (f : Block → Block) : (s.modBlock k f).strands = s.strands := rfl
@[simp] theorem State.modBlock_cores (s : State) (k : Nat) (f : Block → Block) : (s.modBlock k f).cores = s.cores := rfl
@[simp] theorem State.modBlock_clusters (s : State) (k : Nat) (f : Block → Block) : (s.modBlock k f).clusters = s.clusters := rfl
@[simp] theorem State.modBlock_holders (s : State) (k : Nat) (f : Block → Block) : (s.modBlock k f).holders = s.holders := rfl
@[simp] theorem State.modBlock_peerStores (s : State) (k : Nat) (f : Block → Block) : (s.modBlock k f).peerStores = s.peerStores := rfl
@[simp] theorem State.modBlock_hyper (s : State) (k : Nat) (f : Block → Block) : (s.modBlock k f).hyper = s.hyper := rfl
@[simp] theorem State.modBlock_hartDom (s : State) (k : Nat) (f : Block → Block) : (s.modBlock k f).hartDom = s.hartDom := rfl
@[simp] theorem State.modBlock_answers (s : State) (k : Nat) (f : Block → Block) : (s.modBlock k f).answers = s.answers := rfl
@[simp] theorem State.modBlock_late (s : State) (k : Nat) (f : Block → Block) : (s.modBlock k f).late = s.late := rfl
@[simp] theorem State.modBlock_latched (s : State) (k : Nat) (f : Block → Block) : (s.modBlock k f).latched = s.latched := rfl
@[simp] theorem State.modBlock_extStamp (s : State) (k : Nat) (f : Block → Block) : (s.modBlock k f).extStamp = s.extStamp := rfl
@[simp] theorem State.modBlock_procStamp (s : State) (k : Nat) (f : Block → Block) : (s.modBlock k f).procStamp = s.procStamp := rfl
@[simp] theorem State.modBlock_relStamp (s : State) (k : Nat) (f : Block → Block) : (s.modBlock k f).relStamp = s.relStamp := rfl
@[simp] theorem State.modBlock_flights (s : State) (k : Nat) (f : Block → Block) : (s.modBlock k f).flights = s.flights := rfl
@[simp] theorem State.modBlock_nextFlight (s : State) (k : Nat) (f : Block → Block) : (s.modBlock k f).nextFlight = s.nextFlight := rfl
@[simp] theorem State.modBlock_nextOrder (s : State) (k : Nat) (f : Block → Block) : (s.modBlock k f).nextOrder = s.nextOrder := rfl
@[simp] theorem State.modBlock_nextTicket (s : State) (k : Nat) (f : Block → Block) : (s.modBlock k f).nextTicket = s.nextTicket := rfl
@[simp] theorem State.modBlock_sealed (s : State) (k : Nat) (f : Block → Block) : (s.modBlock k f).sealed = s.sealed := rfl
@[simp] theorem State.modBlock_control (s : State) (k : Nat) (f : Block → Block) : (s.modBlock k f).control = s.control := rfl
@[simp] theorem State.modBlock_notify (s : State) (k : Nat) (f : Block → Block) : (s.modBlock k f).notify = s.notify := rfl
@[simp] theorem State.modBlock_lastQueue (s : State) (k : Nat) (f : Block → Block) : (s.modBlock k f).lastQueue = s.lastQueue := rfl
@[simp] theorem State.modBlock_nextSeq (s : State) (k : Nat) (f : Block → Block) : (s.modBlock k f).nextSeq = s.nextSeq := rfl
@[simp] theorem State.modBlock_launches (s : State) (k : Nat) (f : Block → Block) : (s.modBlock k f).launches = s.launches := rfl
@[simp] theorem State.modBlock_nextLaunch (s : State) (k : Nat) (f : Block → Block) : (s.modBlock k f).nextLaunch = s.nextLaunch := rfl
@[simp] theorem State.modBlock_gangs (s : State) (k : Nat) (f : Block → Block) : (s.modBlock k f).gangs = s.gangs := rfl
@[simp] theorem State.modBlock_units (s : State) (k : Nat) (f : Block → Block) : (s.modBlock k f).units = s.units := rfl
@[simp] theorem State.modBlock_tokens (s : State) (k : Nat) (f : Block → Block) : (s.modBlock k f).tokens = s.tokens := rfl
@[simp] theorem State.modBlock_pinRelease (s : State) (k : Nat) (f : Block → Block) : (s.modBlock k f).pinRelease = s.pinRelease := rfl
@[simp] theorem State.modBlock_eventProd (s : State) (k : Nat) (f : Block → Block) : (s.modBlock k f).eventProd = s.eventProd := rfl
@[simp] theorem State.modBlock_eventHeld (s : State) (k : Nat) (f : Block → Block) : (s.modBlock k f).eventHeld = s.eventHeld := rfl
@[simp] theorem State.modBlock_services (s : State) (k : Nat) (f : Block → Block) : (s.modBlock k f).services = s.services := rfl
@[simp] theorem State.modBlock_settings (s : State) (k : Nat) (f : Block → Block) : (s.modBlock k f).settings = s.settings := rfl
@[simp] theorem State.modBlock_deposits (s : State) (k : Nat) (f : Block → Block) : (s.modBlock k f).deposits = s.deposits := rfl
@[simp] theorem State.modBlock_preempts (s : State) (k : Nat) (f : Block → Block) : (s.modBlock k f).preempts = s.preempts := rfl
@[simp] theorem State.modBlock_collectives (s : State) (k : Nat) (f : Block → Block) : (s.modBlock k f).collectives = s.collectives := rfl
@[simp] theorem State.modBlock_scans (s : State) (k : Nat) (f : Block → Block) : (s.modBlock k f).scans = s.scans := rfl
@[simp] theorem State.modBlock_scanDropped (s : State) (k : Nat) (f : Block → Block) : (s.modBlock k f).scanDropped = s.scanDropped := rfl
@[simp] theorem State.modBlock_teardowns (s : State) (k : Nat) (f : Block → Block) : (s.modBlock k f).teardowns = s.teardowns := rfl
@[simp] theorem State.modBlock_checkpoint (s : State) (k : Nat) (f : Block → Block) : (s.modBlock k f).checkpoint = s.checkpoint := rfl
@[simp] theorem State.modBlock_board (s : State) (k : Nat) (f : Block → Block) : (s.modBlock k f).board = s.board := rfl
@[simp] theorem State.modBlock_flips (s : State) (k : Nat) (f : Block → Block) : (s.modBlock k f).flips = s.flips := rfl
@[simp] theorem State.modBlock_agenda (s : State) (k : Nat) (f : Block → Block) : (s.modBlock k f).agenda = s.agenda := rfl
@[simp] theorem State.modBlock_cur (s : State) (k : Nat) (f : Block → Block) : (s.modBlock k f).cur = s.cur := rfl
@[simp] theorem State.modBlock_curSlot (s : State) (k : Nat) (f : Block → Block) : (s.modBlock k f).curSlot = s.curSlot := rfl
@[simp] theorem State.modBlock_fresh (s : State) (k : Nat) (f : Block → Block) : (s.modBlock k f).fresh = s.fresh := rfl
@[simp] theorem State.modBlock_rot (s : State) (k : Nat) (f : Block → Block) : (s.modBlock k f).rot = s.rot := rfl
@[simp] theorem State.modBlock_lastPart (s : State) (k : Nat) (f : Block → Block) : (s.modBlock k f).lastPart = s.lastPart := rfl

/-! ### setCore -/

@[simp] theorem State.setCore_dclk (s : State) (k : Nat) (x : Core) : (s.setCore k x).dclk = s.dclk := rfl
@[simp] theorem State.setCore_mem (s : State) (k : Nat) (x : Core) : (s.setCore k x).mem = s.mem := rfl
@[simp] theorem State.setCore_poison (s : State) (k : Nat) (x : Core) : (s.setCore k x).poison = s.poison := rfl
@[simp] theorem State.setCore_ecc (s : State) (k : Nat) (x : Core) : (s.setCore k x).ecc = s.ecc := rfl
@[simp] theorem State.setCore_scrubbed (s : State) (k : Nat) (x : Core) : (s.setCore k x).scrubbed = s.scrubbed := rfl
@[simp] theorem State.setCore_strands (s : State) (k : Nat) (x : Core) : (s.setCore k x).strands = s.strands := rfl
@[simp] theorem State.setCore_blocks (s : State) (k : Nat) (x : Core) : (s.setCore k x).blocks = s.blocks := rfl
@[simp] theorem State.setCore_clusters (s : State) (k : Nat) (x : Core) : (s.setCore k x).clusters = s.clusters := rfl
@[simp] theorem State.setCore_holders (s : State) (k : Nat) (x : Core) : (s.setCore k x).holders = s.holders := rfl
@[simp] theorem State.setCore_peerStores (s : State) (k : Nat) (x : Core) : (s.setCore k x).peerStores = s.peerStores := rfl
@[simp] theorem State.setCore_hyper (s : State) (k : Nat) (x : Core) : (s.setCore k x).hyper = s.hyper := rfl
@[simp] theorem State.setCore_hartDom (s : State) (k : Nat) (x : Core) : (s.setCore k x).hartDom = s.hartDom := rfl
@[simp] theorem State.setCore_answers (s : State) (k : Nat) (x : Core) : (s.setCore k x).answers = s.answers := rfl
@[simp] theorem State.setCore_late (s : State) (k : Nat) (x : Core) : (s.setCore k x).late = s.late := rfl
@[simp] theorem State.setCore_latched (s : State) (k : Nat) (x : Core) : (s.setCore k x).latched = s.latched := rfl
@[simp] theorem State.setCore_extStamp (s : State) (k : Nat) (x : Core) : (s.setCore k x).extStamp = s.extStamp := rfl
@[simp] theorem State.setCore_procStamp (s : State) (k : Nat) (x : Core) : (s.setCore k x).procStamp = s.procStamp := rfl
@[simp] theorem State.setCore_relStamp (s : State) (k : Nat) (x : Core) : (s.setCore k x).relStamp = s.relStamp := rfl
@[simp] theorem State.setCore_flights (s : State) (k : Nat) (x : Core) : (s.setCore k x).flights = s.flights := rfl
@[simp] theorem State.setCore_nextFlight (s : State) (k : Nat) (x : Core) : (s.setCore k x).nextFlight = s.nextFlight := rfl
@[simp] theorem State.setCore_nextOrder (s : State) (k : Nat) (x : Core) : (s.setCore k x).nextOrder = s.nextOrder := rfl
@[simp] theorem State.setCore_nextTicket (s : State) (k : Nat) (x : Core) : (s.setCore k x).nextTicket = s.nextTicket := rfl
@[simp] theorem State.setCore_sealed (s : State) (k : Nat) (x : Core) : (s.setCore k x).sealed = s.sealed := rfl
@[simp] theorem State.setCore_control (s : State) (k : Nat) (x : Core) : (s.setCore k x).control = s.control := rfl
@[simp] theorem State.setCore_notify (s : State) (k : Nat) (x : Core) : (s.setCore k x).notify = s.notify := rfl
@[simp] theorem State.setCore_lastQueue (s : State) (k : Nat) (x : Core) : (s.setCore k x).lastQueue = s.lastQueue := rfl
@[simp] theorem State.setCore_nextSeq (s : State) (k : Nat) (x : Core) : (s.setCore k x).nextSeq = s.nextSeq := rfl
@[simp] theorem State.setCore_launches (s : State) (k : Nat) (x : Core) : (s.setCore k x).launches = s.launches := rfl
@[simp] theorem State.setCore_nextLaunch (s : State) (k : Nat) (x : Core) : (s.setCore k x).nextLaunch = s.nextLaunch := rfl
@[simp] theorem State.setCore_gangs (s : State) (k : Nat) (x : Core) : (s.setCore k x).gangs = s.gangs := rfl
@[simp] theorem State.setCore_units (s : State) (k : Nat) (x : Core) : (s.setCore k x).units = s.units := rfl
@[simp] theorem State.setCore_tokens (s : State) (k : Nat) (x : Core) : (s.setCore k x).tokens = s.tokens := rfl
@[simp] theorem State.setCore_pinRelease (s : State) (k : Nat) (x : Core) : (s.setCore k x).pinRelease = s.pinRelease := rfl
@[simp] theorem State.setCore_eventProd (s : State) (k : Nat) (x : Core) : (s.setCore k x).eventProd = s.eventProd := rfl
@[simp] theorem State.setCore_eventHeld (s : State) (k : Nat) (x : Core) : (s.setCore k x).eventHeld = s.eventHeld := rfl
@[simp] theorem State.setCore_services (s : State) (k : Nat) (x : Core) : (s.setCore k x).services = s.services := rfl
@[simp] theorem State.setCore_settings (s : State) (k : Nat) (x : Core) : (s.setCore k x).settings = s.settings := rfl
@[simp] theorem State.setCore_deposits (s : State) (k : Nat) (x : Core) : (s.setCore k x).deposits = s.deposits := rfl
@[simp] theorem State.setCore_preempts (s : State) (k : Nat) (x : Core) : (s.setCore k x).preempts = s.preempts := rfl
@[simp] theorem State.setCore_collectives (s : State) (k : Nat) (x : Core) : (s.setCore k x).collectives = s.collectives := rfl
@[simp] theorem State.setCore_scans (s : State) (k : Nat) (x : Core) : (s.setCore k x).scans = s.scans := rfl
@[simp] theorem State.setCore_scanDropped (s : State) (k : Nat) (x : Core) : (s.setCore k x).scanDropped = s.scanDropped := rfl
@[simp] theorem State.setCore_teardowns (s : State) (k : Nat) (x : Core) : (s.setCore k x).teardowns = s.teardowns := rfl
@[simp] theorem State.setCore_checkpoint (s : State) (k : Nat) (x : Core) : (s.setCore k x).checkpoint = s.checkpoint := rfl
@[simp] theorem State.setCore_board (s : State) (k : Nat) (x : Core) : (s.setCore k x).board = s.board := rfl
@[simp] theorem State.setCore_flips (s : State) (k : Nat) (x : Core) : (s.setCore k x).flips = s.flips := rfl
@[simp] theorem State.setCore_agenda (s : State) (k : Nat) (x : Core) : (s.setCore k x).agenda = s.agenda := rfl
@[simp] theorem State.setCore_cur (s : State) (k : Nat) (x : Core) : (s.setCore k x).cur = s.cur := rfl
@[simp] theorem State.setCore_curSlot (s : State) (k : Nat) (x : Core) : (s.setCore k x).curSlot = s.curSlot := rfl
@[simp] theorem State.setCore_fresh (s : State) (k : Nat) (x : Core) : (s.setCore k x).fresh = s.fresh := rfl
@[simp] theorem State.setCore_rot (s : State) (k : Nat) (x : Core) : (s.setCore k x).rot = s.rot := rfl
@[simp] theorem State.setCore_lastPart (s : State) (k : Nat) (x : Core) : (s.setCore k x).lastPart = s.lastPart := rfl

/-! ### setCluster -/

@[simp] theorem State.setCluster_dclk (s : State) (k : Nat) (x : Cluster) : (s.setCluster k x).dclk = s.dclk := rfl
@[simp] theorem State.setCluster_mem (s : State) (k : Nat) (x : Cluster) : (s.setCluster k x).mem = s.mem := rfl
@[simp] theorem State.setCluster_poison (s : State) (k : Nat) (x : Cluster) : (s.setCluster k x).poison = s.poison := rfl
@[simp] theorem State.setCluster_ecc (s : State) (k : Nat) (x : Cluster) : (s.setCluster k x).ecc = s.ecc := rfl
@[simp] theorem State.setCluster_scrubbed (s : State) (k : Nat) (x : Cluster) : (s.setCluster k x).scrubbed = s.scrubbed := rfl
@[simp] theorem State.setCluster_strands (s : State) (k : Nat) (x : Cluster) : (s.setCluster k x).strands = s.strands := rfl
@[simp] theorem State.setCluster_blocks (s : State) (k : Nat) (x : Cluster) : (s.setCluster k x).blocks = s.blocks := rfl
@[simp] theorem State.setCluster_cores (s : State) (k : Nat) (x : Cluster) : (s.setCluster k x).cores = s.cores := rfl
@[simp] theorem State.setCluster_holders (s : State) (k : Nat) (x : Cluster) : (s.setCluster k x).holders = s.holders := rfl
@[simp] theorem State.setCluster_peerStores (s : State) (k : Nat) (x : Cluster) : (s.setCluster k x).peerStores = s.peerStores := rfl
@[simp] theorem State.setCluster_hyper (s : State) (k : Nat) (x : Cluster) : (s.setCluster k x).hyper = s.hyper := rfl
@[simp] theorem State.setCluster_hartDom (s : State) (k : Nat) (x : Cluster) : (s.setCluster k x).hartDom = s.hartDom := rfl
@[simp] theorem State.setCluster_answers (s : State) (k : Nat) (x : Cluster) : (s.setCluster k x).answers = s.answers := rfl
@[simp] theorem State.setCluster_late (s : State) (k : Nat) (x : Cluster) : (s.setCluster k x).late = s.late := rfl
@[simp] theorem State.setCluster_latched (s : State) (k : Nat) (x : Cluster) : (s.setCluster k x).latched = s.latched := rfl
@[simp] theorem State.setCluster_extStamp (s : State) (k : Nat) (x : Cluster) : (s.setCluster k x).extStamp = s.extStamp := rfl
@[simp] theorem State.setCluster_procStamp (s : State) (k : Nat) (x : Cluster) : (s.setCluster k x).procStamp = s.procStamp := rfl
@[simp] theorem State.setCluster_relStamp (s : State) (k : Nat) (x : Cluster) : (s.setCluster k x).relStamp = s.relStamp := rfl
@[simp] theorem State.setCluster_flights (s : State) (k : Nat) (x : Cluster) : (s.setCluster k x).flights = s.flights := rfl
@[simp] theorem State.setCluster_nextFlight (s : State) (k : Nat) (x : Cluster) : (s.setCluster k x).nextFlight = s.nextFlight := rfl
@[simp] theorem State.setCluster_nextOrder (s : State) (k : Nat) (x : Cluster) : (s.setCluster k x).nextOrder = s.nextOrder := rfl
@[simp] theorem State.setCluster_nextTicket (s : State) (k : Nat) (x : Cluster) : (s.setCluster k x).nextTicket = s.nextTicket := rfl
@[simp] theorem State.setCluster_sealed (s : State) (k : Nat) (x : Cluster) : (s.setCluster k x).sealed = s.sealed := rfl
@[simp] theorem State.setCluster_control (s : State) (k : Nat) (x : Cluster) : (s.setCluster k x).control = s.control := rfl
@[simp] theorem State.setCluster_notify (s : State) (k : Nat) (x : Cluster) : (s.setCluster k x).notify = s.notify := rfl
@[simp] theorem State.setCluster_lastQueue (s : State) (k : Nat) (x : Cluster) : (s.setCluster k x).lastQueue = s.lastQueue := rfl
@[simp] theorem State.setCluster_nextSeq (s : State) (k : Nat) (x : Cluster) : (s.setCluster k x).nextSeq = s.nextSeq := rfl
@[simp] theorem State.setCluster_launches (s : State) (k : Nat) (x : Cluster) : (s.setCluster k x).launches = s.launches := rfl
@[simp] theorem State.setCluster_nextLaunch (s : State) (k : Nat) (x : Cluster) : (s.setCluster k x).nextLaunch = s.nextLaunch := rfl
@[simp] theorem State.setCluster_gangs (s : State) (k : Nat) (x : Cluster) : (s.setCluster k x).gangs = s.gangs := rfl
@[simp] theorem State.setCluster_units (s : State) (k : Nat) (x : Cluster) : (s.setCluster k x).units = s.units := rfl
@[simp] theorem State.setCluster_tokens (s : State) (k : Nat) (x : Cluster) : (s.setCluster k x).tokens = s.tokens := rfl
@[simp] theorem State.setCluster_pinRelease (s : State) (k : Nat) (x : Cluster) : (s.setCluster k x).pinRelease = s.pinRelease := rfl
@[simp] theorem State.setCluster_eventProd (s : State) (k : Nat) (x : Cluster) : (s.setCluster k x).eventProd = s.eventProd := rfl
@[simp] theorem State.setCluster_eventHeld (s : State) (k : Nat) (x : Cluster) : (s.setCluster k x).eventHeld = s.eventHeld := rfl
@[simp] theorem State.setCluster_services (s : State) (k : Nat) (x : Cluster) : (s.setCluster k x).services = s.services := rfl
@[simp] theorem State.setCluster_settings (s : State) (k : Nat) (x : Cluster) : (s.setCluster k x).settings = s.settings := rfl
@[simp] theorem State.setCluster_deposits (s : State) (k : Nat) (x : Cluster) : (s.setCluster k x).deposits = s.deposits := rfl
@[simp] theorem State.setCluster_preempts (s : State) (k : Nat) (x : Cluster) : (s.setCluster k x).preempts = s.preempts := rfl
@[simp] theorem State.setCluster_collectives (s : State) (k : Nat) (x : Cluster) : (s.setCluster k x).collectives = s.collectives := rfl
@[simp] theorem State.setCluster_scans (s : State) (k : Nat) (x : Cluster) : (s.setCluster k x).scans = s.scans := rfl
@[simp] theorem State.setCluster_scanDropped (s : State) (k : Nat) (x : Cluster) : (s.setCluster k x).scanDropped = s.scanDropped := rfl
@[simp] theorem State.setCluster_teardowns (s : State) (k : Nat) (x : Cluster) : (s.setCluster k x).teardowns = s.teardowns := rfl
@[simp] theorem State.setCluster_checkpoint (s : State) (k : Nat) (x : Cluster) : (s.setCluster k x).checkpoint = s.checkpoint := rfl
@[simp] theorem State.setCluster_board (s : State) (k : Nat) (x : Cluster) : (s.setCluster k x).board = s.board := rfl
@[simp] theorem State.setCluster_flips (s : State) (k : Nat) (x : Cluster) : (s.setCluster k x).flips = s.flips := rfl
@[simp] theorem State.setCluster_agenda (s : State) (k : Nat) (x : Cluster) : (s.setCluster k x).agenda = s.agenda := rfl
@[simp] theorem State.setCluster_cur (s : State) (k : Nat) (x : Cluster) : (s.setCluster k x).cur = s.cur := rfl
@[simp] theorem State.setCluster_curSlot (s : State) (k : Nat) (x : Cluster) : (s.setCluster k x).curSlot = s.curSlot := rfl
@[simp] theorem State.setCluster_fresh (s : State) (k : Nat) (x : Cluster) : (s.setCluster k x).fresh = s.fresh := rfl
@[simp] theorem State.setCluster_rot (s : State) (k : Nat) (x : Cluster) : (s.setCluster k x).rot = s.rot := rfl
@[simp] theorem State.setCluster_lastPart (s : State) (k : Nat) (x : Cluster) : (s.setCluster k x).lastPart = s.lastPart := rfl

/-! ### setFlight -/

@[simp] theorem State.setFlight_dclk (s : State) (f : Flight) : (s.setFlight f).dclk = s.dclk := rfl
@[simp] theorem State.setFlight_mem (s : State) (f : Flight) : (s.setFlight f).mem = s.mem := rfl
@[simp] theorem State.setFlight_poison (s : State) (f : Flight) : (s.setFlight f).poison = s.poison := rfl
@[simp] theorem State.setFlight_ecc (s : State) (f : Flight) : (s.setFlight f).ecc = s.ecc := rfl
@[simp] theorem State.setFlight_scrubbed (s : State) (f : Flight) : (s.setFlight f).scrubbed = s.scrubbed := rfl
@[simp] theorem State.setFlight_strands (s : State) (f : Flight) : (s.setFlight f).strands = s.strands := rfl
@[simp] theorem State.setFlight_blocks (s : State) (f : Flight) : (s.setFlight f).blocks = s.blocks := rfl
@[simp] theorem State.setFlight_cores (s : State) (f : Flight) : (s.setFlight f).cores = s.cores := rfl
@[simp] theorem State.setFlight_clusters (s : State) (f : Flight) : (s.setFlight f).clusters = s.clusters := rfl
@[simp] theorem State.setFlight_holders (s : State) (f : Flight) : (s.setFlight f).holders = s.holders := rfl
@[simp] theorem State.setFlight_peerStores (s : State) (f : Flight) : (s.setFlight f).peerStores = s.peerStores := rfl
@[simp] theorem State.setFlight_hyper (s : State) (f : Flight) : (s.setFlight f).hyper = s.hyper := rfl
@[simp] theorem State.setFlight_hartDom (s : State) (f : Flight) : (s.setFlight f).hartDom = s.hartDom := rfl
@[simp] theorem State.setFlight_answers (s : State) (f : Flight) : (s.setFlight f).answers = s.answers := rfl
@[simp] theorem State.setFlight_late (s : State) (f : Flight) : (s.setFlight f).late = s.late := rfl
@[simp] theorem State.setFlight_latched (s : State) (f : Flight) : (s.setFlight f).latched = s.latched := rfl
@[simp] theorem State.setFlight_extStamp (s : State) (f : Flight) : (s.setFlight f).extStamp = s.extStamp := rfl
@[simp] theorem State.setFlight_procStamp (s : State) (f : Flight) : (s.setFlight f).procStamp = s.procStamp := rfl
@[simp] theorem State.setFlight_relStamp (s : State) (f : Flight) : (s.setFlight f).relStamp = s.relStamp := rfl
@[simp] theorem State.setFlight_nextFlight (s : State) (f : Flight) : (s.setFlight f).nextFlight = s.nextFlight := rfl
@[simp] theorem State.setFlight_nextOrder (s : State) (f : Flight) : (s.setFlight f).nextOrder = s.nextOrder := rfl
@[simp] theorem State.setFlight_nextTicket (s : State) (f : Flight) : (s.setFlight f).nextTicket = s.nextTicket := rfl
@[simp] theorem State.setFlight_sealed (s : State) (f : Flight) : (s.setFlight f).sealed = s.sealed := rfl
@[simp] theorem State.setFlight_control (s : State) (f : Flight) : (s.setFlight f).control = s.control := rfl
@[simp] theorem State.setFlight_notify (s : State) (f : Flight) : (s.setFlight f).notify = s.notify := rfl
@[simp] theorem State.setFlight_lastQueue (s : State) (f : Flight) : (s.setFlight f).lastQueue = s.lastQueue := rfl
@[simp] theorem State.setFlight_nextSeq (s : State) (f : Flight) : (s.setFlight f).nextSeq = s.nextSeq := rfl
@[simp] theorem State.setFlight_launches (s : State) (f : Flight) : (s.setFlight f).launches = s.launches := rfl
@[simp] theorem State.setFlight_nextLaunch (s : State) (f : Flight) : (s.setFlight f).nextLaunch = s.nextLaunch := rfl
@[simp] theorem State.setFlight_gangs (s : State) (f : Flight) : (s.setFlight f).gangs = s.gangs := rfl
@[simp] theorem State.setFlight_units (s : State) (f : Flight) : (s.setFlight f).units = s.units := rfl
@[simp] theorem State.setFlight_tokens (s : State) (f : Flight) : (s.setFlight f).tokens = s.tokens := rfl
@[simp] theorem State.setFlight_pinRelease (s : State) (f : Flight) : (s.setFlight f).pinRelease = s.pinRelease := rfl
@[simp] theorem State.setFlight_eventProd (s : State) (f : Flight) : (s.setFlight f).eventProd = s.eventProd := rfl
@[simp] theorem State.setFlight_eventHeld (s : State) (f : Flight) : (s.setFlight f).eventHeld = s.eventHeld := rfl
@[simp] theorem State.setFlight_services (s : State) (f : Flight) : (s.setFlight f).services = s.services := rfl
@[simp] theorem State.setFlight_settings (s : State) (f : Flight) : (s.setFlight f).settings = s.settings := rfl
@[simp] theorem State.setFlight_deposits (s : State) (f : Flight) : (s.setFlight f).deposits = s.deposits := rfl
@[simp] theorem State.setFlight_preempts (s : State) (f : Flight) : (s.setFlight f).preempts = s.preempts := rfl
@[simp] theorem State.setFlight_collectives (s : State) (f : Flight) : (s.setFlight f).collectives = s.collectives := rfl
@[simp] theorem State.setFlight_scans (s : State) (f : Flight) : (s.setFlight f).scans = s.scans := rfl
@[simp] theorem State.setFlight_scanDropped (s : State) (f : Flight) : (s.setFlight f).scanDropped = s.scanDropped := rfl
@[simp] theorem State.setFlight_teardowns (s : State) (f : Flight) : (s.setFlight f).teardowns = s.teardowns := rfl
@[simp] theorem State.setFlight_checkpoint (s : State) (f : Flight) : (s.setFlight f).checkpoint = s.checkpoint := rfl
@[simp] theorem State.setFlight_board (s : State) (f : Flight) : (s.setFlight f).board = s.board := rfl
@[simp] theorem State.setFlight_flips (s : State) (f : Flight) : (s.setFlight f).flips = s.flips := rfl
@[simp] theorem State.setFlight_agenda (s : State) (f : Flight) : (s.setFlight f).agenda = s.agenda := rfl
@[simp] theorem State.setFlight_cur (s : State) (f : Flight) : (s.setFlight f).cur = s.cur := rfl
@[simp] theorem State.setFlight_curSlot (s : State) (f : Flight) : (s.setFlight f).curSlot = s.curSlot := rfl
@[simp] theorem State.setFlight_fresh (s : State) (f : Flight) : (s.setFlight f).fresh = s.fresh := rfl
@[simp] theorem State.setFlight_rot (s : State) (f : Flight) : (s.setFlight f).rot = s.rot := rfl
@[simp] theorem State.setFlight_lastPart (s : State) (f : Flight) : (s.setFlight f).lastPart = s.lastPart := rfl

/-! ### dropFlight -/

@[simp] theorem State.dropFlight_dclk (s : State) (k : Nat) : (s.dropFlight k).dclk = s.dclk := rfl
@[simp] theorem State.dropFlight_mem (s : State) (k : Nat) : (s.dropFlight k).mem = s.mem := rfl
@[simp] theorem State.dropFlight_poison (s : State) (k : Nat) : (s.dropFlight k).poison = s.poison := rfl
@[simp] theorem State.dropFlight_ecc (s : State) (k : Nat) : (s.dropFlight k).ecc = s.ecc := rfl
@[simp] theorem State.dropFlight_scrubbed (s : State) (k : Nat) : (s.dropFlight k).scrubbed = s.scrubbed := rfl
@[simp] theorem State.dropFlight_strands (s : State) (k : Nat) : (s.dropFlight k).strands = s.strands := rfl
@[simp] theorem State.dropFlight_blocks (s : State) (k : Nat) : (s.dropFlight k).blocks = s.blocks := rfl
@[simp] theorem State.dropFlight_cores (s : State) (k : Nat) : (s.dropFlight k).cores = s.cores := rfl
@[simp] theorem State.dropFlight_clusters (s : State) (k : Nat) : (s.dropFlight k).clusters = s.clusters := rfl
@[simp] theorem State.dropFlight_holders (s : State) (k : Nat) : (s.dropFlight k).holders = s.holders := rfl
@[simp] theorem State.dropFlight_peerStores (s : State) (k : Nat) : (s.dropFlight k).peerStores = s.peerStores := rfl
@[simp] theorem State.dropFlight_hyper (s : State) (k : Nat) : (s.dropFlight k).hyper = s.hyper := rfl
@[simp] theorem State.dropFlight_hartDom (s : State) (k : Nat) : (s.dropFlight k).hartDom = s.hartDom := rfl
@[simp] theorem State.dropFlight_answers (s : State) (k : Nat) : (s.dropFlight k).answers = s.answers := rfl
@[simp] theorem State.dropFlight_late (s : State) (k : Nat) : (s.dropFlight k).late = s.late := rfl
@[simp] theorem State.dropFlight_latched (s : State) (k : Nat) : (s.dropFlight k).latched = s.latched := rfl
@[simp] theorem State.dropFlight_extStamp (s : State) (k : Nat) : (s.dropFlight k).extStamp = s.extStamp := rfl
@[simp] theorem State.dropFlight_procStamp (s : State) (k : Nat) : (s.dropFlight k).procStamp = s.procStamp := rfl
@[simp] theorem State.dropFlight_relStamp (s : State) (k : Nat) : (s.dropFlight k).relStamp = s.relStamp := rfl
@[simp] theorem State.dropFlight_nextFlight (s : State) (k : Nat) : (s.dropFlight k).nextFlight = s.nextFlight := rfl
@[simp] theorem State.dropFlight_nextOrder (s : State) (k : Nat) : (s.dropFlight k).nextOrder = s.nextOrder := rfl
@[simp] theorem State.dropFlight_nextTicket (s : State) (k : Nat) : (s.dropFlight k).nextTicket = s.nextTicket := rfl
@[simp] theorem State.dropFlight_sealed (s : State) (k : Nat) : (s.dropFlight k).sealed = s.sealed := rfl
@[simp] theorem State.dropFlight_control (s : State) (k : Nat) : (s.dropFlight k).control = s.control := rfl
@[simp] theorem State.dropFlight_notify (s : State) (k : Nat) : (s.dropFlight k).notify = s.notify := rfl
@[simp] theorem State.dropFlight_lastQueue (s : State) (k : Nat) : (s.dropFlight k).lastQueue = s.lastQueue := rfl
@[simp] theorem State.dropFlight_nextSeq (s : State) (k : Nat) : (s.dropFlight k).nextSeq = s.nextSeq := rfl
@[simp] theorem State.dropFlight_launches (s : State) (k : Nat) : (s.dropFlight k).launches = s.launches := rfl
@[simp] theorem State.dropFlight_nextLaunch (s : State) (k : Nat) : (s.dropFlight k).nextLaunch = s.nextLaunch := rfl
@[simp] theorem State.dropFlight_gangs (s : State) (k : Nat) : (s.dropFlight k).gangs = s.gangs := rfl
@[simp] theorem State.dropFlight_units (s : State) (k : Nat) : (s.dropFlight k).units = s.units := rfl
@[simp] theorem State.dropFlight_tokens (s : State) (k : Nat) : (s.dropFlight k).tokens = s.tokens := rfl
@[simp] theorem State.dropFlight_pinRelease (s : State) (k : Nat) : (s.dropFlight k).pinRelease = s.pinRelease := rfl
@[simp] theorem State.dropFlight_eventProd (s : State) (k : Nat) : (s.dropFlight k).eventProd = s.eventProd := rfl
@[simp] theorem State.dropFlight_eventHeld (s : State) (k : Nat) : (s.dropFlight k).eventHeld = s.eventHeld := rfl
@[simp] theorem State.dropFlight_services (s : State) (k : Nat) : (s.dropFlight k).services = s.services := rfl
@[simp] theorem State.dropFlight_settings (s : State) (k : Nat) : (s.dropFlight k).settings = s.settings := rfl
@[simp] theorem State.dropFlight_deposits (s : State) (k : Nat) : (s.dropFlight k).deposits = s.deposits := rfl
@[simp] theorem State.dropFlight_preempts (s : State) (k : Nat) : (s.dropFlight k).preempts = s.preempts := rfl
@[simp] theorem State.dropFlight_collectives (s : State) (k : Nat) : (s.dropFlight k).collectives = s.collectives := rfl
@[simp] theorem State.dropFlight_scans (s : State) (k : Nat) : (s.dropFlight k).scans = s.scans := rfl
@[simp] theorem State.dropFlight_scanDropped (s : State) (k : Nat) : (s.dropFlight k).scanDropped = s.scanDropped := rfl
@[simp] theorem State.dropFlight_teardowns (s : State) (k : Nat) : (s.dropFlight k).teardowns = s.teardowns := rfl
@[simp] theorem State.dropFlight_checkpoint (s : State) (k : Nat) : (s.dropFlight k).checkpoint = s.checkpoint := rfl
@[simp] theorem State.dropFlight_board (s : State) (k : Nat) : (s.dropFlight k).board = s.board := rfl
@[simp] theorem State.dropFlight_flips (s : State) (k : Nat) : (s.dropFlight k).flips = s.flips := rfl
@[simp] theorem State.dropFlight_agenda (s : State) (k : Nat) : (s.dropFlight k).agenda = s.agenda := rfl
@[simp] theorem State.dropFlight_cur (s : State) (k : Nat) : (s.dropFlight k).cur = s.cur := rfl
@[simp] theorem State.dropFlight_curSlot (s : State) (k : Nat) : (s.dropFlight k).curSlot = s.curSlot := rfl
@[simp] theorem State.dropFlight_fresh (s : State) (k : Nat) : (s.dropFlight k).fresh = s.fresh := rfl
@[simp] theorem State.dropFlight_rot (s : State) (k : Nat) : (s.dropFlight k).rot = s.rot := rfl
@[simp] theorem State.dropFlight_lastPart (s : State) (k : Nat) : (s.dropFlight k).lastPart = s.lastPart := rfl

/-! ### modLaunch -/

@[simp] theorem State.modLaunch_dclk (s : State) (k : Nat) (f : Launch → Launch) : (s.modLaunch k f).dclk = s.dclk := rfl
@[simp] theorem State.modLaunch_mem (s : State) (k : Nat) (f : Launch → Launch) : (s.modLaunch k f).mem = s.mem := rfl
@[simp] theorem State.modLaunch_poison (s : State) (k : Nat) (f : Launch → Launch) : (s.modLaunch k f).poison = s.poison := rfl
@[simp] theorem State.modLaunch_ecc (s : State) (k : Nat) (f : Launch → Launch) : (s.modLaunch k f).ecc = s.ecc := rfl
@[simp] theorem State.modLaunch_scrubbed (s : State) (k : Nat) (f : Launch → Launch) : (s.modLaunch k f).scrubbed = s.scrubbed := rfl
@[simp] theorem State.modLaunch_strands (s : State) (k : Nat) (f : Launch → Launch) : (s.modLaunch k f).strands = s.strands := rfl
@[simp] theorem State.modLaunch_blocks (s : State) (k : Nat) (f : Launch → Launch) : (s.modLaunch k f).blocks = s.blocks := rfl
@[simp] theorem State.modLaunch_cores (s : State) (k : Nat) (f : Launch → Launch) : (s.modLaunch k f).cores = s.cores := rfl
@[simp] theorem State.modLaunch_clusters (s : State) (k : Nat) (f : Launch → Launch) : (s.modLaunch k f).clusters = s.clusters := rfl
@[simp] theorem State.modLaunch_holders (s : State) (k : Nat) (f : Launch → Launch) : (s.modLaunch k f).holders = s.holders := rfl
@[simp] theorem State.modLaunch_peerStores (s : State) (k : Nat) (f : Launch → Launch) : (s.modLaunch k f).peerStores = s.peerStores := rfl
@[simp] theorem State.modLaunch_hyper (s : State) (k : Nat) (f : Launch → Launch) : (s.modLaunch k f).hyper = s.hyper := rfl
@[simp] theorem State.modLaunch_hartDom (s : State) (k : Nat) (f : Launch → Launch) : (s.modLaunch k f).hartDom = s.hartDom := rfl
@[simp] theorem State.modLaunch_answers (s : State) (k : Nat) (f : Launch → Launch) : (s.modLaunch k f).answers = s.answers := rfl
@[simp] theorem State.modLaunch_late (s : State) (k : Nat) (f : Launch → Launch) : (s.modLaunch k f).late = s.late := rfl
@[simp] theorem State.modLaunch_latched (s : State) (k : Nat) (f : Launch → Launch) : (s.modLaunch k f).latched = s.latched := rfl
@[simp] theorem State.modLaunch_extStamp (s : State) (k : Nat) (f : Launch → Launch) : (s.modLaunch k f).extStamp = s.extStamp := rfl
@[simp] theorem State.modLaunch_procStamp (s : State) (k : Nat) (f : Launch → Launch) : (s.modLaunch k f).procStamp = s.procStamp := rfl
@[simp] theorem State.modLaunch_relStamp (s : State) (k : Nat) (f : Launch → Launch) : (s.modLaunch k f).relStamp = s.relStamp := rfl
@[simp] theorem State.modLaunch_flights (s : State) (k : Nat) (f : Launch → Launch) : (s.modLaunch k f).flights = s.flights := rfl
@[simp] theorem State.modLaunch_nextFlight (s : State) (k : Nat) (f : Launch → Launch) : (s.modLaunch k f).nextFlight = s.nextFlight := rfl
@[simp] theorem State.modLaunch_nextOrder (s : State) (k : Nat) (f : Launch → Launch) : (s.modLaunch k f).nextOrder = s.nextOrder := rfl
@[simp] theorem State.modLaunch_nextTicket (s : State) (k : Nat) (f : Launch → Launch) : (s.modLaunch k f).nextTicket = s.nextTicket := rfl
@[simp] theorem State.modLaunch_sealed (s : State) (k : Nat) (f : Launch → Launch) : (s.modLaunch k f).sealed = s.sealed := rfl
@[simp] theorem State.modLaunch_control (s : State) (k : Nat) (f : Launch → Launch) : (s.modLaunch k f).control = s.control := rfl
@[simp] theorem State.modLaunch_notify (s : State) (k : Nat) (f : Launch → Launch) : (s.modLaunch k f).notify = s.notify := rfl
@[simp] theorem State.modLaunch_lastQueue (s : State) (k : Nat) (f : Launch → Launch) : (s.modLaunch k f).lastQueue = s.lastQueue := rfl
@[simp] theorem State.modLaunch_nextSeq (s : State) (k : Nat) (f : Launch → Launch) : (s.modLaunch k f).nextSeq = s.nextSeq := rfl
@[simp] theorem State.modLaunch_nextLaunch (s : State) (k : Nat) (f : Launch → Launch) : (s.modLaunch k f).nextLaunch = s.nextLaunch := rfl
@[simp] theorem State.modLaunch_gangs (s : State) (k : Nat) (f : Launch → Launch) : (s.modLaunch k f).gangs = s.gangs := rfl
@[simp] theorem State.modLaunch_units (s : State) (k : Nat) (f : Launch → Launch) : (s.modLaunch k f).units = s.units := rfl
@[simp] theorem State.modLaunch_tokens (s : State) (k : Nat) (f : Launch → Launch) : (s.modLaunch k f).tokens = s.tokens := rfl
@[simp] theorem State.modLaunch_pinRelease (s : State) (k : Nat) (f : Launch → Launch) : (s.modLaunch k f).pinRelease = s.pinRelease := rfl
@[simp] theorem State.modLaunch_eventProd (s : State) (k : Nat) (f : Launch → Launch) : (s.modLaunch k f).eventProd = s.eventProd := rfl
@[simp] theorem State.modLaunch_eventHeld (s : State) (k : Nat) (f : Launch → Launch) : (s.modLaunch k f).eventHeld = s.eventHeld := rfl
@[simp] theorem State.modLaunch_services (s : State) (k : Nat) (f : Launch → Launch) : (s.modLaunch k f).services = s.services := rfl
@[simp] theorem State.modLaunch_settings (s : State) (k : Nat) (f : Launch → Launch) : (s.modLaunch k f).settings = s.settings := rfl
@[simp] theorem State.modLaunch_deposits (s : State) (k : Nat) (f : Launch → Launch) : (s.modLaunch k f).deposits = s.deposits := rfl
@[simp] theorem State.modLaunch_preempts (s : State) (k : Nat) (f : Launch → Launch) : (s.modLaunch k f).preempts = s.preempts := rfl
@[simp] theorem State.modLaunch_collectives (s : State) (k : Nat) (f : Launch → Launch) : (s.modLaunch k f).collectives = s.collectives := rfl
@[simp] theorem State.modLaunch_scans (s : State) (k : Nat) (f : Launch → Launch) : (s.modLaunch k f).scans = s.scans := rfl
@[simp] theorem State.modLaunch_scanDropped (s : State) (k : Nat) (f : Launch → Launch) : (s.modLaunch k f).scanDropped = s.scanDropped := rfl
@[simp] theorem State.modLaunch_teardowns (s : State) (k : Nat) (f : Launch → Launch) : (s.modLaunch k f).teardowns = s.teardowns := rfl
@[simp] theorem State.modLaunch_checkpoint (s : State) (k : Nat) (f : Launch → Launch) : (s.modLaunch k f).checkpoint = s.checkpoint := rfl
@[simp] theorem State.modLaunch_board (s : State) (k : Nat) (f : Launch → Launch) : (s.modLaunch k f).board = s.board := rfl
@[simp] theorem State.modLaunch_flips (s : State) (k : Nat) (f : Launch → Launch) : (s.modLaunch k f).flips = s.flips := rfl
@[simp] theorem State.modLaunch_agenda (s : State) (k : Nat) (f : Launch → Launch) : (s.modLaunch k f).agenda = s.agenda := rfl
@[simp] theorem State.modLaunch_cur (s : State) (k : Nat) (f : Launch → Launch) : (s.modLaunch k f).cur = s.cur := rfl
@[simp] theorem State.modLaunch_curSlot (s : State) (k : Nat) (f : Launch → Launch) : (s.modLaunch k f).curSlot = s.curSlot := rfl
@[simp] theorem State.modLaunch_fresh (s : State) (k : Nat) (f : Launch → Launch) : (s.modLaunch k f).fresh = s.fresh := rfl
@[simp] theorem State.modLaunch_rot (s : State) (k : Nat) (f : Launch → Launch) : (s.modLaunch k f).rot = s.rot := rfl
@[simp] theorem State.modLaunch_lastPart (s : State) (k : Nat) (f : Launch → Launch) : (s.modLaunch k f).lastPart = s.lastPart := rfl

/-! ### noteIssue -/

@[simp] theorem State.noteIssue_dclk (s : State) (k : Nat) : (s.noteIssue k).dclk = s.dclk := rfl
@[simp] theorem State.noteIssue_mem (s : State) (k : Nat) : (s.noteIssue k).mem = s.mem := rfl
@[simp] theorem State.noteIssue_poison (s : State) (k : Nat) : (s.noteIssue k).poison = s.poison := rfl
@[simp] theorem State.noteIssue_ecc (s : State) (k : Nat) : (s.noteIssue k).ecc = s.ecc := rfl
@[simp] theorem State.noteIssue_scrubbed (s : State) (k : Nat) : (s.noteIssue k).scrubbed = s.scrubbed := rfl
@[simp] theorem State.noteIssue_blocks (s : State) (k : Nat) : (s.noteIssue k).blocks = s.blocks := rfl
@[simp] theorem State.noteIssue_cores (s : State) (k : Nat) : (s.noteIssue k).cores = s.cores := rfl
@[simp] theorem State.noteIssue_clusters (s : State) (k : Nat) : (s.noteIssue k).clusters = s.clusters := rfl
@[simp] theorem State.noteIssue_holders (s : State) (k : Nat) : (s.noteIssue k).holders = s.holders := rfl
@[simp] theorem State.noteIssue_peerStores (s : State) (k : Nat) : (s.noteIssue k).peerStores = s.peerStores := rfl
@[simp] theorem State.noteIssue_hyper (s : State) (k : Nat) : (s.noteIssue k).hyper = s.hyper := rfl
@[simp] theorem State.noteIssue_hartDom (s : State) (k : Nat) : (s.noteIssue k).hartDom = s.hartDom := rfl
@[simp] theorem State.noteIssue_answers (s : State) (k : Nat) : (s.noteIssue k).answers = s.answers := rfl
@[simp] theorem State.noteIssue_late (s : State) (k : Nat) : (s.noteIssue k).late = s.late := rfl
@[simp] theorem State.noteIssue_latched (s : State) (k : Nat) : (s.noteIssue k).latched = s.latched := rfl
@[simp] theorem State.noteIssue_extStamp (s : State) (k : Nat) : (s.noteIssue k).extStamp = s.extStamp := rfl
@[simp] theorem State.noteIssue_procStamp (s : State) (k : Nat) : (s.noteIssue k).procStamp = s.procStamp := rfl
@[simp] theorem State.noteIssue_relStamp (s : State) (k : Nat) : (s.noteIssue k).relStamp = s.relStamp := rfl
@[simp] theorem State.noteIssue_flights (s : State) (k : Nat) : (s.noteIssue k).flights = s.flights := rfl
@[simp] theorem State.noteIssue_nextFlight (s : State) (k : Nat) : (s.noteIssue k).nextFlight = s.nextFlight := rfl
@[simp] theorem State.noteIssue_nextOrder (s : State) (k : Nat) : (s.noteIssue k).nextOrder = s.nextOrder := rfl
@[simp] theorem State.noteIssue_nextTicket (s : State) (k : Nat) : (s.noteIssue k).nextTicket = s.nextTicket := rfl
@[simp] theorem State.noteIssue_sealed (s : State) (k : Nat) : (s.noteIssue k).sealed = s.sealed := rfl
@[simp] theorem State.noteIssue_control (s : State) (k : Nat) : (s.noteIssue k).control = s.control := rfl
@[simp] theorem State.noteIssue_notify (s : State) (k : Nat) : (s.noteIssue k).notify = s.notify := rfl
@[simp] theorem State.noteIssue_lastQueue (s : State) (k : Nat) : (s.noteIssue k).lastQueue = s.lastQueue := rfl
@[simp] theorem State.noteIssue_nextSeq (s : State) (k : Nat) : (s.noteIssue k).nextSeq = s.nextSeq := rfl
@[simp] theorem State.noteIssue_launches (s : State) (k : Nat) : (s.noteIssue k).launches = s.launches := rfl
@[simp] theorem State.noteIssue_nextLaunch (s : State) (k : Nat) : (s.noteIssue k).nextLaunch = s.nextLaunch := rfl
@[simp] theorem State.noteIssue_gangs (s : State) (k : Nat) : (s.noteIssue k).gangs = s.gangs := rfl
@[simp] theorem State.noteIssue_units (s : State) (k : Nat) : (s.noteIssue k).units = s.units := rfl
@[simp] theorem State.noteIssue_tokens (s : State) (k : Nat) : (s.noteIssue k).tokens = s.tokens := rfl
@[simp] theorem State.noteIssue_pinRelease (s : State) (k : Nat) : (s.noteIssue k).pinRelease = s.pinRelease := rfl
@[simp] theorem State.noteIssue_eventProd (s : State) (k : Nat) : (s.noteIssue k).eventProd = s.eventProd := rfl
@[simp] theorem State.noteIssue_eventHeld (s : State) (k : Nat) : (s.noteIssue k).eventHeld = s.eventHeld := rfl
@[simp] theorem State.noteIssue_services (s : State) (k : Nat) : (s.noteIssue k).services = s.services := rfl
@[simp] theorem State.noteIssue_settings (s : State) (k : Nat) : (s.noteIssue k).settings = s.settings := rfl
@[simp] theorem State.noteIssue_deposits (s : State) (k : Nat) : (s.noteIssue k).deposits = s.deposits := rfl
@[simp] theorem State.noteIssue_preempts (s : State) (k : Nat) : (s.noteIssue k).preempts = s.preempts := rfl
@[simp] theorem State.noteIssue_collectives (s : State) (k : Nat) : (s.noteIssue k).collectives = s.collectives := rfl
@[simp] theorem State.noteIssue_scans (s : State) (k : Nat) : (s.noteIssue k).scans = s.scans := rfl
@[simp] theorem State.noteIssue_scanDropped (s : State) (k : Nat) : (s.noteIssue k).scanDropped = s.scanDropped := rfl
@[simp] theorem State.noteIssue_teardowns (s : State) (k : Nat) : (s.noteIssue k).teardowns = s.teardowns := rfl
@[simp] theorem State.noteIssue_checkpoint (s : State) (k : Nat) : (s.noteIssue k).checkpoint = s.checkpoint := rfl
@[simp] theorem State.noteIssue_board (s : State) (k : Nat) : (s.noteIssue k).board = s.board := rfl
@[simp] theorem State.noteIssue_flips (s : State) (k : Nat) : (s.noteIssue k).flips = s.flips := rfl
@[simp] theorem State.noteIssue_agenda (s : State) (k : Nat) : (s.noteIssue k).agenda = s.agenda := rfl
@[simp] theorem State.noteIssue_cur (s : State) (k : Nat) : (s.noteIssue k).cur = s.cur := rfl
@[simp] theorem State.noteIssue_curSlot (s : State) (k : Nat) : (s.noteIssue k).curSlot = s.curSlot := rfl
@[simp] theorem State.noteIssue_fresh (s : State) (k : Nat) : (s.noteIssue k).fresh = s.fresh := rfl
@[simp] theorem State.noteIssue_rot (s : State) (k : Nat) : (s.noteIssue k).rot = s.rot := rfl
@[simp] theorem State.noteIssue_lastPart (s : State) (k : Nat) : (s.noteIssue k).lastPart = s.lastPart := rfl

/-! ### tick -/

@[simp] theorem State.tick_mem (s : State) (k : Nat) (b : Bool) : (s.tick k b).mem = s.mem := by
  obtain ⟨_, _, h⟩ := State.flipDue_frame { s with dclk := s.dclk + 1, cur := k, curSlot := b }; simp only [State.tick, h]
@[simp] theorem State.tick_poison (s : State) (k : Nat) (b : Bool) : (s.tick k b).poison = s.poison := by
  obtain ⟨_, _, h⟩ := State.flipDue_frame { s with dclk := s.dclk + 1, cur := k, curSlot := b }; simp only [State.tick, h]
@[simp] theorem State.tick_ecc (s : State) (k : Nat) (b : Bool) : (s.tick k b).ecc = s.ecc := by
  obtain ⟨_, _, h⟩ := State.flipDue_frame { s with dclk := s.dclk + 1, cur := k, curSlot := b }; simp only [State.tick, h]
@[simp] theorem State.tick_scrubbed (s : State) (k : Nat) (b : Bool) : (s.tick k b).scrubbed = s.scrubbed := by
  obtain ⟨_, _, h⟩ := State.flipDue_frame { s with dclk := s.dclk + 1, cur := k, curSlot := b }; simp only [State.tick, h]
@[simp] theorem State.tick_strands (s : State) (k : Nat) (b : Bool) : (s.tick k b).strands = s.strands := by
  obtain ⟨_, _, h⟩ := State.flipDue_frame { s with dclk := s.dclk + 1, cur := k, curSlot := b }; simp only [State.tick, h]
@[simp] theorem State.tick_cores (s : State) (k : Nat) (b : Bool) : (s.tick k b).cores = s.cores := by
  obtain ⟨_, _, h⟩ := State.flipDue_frame { s with dclk := s.dclk + 1, cur := k, curSlot := b }; simp only [State.tick, h]
@[simp] theorem State.tick_clusters (s : State) (k : Nat) (b : Bool) : (s.tick k b).clusters = s.clusters := by
  obtain ⟨_, _, h⟩ := State.flipDue_frame { s with dclk := s.dclk + 1, cur := k, curSlot := b }; simp only [State.tick, h]
@[simp] theorem State.tick_holders (s : State) (k : Nat) (b : Bool) : (s.tick k b).holders = s.holders := by
  obtain ⟨_, _, h⟩ := State.flipDue_frame { s with dclk := s.dclk + 1, cur := k, curSlot := b }; simp only [State.tick, h]
@[simp] theorem State.tick_peerStores (s : State) (k : Nat) (b : Bool) : (s.tick k b).peerStores = s.peerStores := by
  obtain ⟨_, _, h⟩ := State.flipDue_frame { s with dclk := s.dclk + 1, cur := k, curSlot := b }; simp only [State.tick, h]
@[simp] theorem State.tick_hyper (s : State) (k : Nat) (b : Bool) : (s.tick k b).hyper = s.hyper := by
  obtain ⟨_, _, h⟩ := State.flipDue_frame { s with dclk := s.dclk + 1, cur := k, curSlot := b }; simp only [State.tick, h]
@[simp] theorem State.tick_hartDom (s : State) (k : Nat) (b : Bool) : (s.tick k b).hartDom = s.hartDom := by
  obtain ⟨_, _, h⟩ := State.flipDue_frame { s with dclk := s.dclk + 1, cur := k, curSlot := b }; simp only [State.tick, h]
@[simp] theorem State.tick_answers (s : State) (k : Nat) (b : Bool) : (s.tick k b).answers = s.answers := by
  obtain ⟨_, _, h⟩ := State.flipDue_frame { s with dclk := s.dclk + 1, cur := k, curSlot := b }; simp only [State.tick, h]
@[simp] theorem State.tick_late (s : State) (k : Nat) (b : Bool) : (s.tick k b).late = s.late := by
  obtain ⟨_, _, h⟩ := State.flipDue_frame { s with dclk := s.dclk + 1, cur := k, curSlot := b }; simp only [State.tick, h]
@[simp] theorem State.tick_latched (s : State) (k : Nat) (b : Bool) : (s.tick k b).latched = s.latched := by
  obtain ⟨_, _, h⟩ := State.flipDue_frame { s with dclk := s.dclk + 1, cur := k, curSlot := b }; simp only [State.tick, h]
@[simp] theorem State.tick_extStamp (s : State) (k : Nat) (b : Bool) : (s.tick k b).extStamp = s.extStamp := by
  obtain ⟨_, _, h⟩ := State.flipDue_frame { s with dclk := s.dclk + 1, cur := k, curSlot := b }; simp only [State.tick, h]
@[simp] theorem State.tick_procStamp (s : State) (k : Nat) (b : Bool) : (s.tick k b).procStamp = s.procStamp := by
  obtain ⟨_, _, h⟩ := State.flipDue_frame { s with dclk := s.dclk + 1, cur := k, curSlot := b }; simp only [State.tick, h]
@[simp] theorem State.tick_relStamp (s : State) (k : Nat) (b : Bool) : (s.tick k b).relStamp = s.relStamp := by
  obtain ⟨_, _, h⟩ := State.flipDue_frame { s with dclk := s.dclk + 1, cur := k, curSlot := b }; simp only [State.tick, h]
@[simp] theorem State.tick_flights (s : State) (k : Nat) (b : Bool) : (s.tick k b).flights = s.flights := by
  obtain ⟨_, _, h⟩ := State.flipDue_frame { s with dclk := s.dclk + 1, cur := k, curSlot := b }; simp only [State.tick, h]
@[simp] theorem State.tick_nextFlight (s : State) (k : Nat) (b : Bool) : (s.tick k b).nextFlight = s.nextFlight := by
  obtain ⟨_, _, h⟩ := State.flipDue_frame { s with dclk := s.dclk + 1, cur := k, curSlot := b }; simp only [State.tick, h]
@[simp] theorem State.tick_nextOrder (s : State) (k : Nat) (b : Bool) : (s.tick k b).nextOrder = s.nextOrder := by
  obtain ⟨_, _, h⟩ := State.flipDue_frame { s with dclk := s.dclk + 1, cur := k, curSlot := b }; simp only [State.tick, h]
@[simp] theorem State.tick_nextTicket (s : State) (k : Nat) (b : Bool) : (s.tick k b).nextTicket = s.nextTicket := by
  obtain ⟨_, _, h⟩ := State.flipDue_frame { s with dclk := s.dclk + 1, cur := k, curSlot := b }; simp only [State.tick, h]
@[simp] theorem State.tick_sealed (s : State) (k : Nat) (b : Bool) : (s.tick k b).sealed = s.sealed := by
  obtain ⟨_, _, h⟩ := State.flipDue_frame { s with dclk := s.dclk + 1, cur := k, curSlot := b }; simp only [State.tick, h]
@[simp] theorem State.tick_control (s : State) (k : Nat) (b : Bool) : (s.tick k b).control = s.control := by
  obtain ⟨_, _, h⟩ := State.flipDue_frame { s with dclk := s.dclk + 1, cur := k, curSlot := b }; simp only [State.tick, h]
@[simp] theorem State.tick_notify (s : State) (k : Nat) (b : Bool) : (s.tick k b).notify = s.notify := by
  obtain ⟨_, _, h⟩ := State.flipDue_frame { s with dclk := s.dclk + 1, cur := k, curSlot := b }; simp only [State.tick, h]
@[simp] theorem State.tick_lastQueue (s : State) (k : Nat) (b : Bool) : (s.tick k b).lastQueue = s.lastQueue := by
  obtain ⟨_, _, h⟩ := State.flipDue_frame { s with dclk := s.dclk + 1, cur := k, curSlot := b }; simp only [State.tick, h]
@[simp] theorem State.tick_nextSeq (s : State) (k : Nat) (b : Bool) : (s.tick k b).nextSeq = s.nextSeq := by
  obtain ⟨_, _, h⟩ := State.flipDue_frame { s with dclk := s.dclk + 1, cur := k, curSlot := b }; simp only [State.tick, h]
@[simp] theorem State.tick_launches (s : State) (k : Nat) (b : Bool) : (s.tick k b).launches = s.launches := by
  obtain ⟨_, _, h⟩ := State.flipDue_frame { s with dclk := s.dclk + 1, cur := k, curSlot := b }; simp only [State.tick, h]
@[simp] theorem State.tick_nextLaunch (s : State) (k : Nat) (b : Bool) : (s.tick k b).nextLaunch = s.nextLaunch := by
  obtain ⟨_, _, h⟩ := State.flipDue_frame { s with dclk := s.dclk + 1, cur := k, curSlot := b }; simp only [State.tick, h]
@[simp] theorem State.tick_gangs (s : State) (k : Nat) (b : Bool) : (s.tick k b).gangs = s.gangs := by
  obtain ⟨_, _, h⟩ := State.flipDue_frame { s with dclk := s.dclk + 1, cur := k, curSlot := b }; simp only [State.tick, h]
@[simp] theorem State.tick_units (s : State) (k : Nat) (b : Bool) : (s.tick k b).units = s.units := by
  obtain ⟨_, _, h⟩ := State.flipDue_frame { s with dclk := s.dclk + 1, cur := k, curSlot := b }; simp only [State.tick, h]
@[simp] theorem State.tick_tokens (s : State) (k : Nat) (b : Bool) : (s.tick k b).tokens = s.tokens := by
  obtain ⟨_, _, h⟩ := State.flipDue_frame { s with dclk := s.dclk + 1, cur := k, curSlot := b }; simp only [State.tick, h]
@[simp] theorem State.tick_pinRelease (s : State) (k : Nat) (b : Bool) : (s.tick k b).pinRelease = s.pinRelease := by
  obtain ⟨_, _, h⟩ := State.flipDue_frame { s with dclk := s.dclk + 1, cur := k, curSlot := b }; simp only [State.tick, h]
@[simp] theorem State.tick_eventProd (s : State) (k : Nat) (b : Bool) : (s.tick k b).eventProd = s.eventProd := by
  obtain ⟨_, _, h⟩ := State.flipDue_frame { s with dclk := s.dclk + 1, cur := k, curSlot := b }; simp only [State.tick, h]
@[simp] theorem State.tick_eventHeld (s : State) (k : Nat) (b : Bool) : (s.tick k b).eventHeld = s.eventHeld := by
  obtain ⟨_, _, h⟩ := State.flipDue_frame { s with dclk := s.dclk + 1, cur := k, curSlot := b }; simp only [State.tick, h]
@[simp] theorem State.tick_services (s : State) (k : Nat) (b : Bool) : (s.tick k b).services = s.services := by
  obtain ⟨_, _, h⟩ := State.flipDue_frame { s with dclk := s.dclk + 1, cur := k, curSlot := b }; simp only [State.tick, h]
@[simp] theorem State.tick_settings (s : State) (k : Nat) (b : Bool) : (s.tick k b).settings = s.settings := by
  obtain ⟨_, _, h⟩ := State.flipDue_frame { s with dclk := s.dclk + 1, cur := k, curSlot := b }; simp only [State.tick, h]
@[simp] theorem State.tick_deposits (s : State) (k : Nat) (b : Bool) : (s.tick k b).deposits = s.deposits := by
  obtain ⟨_, _, h⟩ := State.flipDue_frame { s with dclk := s.dclk + 1, cur := k, curSlot := b }; simp only [State.tick, h]
@[simp] theorem State.tick_preempts (s : State) (k : Nat) (b : Bool) : (s.tick k b).preempts = s.preempts := by
  obtain ⟨_, _, h⟩ := State.flipDue_frame { s with dclk := s.dclk + 1, cur := k, curSlot := b }; simp only [State.tick, h]
@[simp] theorem State.tick_collectives (s : State) (k : Nat) (b : Bool) : (s.tick k b).collectives = s.collectives := by
  obtain ⟨_, _, h⟩ := State.flipDue_frame { s with dclk := s.dclk + 1, cur := k, curSlot := b }; simp only [State.tick, h]
@[simp] theorem State.tick_scans (s : State) (k : Nat) (b : Bool) : (s.tick k b).scans = s.scans := by
  obtain ⟨_, _, h⟩ := State.flipDue_frame { s with dclk := s.dclk + 1, cur := k, curSlot := b }; simp only [State.tick, h]
@[simp] theorem State.tick_scanDropped (s : State) (k : Nat) (b : Bool) : (s.tick k b).scanDropped = s.scanDropped := by
  obtain ⟨_, _, h⟩ := State.flipDue_frame { s with dclk := s.dclk + 1, cur := k, curSlot := b }; simp only [State.tick, h]
@[simp] theorem State.tick_teardowns (s : State) (k : Nat) (b : Bool) : (s.tick k b).teardowns = s.teardowns := by
  obtain ⟨_, _, h⟩ := State.flipDue_frame { s with dclk := s.dclk + 1, cur := k, curSlot := b }; simp only [State.tick, h]
@[simp] theorem State.tick_checkpoint (s : State) (k : Nat) (b : Bool) : (s.tick k b).checkpoint = s.checkpoint := by
  obtain ⟨_, _, h⟩ := State.flipDue_frame { s with dclk := s.dclk + 1, cur := k, curSlot := b }; simp only [State.tick, h]
@[simp] theorem State.tick_board (s : State) (k : Nat) (b : Bool) : (s.tick k b).board = s.board := by
  obtain ⟨_, _, h⟩ := State.flipDue_frame { s with dclk := s.dclk + 1, cur := k, curSlot := b }; simp only [State.tick, h]
@[simp] theorem State.tick_agenda (s : State) (k : Nat) (b : Bool) : (s.tick k b).agenda = s.agenda := by
  obtain ⟨_, _, h⟩ := State.flipDue_frame { s with dclk := s.dclk + 1, cur := k, curSlot := b }; simp only [State.tick, h]
@[simp] theorem State.tick_fresh (s : State) (k : Nat) (b : Bool) : (s.tick k b).fresh = s.fresh := by
  obtain ⟨_, _, h⟩ := State.flipDue_frame { s with dclk := s.dclk + 1, cur := k, curSlot := b }; simp only [State.tick, h]
@[simp] theorem State.tick_rot (s : State) (k : Nat) (b : Bool) : (s.tick k b).rot = s.rot := by
  obtain ⟨_, _, h⟩ := State.flipDue_frame { s with dclk := s.dclk + 1, cur := k, curSlot := b }; simp only [State.tick, h]
@[simp] theorem State.tick_lastPart (s : State) (k : Nat) (b : Bool) : (s.tick k b).lastPart = s.lastPart := by
  obtain ⟨_, _, h⟩ := State.flipDue_frame { s with dclk := s.dclk + 1, cur := k, curSlot := b }; simp only [State.tick, h]

@[simp] theorem State.tick_dclk (s : State) (k : Nat) (b : Bool) : (s.tick k b).dclk = s.dclk + 1 := by
  obtain ⟨_, _, h⟩ := State.flipDue_frame { s with dclk := s.dclk + 1, cur := k, curSlot := b }; simp only [State.tick, h]
@[simp] theorem State.tick_cur (s : State) (k : Nat) (b : Bool) : (s.tick k b).cur = k := by
  obtain ⟨_, _, h⟩ := State.flipDue_frame { s with dclk := s.dclk + 1, cur := k, curSlot := b }; simp only [State.tick, h]
@[simp] theorem State.tick_curSlot (s : State) (k : Nat) (b : Bool) : (s.tick k b).curSlot = b := by
  obtain ⟨_, _, h⟩ := State.flipDue_frame { s with dclk := s.dclk + 1, cur := k, curSlot := b }; simp only [State.tick, h]

end Sys2Proof.Machine
end

