-- ==== Sys2Proof/Laws/Memory.lean ====
section
/-!
SUPPORT. The laws of the bytes of HBM4E and of the tables of the package: a read after a write, and that every write of memory
keeps the canonical form.
-/
namespace Sys2Proof.Machine

/-! ### Bytes -/

theorem State.byte_setByte (s : State) (a k : Nat) (b : Byte) : (s.setByte a b).byte k = if k = a then b else s.byte k :=
  Tbl.get_set _ _ _ _ _
@[simp] theorem State.byte_setByte_same (s : State) (a : Nat) (b : Byte) : (s.setByte a b).byte a = b := by
  simp [State.byte_setByte]
theorem State.byte_setByte_ne (s : State) {a k : Nat} (b : Byte) (h : k ≠ a) : (s.setByte a b).byte k = s.byte k := by
  simp [State.byte_setByte, h]

/-- Bytes outside the range written read as before. -/
theorem State.byte_writeN_outside (s : State) (a n v k : Nat) (h : k < a ∨ a + n ≤ k) : (s.writeN a n v).byte k = s.byte k := by
  induction n generalizing s a v with
  | zero => rfl
  | succ n ih => rw [State.writeN, ih _ _ _ (by omega), State.byte_setByte_ne _ _ (by omega)]

/-- Byte `j` of what was written. -/
theorem State.byte_writeN (s : State) (a n v j : Nat) (h : j < n) :
    (s.writeN a n v).byte (a + j) = BitVec.ofNat 8 (v / 256 ^ j) := by
  induction n generalizing s a v j with
  | zero => omega
  | succ n ih =>
    rw [State.writeN]
    cases j with
    | zero => rw [State.byte_writeN_outside _ _ _ _ _ (by omega)]; simp
    | succ j =>
      have := ih (s.setByte a (BitVec.ofNat 8 v)) (a + 1) (v / 256) j (by omega)
      rw [show a + 1 + j = a + (j + 1) by omega] at this
      rw [this, Nat.div_div_eq_div_mul, Nat.pow_succ, Nat.mul_comm]

theorem State.readN_congr (s t : State) (a n : Nat) (h : ∀ j, j < n → s.byte (a + j) = t.byte (a + j)) : s.readN a n = t.readN a n := by
  induction n generalizing a with
  | zero => rfl
  | succ n ih =>
    rw [State.readN, State.readN, show s.byte a = t.byte a from h 0 (by omega), ih]
    intro j hj
    have := h (j + 1) (by omega)
    rwa [show a + 1 + j = a + (j + 1) by omega]

/-- What was written is read back (R4). -/
theorem State.readN_writeN (s : State) (a n v : Nat) (h : v < 256 ^ n) : (s.writeN a n v).readN a n = v := by
  induction n generalizing s a v with
  | zero => simp at h; simp [State.readN, h]
  | succ n ih =>
    have h2 : v / 256 < 256 ^ n := by rw [Nat.pow_succ] at h; omega
    rw [State.writeN, State.readN, ih _ _ _ h2, State.byte_writeN_outside _ _ _ _ _ (by omega)]
    simp
    omega

/-! ### The canonical form -/

theorem State.memWf_setByte {s : State} (a : Nat) (b : Byte) (h : s.memWf) : (s.setByte a b).memWf :=
  ⟨Tbl.sorted_set _ _ _ h.1, Tbl.noDefault_set _ _ _ h.2⟩

theorem State.memWf_writeN {s : State} (a n v : Nat) (h : s.memWf) : (s.writeN a n v).memWf := by
  induction n generalizing s a v with
  | zero => exact h
  | succ n ih => exact ih _ _ (State.memWf_setByte _ _ h)

theorem State.memWf_writeList {s : State} (l : List (Nat × Byte)) (h : s.memWf) : (s.writeList l).memWf := by
  induction l generalizing s with
  | nil => exact h
  | cons p r ih => exact ih (State.memWf_setByte _ _ h)

theorem State.memWf_of_eq {s t : State} (e : t.mem = s.mem) (h : s.memWf) : t.memWf := by
  unfold State.memWf at *
  rwa [e]

theorem State.unmark_foldl_mem (l : List Nat) (s : State) : (l.foldl State.unmark s).mem = s.mem := by
  induction l generalizing s with
  | nil => rfl
  | cons a r ih => exact (ih _).trans rfl

theorem State.memWf_storeList {s : State} (l : List (Nat × Byte)) (h : s.memWf) : (s.storeList l).memWf :=
  State.memWf_of_eq (State.unmark_foldl_mem _ _) (State.memWf_writeList l h)

theorem State.memWf_reset : State.reset.memWf := ⟨rfl, rfl⟩

/-! ### Reads that meet no error -/

theorem foldl_keep {α β : Type} {f : α → β → α} {a : α} (l : List β) (h : ∀ b, f a b = a) : l.foldl f a = a := by
  induction l with
  | nil => rfl
  | cons b r ih => rw [List.foldl_cons, h, ih]
theorem State.reveal_of_unscrubbed {s : State} (as : List Nat) (h : s.scrubbed = []) : s.reveal as = s :=
  foldl_keep _ fun _ => by simp [h]
theorem State.checkGranules_of_sound {s : State} (core : Nat) (slot : Option Nat) (as : List Nat) (h : s.ecc = []) :
    s.checkGranules core slot as = s :=
  foldl_keep _ fun _ => by simp [h]
/-- R448: bytes that nothing has spoilt are consumed without a trace. -/
theorem State.consume_of_sound {s : State} (core : Nat) (slot : Option Nat) (as : List Nat) (hs : s.scrubbed = []) (he : s.ecc = [])
    (hp : as.find? s.poisoned = none) : s.consume core slot as = (s, true) := by
  simp [State.consume, State.reveal_of_unscrubbed as hs, State.checkGranules_of_sound core slot as he, hp]
theorem State.clean_of_sound {s : State} (a n : Nat) (hp : s.poison = []) (he : s.ecc = []) (hs : s.scrubbed = []) : s.clean a n = true := by
  simp [State.clean, State.lostAt, State.poisoned, hp, he, hs]

/-! ### Tables of the package -/

@[simp] theorem State.strand_setStrand (s : State) (k : Nat) (x : Strand) : (s.setStrand k x).strand k = some x :=
  Tbl.find_put_same _ _ _
theorem State.strand_setStrand_ne (s : State) {k j : Nat} (x : Strand) (h : j ≠ k) : (s.setStrand k x).strand j = s.strand j :=
  Tbl.find_put_ne _ _ h
@[simp] theorem State.block_setBlock (s : State) (k : Nat) (x : Block) : (s.setBlock k x).block k = some x :=
  Tbl.find_put_same _ _ _
theorem State.block_setBlock_ne (s : State) {k j : Nat} (x : Block) (h : j ≠ k) : (s.setBlock k x).block j = s.block j :=
  Tbl.find_put_ne _ _ h
@[simp] theorem State.core_setCore (s : State) (k : Nat) (x : Core) : (s.setCore k x).core k = x := Tbl.get_set_same _ _ _ _
theorem State.core_setCore_ne (s : State) {k j : Nat} (x : Core) (h : j ≠ k) : (s.setCore k x).core j = s.core j :=
  Tbl.get_set_ne _ _ _ h
@[simp] theorem State.cluster_setCluster (s : State) (k : Nat) (x : Cluster) : (s.setCluster k x).cluster k = x :=
  Tbl.get_set_same _ _ _ _
theorem State.cluster_setCluster_ne (s : State) {k j : Nat} (x : Cluster) (h : j ≠ k) : (s.setCluster k x).cluster j = s.cluster j :=
  Tbl.get_set_ne _ _ _ h
@[simp] theorem State.block_setStrand (s : State) (k j : Nat) (x : Strand) : (s.setStrand k x).block j = s.block j := rfl
@[simp] theorem State.strand_setBlock (s : State) (k j : Nat) (x : Block) : (s.setBlock k x).strand j = s.strand j := rfl
@[simp] theorem State.byte_setStrand (s : State) (k j : Nat) (x : Strand) : (s.setStrand k x).byte j = s.byte j := rfl
@[simp] theorem State.byte_setBlock (s : State) (k j : Nat) (x : Block) : (s.setBlock k x).byte j = s.byte j := rfl

end Sys2Proof.Machine
end

