-- ==== Sys2Proof/Laws/Registers.lean ====
section
/-!
SUPPORT. The laws of lane values, masks and a strand's registers: what a read gives after a write, and what a write leaves.
-/
namespace Sys2Proof.Machine

/-! ### Lanes and values -/

theorem Lanes.at_gen {α : Type} (d : α) (f : Nat → α) (L : Nat) (h : L < 32) : Lanes.at d (Lanes.gen f) L = f L := by
  simp [Lanes.at, Lanes.gen, h]

theorem Vals.at_gen (f : Nat → Nat) (L : Nat) (h : L < 32) : (Vals.gen f).at L = f L := by
  simp [Vals.at, Vals.gen, h]

theorem Vals.at_map (g : Nat → Nat) (v : Vals) (L : Nat) (h : L < v.length) : Vals.at (v.map g) L = g (v.at L) := by
  simp [Vals.at, h]

@[simp] theorem Vals.length_gen (f : Nat → Nat) : (Vals.gen f).length = 32 := by simp [Vals.gen]
@[simp] theorem Lanes.length_gen {α : Type} (f : Nat → α) : (Lanes.gen f).length = 32 := by simp [Lanes.gen]

theorem Vals.at_ofLanes (v : Lanes Word) (L : Nat) : (Vals.ofLanes v).at L = (Lanes.at 0 v L).toNat := by
  simp only [Vals.at, Vals.ofLanes, Lanes.at, List.getD_eq_getElem?_getD, List.getElem?_map]
  cases v[L]? <;> rfl

/-! ### Masks -/

theorem Mask.getLsbD_foldl (f : Nat → Bool) (l : List Nat) (m : BitVec 32) (L : Nat) (hL : L < 32)
    (hl : ∀ j ∈ l, j < 32) :
    (l.foldl (fun m j => if f j then m ||| (1#32 <<< j) else m) m).getLsbD L = (m.getLsbD L || (l.contains L && f L)) := by
  induction l generalizing m with
  | nil => simp
  | cons a r ih =>
    rw [List.foldl_cons, ih _ (fun j hj => hl j (List.mem_cons_of_mem _ hj))]
    have ha := hl a (List.mem_cons_self ..)
    by_cases e : L = a
    · subst e
      by_cases hf : f L = true <;> simp [hf, hL]
    · have h1 : (1#32 <<< a).getLsbD L = false := by
        rw [BitVec.getLsbD_shiftLeft]
        simp only [hL, decide_true, Bool.true_and, BitVec.getLsbD_one]
        by_cases hlt : L < a
        · simp [hlt]
        · simp; omega
      by_cases hf : f a = true <;> simp [hf, h1, e]

/-- A mask made from a condition holds a lane exactly where the condition does. -/
theorem Mask.has_ofPred (f : Nat → Bool) (L : Nat) (h : L < 32) : Mask.has (Mask.ofPred f) L = f L := by
  have := Mask.getLsbD_foldl f (List.range 32) 0 L h (by intro j hj; simpa using hj)
  rw [Mask.has, Mask.ofPred, this]
  simp [h]

theorem Mask.mem_lanes (m : Mask) (L : Nat) : L ∈ Mask.lanes m ↔ L < 32 ∧ Mask.has m L = true := by
  simp [Mask.lanes]

/-! ### Registers -/

/-- A register that the strand holds (R116): an operand register, or a vector register in one of its granules. -/
def Strand.holds (st : Strand) (c : Nat) : Prop := 192 ≤ c ∨ st.granules.getLsbD (c / 8) = true

theorem Strand.reg_setReg_same (st : Strand) (c : Nat) (m : Mask) (v : Vals) (hc : st.holds c) :
    (st.setReg c m v).reg c =
      Lanes.gen (fun L => if Mask.has m L then BitVec.ofNat 32 (v.at L) else Lanes.at 0 (st.reg c) L) := by
  unfold Strand.setReg
  by_cases h : c < 192
  · have hg : st.granules.getLsbD (c / 8) = true := hc.resolve_left (by omega)
    simp [h, hg, Strand.reg]
  · simp [h, Strand.reg]

theorem Strand.reg_setReg_ne (st : Strand) {c r : Nat} (m : Mask) (v : Vals) (h : r ≠ c) :
    (st.setReg c m v).reg r = st.reg r := by
  unfold Strand.setReg
  by_cases hc : c < 192
  · by_cases hg : st.granules.getLsbD (c / 8) = true
    · by_cases hr : r < 192
      · simp [hc, hg, Strand.reg, hr, Tbl.get_set_ne _ _ _ h]
      · simp [hc, hg, Strand.reg, hr]
    · simp [hc, hg]
  · by_cases hr : r < 192
    · simp [hc, Strand.reg, hr]
    · simp [hc, Strand.reg, hr, Tbl.get_set_ne (d := Lanes.zero) st.o (k := c - 192) (j := r - 192) _ (by omega)]

/-- R116: nothing is kept in a vector register that the strand does not hold. -/
theorem Strand.setReg_unheld (st : Strand) (c : Nat) (m : Mask) (v : Vals) (hc : ¬ st.holds c) : st.setReg c m v = st := by
  unfold Strand.holds at hc
  have h : c < 192 := by omega
  have hg : st.granules.getLsbD (c / 8) = false := by simpa using fun e => hc (.inr e)
  simp [Strand.setReg, h, hg]

/-- Everything of a strand but its v and o registers. -/
def Strand.sameButRegs (a b : Strand) : Prop := { a with v := b.v, o := b.o } = b

theorem Strand.sameButRegs_refl (a : Strand) : a.sameButRegs a := rfl
theorem Strand.sameButRegs_setReg (st : Strand) (c : Nat) (m : Mask) (v : Vals) : (st.setReg c m v).sameButRegs st := by
  unfold Strand.setReg Strand.sameButRegs
  split
  · split <;> rfl
  · rfl

@[simp] theorem Strand.setReg_fragA (st : Strand) (c : Nat) (m : Mask) (v : Vals) : (st.setReg c m v).fragA = st.fragA := by
  have h := Strand.sameButRegs_setReg st c m v; unfold Strand.sameButRegs at h; exact (congrArg Strand.fragA h :)
@[simp] theorem Strand.setReg_fragB (st : Strand) (c : Nat) (m : Mask) (v : Vals) : (st.setReg c m v).fragB = st.fragB := by
  have h := Strand.sameButRegs_setReg st c m v; unfold Strand.sameButRegs at h; exact (congrArg Strand.fragB h :)
@[simp] theorem Strand.setReg_granules (st : Strand) (c : Nat) (m : Mask) (v : Vals) :
    (st.setReg c m v).granules = st.granules := by
  have h := Strand.sameButRegs_setReg st c m v; unfold Strand.sameButRegs at h; exact (congrArg Strand.granules h :)
@[simp] theorem Strand.setReg_p (st : Strand) (c : Nat) (m : Mask) (v : Vals) : (st.setReg c m v).p = st.p := by
  have h := Strand.sameButRegs_setReg st c m v; unfold Strand.sameButRegs at h; exact (congrArg Strand.p h :)
@[simp] theorem Strand.setReg_l0 (st : Strand) (c : Nat) (m : Mask) (v : Vals) : (st.setReg c m v).l0 = st.l0 := by
  have h := Strand.sameButRegs_setReg st c m v; unfold Strand.sameButRegs at h; exact (congrArg Strand.l0 h :)
@[simp] theorem Strand.setReg_l1 (st : Strand) (c : Nat) (m : Mask) (v : Vals) : (st.setReg c m v).l1 = st.l1 := by
  have h := Strand.sameButRegs_setReg st c m v; unfold Strand.sameButRegs at h; exact (congrArg Strand.l1 h :)

theorem Strand.sameButRegs_trans {a b c : Strand} (h : a.sameButRegs b) (h2 : b.sameButRegs c) : a.sameButRegs c := by
  unfold Strand.sameButRegs at *
  rw [← h2, ← h]

theorem Strand.sameButRegs_setRegs (st : Strand) (wide : Bool) (c : Nat) (m : Mask) (v : Vals) :
    (st.setRegs wide c m v).sameButRegs st := by
  unfold Strand.setRegs
  split
  · exact Strand.sameButRegs_trans (Strand.sameButRegs_setReg _ _ _ _) (Strand.sameButRegs_setReg _ _ _ _)
  · exact Strand.sameButRegs_setReg _ _ _ _

/-- Registers beside the one or the pair written. -/
theorem Strand.reg_setRegs_ne (st : Strand) (wide : Bool) {c r : Nat} (m : Mask) (v : Vals) (h : r ≠ c)
    (h2 : wide = true → r ≠ c + 1) : (st.setRegs wide c m v).reg r = st.reg r := by
  unfold Strand.setRegs
  cases wide with
  | false => simp [Strand.reg_setReg_ne _ _ _ h]
  | true => simp [Strand.reg_setReg_ne _ _ _ h, Strand.reg_setReg_ne _ _ _ (h2 rfl)]

/-- The lanes written of a 32-bit destination. -/
theorem Strand.at_setRegs_narrow (st : Strand) (c : Nat) (m : Mask) (v : Vals) (L : Nat) (hc : st.holds c) (hL : L < 32)
    (hv : v.length = 32) :
    (Lanes.at 0 ((st.setRegs false c m v).reg c) L).toNat =
      if Mask.has m L then v.at L % 2 ^ 32 else (Lanes.at 0 (st.reg c) L).toNat := by
  simp only [Strand.setRegs, Bool.false_eq_true, if_false, Strand.reg_setReg_same _ _ _ _ hc, Lanes.at_gen _ _ _ hL]
  split
  · simp [Vals.at_map _ _ _ (by omega : L < v.length)]
  · rfl

/-- The two halves of the lanes written of a pair. -/
theorem Strand.at_setRegs_low (st : Strand) (c : Nat) (m : Mask) (v : Vals) (L : Nat) (hc : st.holds c) (hL : L < 32)
    (hv : v.length = 32) :
    (Lanes.at 0 ((st.setRegs true c m v).reg c) L).toNat =
      if Mask.has m L then v.at L % 2 ^ 32 else (Lanes.at 0 (st.reg c) L).toNat := by
  simp only [Strand.setRegs, if_true]
  rw [Strand.reg_setReg_ne _ _ _ (by omega), Strand.reg_setReg_same _ _ _ _ hc, Lanes.at_gen _ _ _ hL]
  split
  · simp [Vals.at_map _ _ _ (by omega : L < v.length)]
  · rfl

theorem Strand.at_setRegs_high (st : Strand) (c : Nat) (m : Mask) (v : Vals) (L : Nat) (hc : st.holds (c + 1)) (hL : L < 32)
    (hv : v.length = 32) :
    (Lanes.at 0 ((st.setRegs true c m v).reg (c + 1)) L).toNat =
      if Mask.has m L then v.at L / 2 ^ 32 % 2 ^ 32 else (Lanes.at 0 (st.reg (c + 1)) L).toNat := by
  simp only [Strand.setRegs, if_true]
  have h2 : (st.setReg c m (List.map (fun x => x % 2 ^ 32) v)).holds (c + 1) := by
    unfold Strand.holds at *; simpa using hc
  rw [Strand.reg_setReg_same _ _ _ _ h2, Lanes.at_gen _ _ _ hL, Strand.reg_setReg_ne _ _ _ (by omega)]
  split
  · simp [Vals.at_map _ _ _ (by omega : L < v.length)]
  · rfl

/-! ### Latches and predicates -/

@[simp] theorem Strand.setLatch_fragA (st : Strand) (b : Bool) (m : Mask) (v : Vals) : (st.setLatch b m v).fragA = st.fragA := by
  unfold Strand.setLatch; cases b <;> rfl
@[simp] theorem Strand.setLatch_fragB (st : Strand) (b : Bool) (m : Mask) (v : Vals) : (st.setLatch b m v).fragB = st.fragB := by
  unfold Strand.setLatch; cases b <;> rfl
@[simp] theorem Strand.setLatch_reg (st : Strand) (b : Bool) (m : Mask) (v : Vals) (r : Nat) :
    (st.setLatch b m v).reg r = st.reg r := by unfold Strand.setLatch; cases b <;> rfl
@[simp] theorem Strand.setLatch_p (st : Strand) (b : Bool) (m : Mask) (v : Vals) : (st.setLatch b m v).p = st.p := by
  unfold Strand.setLatch; cases b <;> rfl
/-- R118: the latch written. -/
theorem Strand.latch_setLatch (st : Strand) (b : Bool) (m : Mask) (v : Vals) (L : Nat) (hL : L < 32) :
    Lanes.at 0 ((st.setLatch b m v).latch b) L =
      if Mask.has m L then BitVec.ofNat 64 (v.at L) else Lanes.at 0 (st.latch b) L := by
  unfold Strand.setLatch; cases b <;> simp [Strand.latch, Lanes.at_gen _ _ _ hL]
/-- R118: the other latch. -/
theorem Strand.latch_setLatch_other (st : Strand) (b : Bool) (m : Mask) (v : Vals) :
    (st.setLatch b m v).latch (!b) = st.latch (!b) := by
  unfold Strand.setLatch; cases b <;> rfl

/-- R120: p0 reads as all ones. -/
@[simp] theorem Strand.pred_zero (st : Strand) : st.pred 0 = Mask.all := rfl
/-- R120: a write to p0 is discarded. -/
@[simp] theorem Strand.setPred_zero (st : Strand) (m bits : Mask) : st.setPred 0 m bits = st := rfl
theorem Strand.pred_setPred (st : Strand) {n : Nat} (hn : n ≠ 0) (m bits : Mask) :
    (st.setPred n m bits).pred n = (st.pred n &&& ~~~m) ||| (bits &&& m) := by
  simp [Strand.setPred, Strand.pred, hn]
theorem Strand.pred_setPred_ne (st : Strand) {n k : Nat} (h : k ≠ n) (m bits : Mask) :
    (st.setPred n m bits).pred k = st.pred k := by
  unfold Strand.setPred Strand.pred
  split
  · rfl
  · split
    · rfl
    · exact Tbl.get_set_ne _ _ _ h
@[simp] theorem Strand.setPred_fragA (st : Strand) (n : Nat) (m b : Mask) : (st.setPred n m b).fragA = st.fragA := by
  unfold Strand.setPred; split <;> rfl
@[simp] theorem Strand.setPred_fragB (st : Strand) (n : Nat) (m b : Mask) : (st.setPred n m b).fragB = st.fragB := by
  unfold Strand.setPred; split <;> rfl
@[simp] theorem Strand.setPred_reg (st : Strand) (n : Nat) (m b : Mask) (r : Nat) : (st.setPred n m b).reg r = st.reg r := by
  unfold Strand.setPred; split <;> rfl

end Sys2Proof.Machine
end

