-- ==== Sys2Proof/Laws/Words.lean ====
section
/-!
SUPPORT. What the shared operations of strand words do: the context, the end of a word, a register result, and the going into
flight.
-/
namespace Sys2Proof.Machine

/-! ### Fragments -/

@[simp] theorem Strand.frag_setFrag (st : Strand) (b : Bool) (f : Option Frag) : (st.setFrag b f).frag b = f := by
  cases b <;> rfl
theorem Strand.frag_setFrag_other (st : Strand) (b : Bool) (f : Option Frag) : (st.setFrag b f).frag (!b) = st.frag (!b) := by
  cases b <;> rfl
@[simp] theorem Strand.setFrag_reg (st : Strand) (b : Bool) (f : Option Frag) (r : Nat) : (st.setFrag b f).reg r = st.reg r := by
  cases b <;> rfl
@[simp] theorem Strand.setFrag_pred (st : Strand) (b : Bool) (f : Option Frag) (n : Nat) : (st.setFrag b f).pred n = st.pred n := by
  cases b <;> rfl
@[simp] theorem Strand.setFrag_latch (st : Strand) (b x : Bool) (f : Option Frag) : (st.setFrag b f).latch x = st.latch x := by
  cases b <;> rfl

@[simp] theorem Strand.foldWord_frag (st : Strand) (w : Bool) (f : Frag) (x : Word) (b : Bool) : (st.foldWord w f x).frag b = st.frag b := by
  unfold Strand.foldWord; split <;> rfl
@[simp] theorem Strand.foldWord_reg (st : Strand) (w : Bool) (f : Frag) (x : Word) (r : Nat) : (st.foldWord w f x).reg r = st.reg r := by
  unfold Strand.foldWord; split <;> rfl
@[simp] theorem Strand.foldWord_pred (st : Strand) (w : Bool) (f : Frag) (x : Word) (n : Nat) : (st.foldWord w f x).pred n = st.pred n := by
  unfold Strand.foldWord; split <;> rfl
@[simp] theorem Strand.foldWord_latch (st : Strand) (w : Bool) (f : Frag) (x : Word) (b : Bool) : (st.foldWord w f x).latch b = st.latch b := by
  unfold Strand.foldWord; split <;> rfl

@[simp] theorem Strand.frag_setReg (st : Strand) (c : Nat) (m : Mask) (v : Vals) (b : Bool) : (st.setReg c m v).frag b = st.frag b := by
  cases b <;> simp [Strand.frag]
@[simp] theorem Strand.frag_setRegs (st : Strand) (w : Bool) (c : Nat) (m : Mask) (v : Vals) (b : Bool) : (st.setRegs w c m v).frag b = st.frag b := by
  unfold Strand.setRegs; cases w <;> simp
@[simp] theorem Strand.frag_setLatch (st : Strand) (x : Bool) (m : Mask) (v : Vals) (b : Bool) : (st.setLatch x m v).frag b = st.frag b := by
  cases b <;> simp [Strand.frag]
@[simp] theorem Strand.frag_setPred (st : Strand) (n : Nat) (m v : Mask) (b : Bool) : (st.setPred n m v).frag b = st.frag b := by
  cases b <;> simp [Strand.frag]

/-! ### The context of a word -/

/-- What the context of a word is. -/
theorem State.ctx_eq_some {s : State} {i : Instr} {c : Ctx} (h : s.ctx i = some c) :
    s.strand s.cur = some c.st ∧ c.st.frag s.curSlot = some c.f ∧ c.s = s ∧ c.sid = s.cur ∧ c.slot = s.curSlot ∧ c.i = i ∧
      c.act = activeMask c.st c.f (Instr.opcode i) := by
  unfold State.ctx at h
  split at h
  · exact absurd h (by simp)
  · next st hst =>
    split at h
    · exact absurd h (by simp)
    · next f hf =>
      cases h
      exact ⟨hst, hf, rfl, rfl, rfl, rfl, rfl⟩

theorem State.ctx_frag {s : State} {i : Instr} {c : Ctx} (h : s.ctx i = some c) : c.st.frag c.slot = some c.f := by
  obtain ⟨_, hf, _, _, hs, _⟩ := State.ctx_eq_some h
  rw [hs, hf]

/-- R38: a word whose operands are legal does what its meaning says. -/
theorem strandWord_ready {i : Instr} {body : Ctx → State} {s : State} {c : Ctx} (h : s.ctx i = some c)
    (hc : codesOk c.st c.f i = true) (ht : typeOk i c.type = true) : strandWord i body s = .next (body c) := by
  simp [strandWord, h, hc, ht]

/-- R38: a word whose operands are not legal raises ILLEGAL_OPERAND. -/
theorem strandWord_illegal {i : Instr} {body : Ctx → State} {s : State} {c : Ctx} (h : s.ctx i = some c)
    (hb : codesOk c.st c.f i = false ∨ typeOk i c.type = false) :
    strandWord i body s = .next (c.raiseWide .illegalOperand 0) := by
  have : (codesOk c.st c.f i && typeOk i c.type) = false := by rcases hb with hb | hb <;> simp [hb]
  simp only [strandWord, h, this, Bool.false_eq_true, if_false]

/-- Nothing happens where no fragment stands in the slot. -/
theorem strandWord_none {i : Instr} {body : Ctx → State} {s : State} (h : s.ctx i = none) : strandWord i body s = .next s := by
  simp [strandWord, h]

/-- A strand word always ends in a next state. -/
theorem strandWord_next (i : Instr) (body : Ctx → State) (s : State) : ∃ t, strandWord i body s = .next t := ⟨_, rfl⟩

/-! ### The end of a word -/

theorem Ctx.advance_frag (c : Ctx) (st : Strand) (f : Frag) (h : st.frag c.slot = some f) :
    (c.advance st).frag c.slot = some f.next := by
  simp [Ctx.advance, h]
@[simp] theorem Ctx.advance_reg (c : Ctx) (st : Strand) (r : Nat) : (c.advance st).reg r = st.reg r := by
  simp only [Ctx.advance]; split <;> simp
@[simp] theorem Ctx.advance_pred (c : Ctx) (st : Strand) (n : Nat) : (c.advance st).pred n = st.pred n := by
  simp only [Ctx.advance]; split <;> simp
@[simp] theorem Ctx.advance_latch (c : Ctx) (st : Strand) (b : Bool) : (c.advance st).latch b = st.latch b := by
  simp only [Ctx.advance]; split <;> simp
theorem Ctx.advance_frag_other (c : Ctx) (st : Strand) : (c.advance st).frag (!c.slot) = st.frag (!c.slot) := by
  simp only [Ctx.advance]; split <;> simp [Strand.frag_setFrag_other]

/-- A word that ends in its strand alone: the strand. -/
theorem Ctx.done_strand (c : Ctx) (st : Strand) : (c.done st).strand c.sid = some (c.advance st) := by simp [Ctx.done]
/-- A word that ends in its strand alone leaves every other strand as it was. -/
theorem Ctx.done_other (c : Ctx) (st : Strand) {k : Nat} (h : k ≠ c.sid) : (c.done st).strand k = c.s.strand k :=
  State.strand_setStrand_ne _ _ h
/-- A word that ends in its strand alone leaves everything else as it was. -/
theorem Ctx.done_rest (c : Ctx) (st : Strand) : { c.done st with strands := c.s.strands } = c.s := rfl

/-- Everything that a register result does: the register or pair and the latch of the pipe in the active lanes; the rest of
the strand but its fragment and SIG, and the rest of the package, stay as they were. -/
theorem Ctx.result_spec (c : Ctx) (wide : Bool) (d : BitVec 8) (v : Vals) :
    c.result wide d v = c.s.setStrand c.sid (c.advance ((c.st.setRegs wide d.toNat c.act v).setLatch c.pipe c.act v)) := rfl

theorem Ctx.result_reg (c : Ctx) (wide : Bool) (d : BitVec 8) (v : Vals) (r : Nat) :
    ∃ st, (c.result wide d v).strand c.sid = some st ∧ st.reg r = (c.st.setRegs wide d.toNat c.act v).reg r :=
  ⟨_, Ctx.done_strand _ _, by simp⟩

/-! ### Going into flight -/

theorem Ctx.fly_flights (c : Ctx) (s : State) (logged : Bool) (fl : Flight) :
    (c.fly s logged fl).flights = s.flights ++ [fl] := rfl
theorem Ctx.fly_mem (c : Ctx) (s : State) (logged : Bool) (fl : Flight) : (c.fly s logged fl).mem = s.mem := rfl
theorem Ctx.doneIn_flights (c : Ctx) (s : State) : (c.doneIn s).flights = s.flights := by
  unfold Ctx.doneIn; split <;> rfl
theorem Ctx.doneIn_mem (c : Ctx) (s : State) : (c.doneIn s).mem = s.mem := by
  unfold Ctx.doneIn; split <;> rfl
/-- A word goes into flight behind the words in flight. -/
theorem Ctx.launch_flights (c : Ctx) (s : State) (logged : Bool) (fl : Flight) :
    (c.launch s logged fl).flights = s.flights ++ [fl] := by rw [Ctx.launch, Ctx.doneIn_flights, Ctx.fly_flights]
/-- The going into flight touches no byte of HBM4E. -/
theorem Ctx.launch_mem (c : Ctx) (s : State) (logged : Bool) (fl : Flight) : (c.launch s logged fl).mem = s.mem := by
  rw [Ctx.launch, Ctx.doneIn_mem, Ctx.fly_mem]

end Sys2Proof.Machine
end

