-- ==== Sys2Proof/Laws/Elements.lean ====
section
/-!
SUPPORT. The laws of elements: an element of a register built from elements, and of the value of a register or pair after a
register result.
-/
namespace Sys2Proof.Machine

theorem ofElems_succ (w n : Nat) (f : Nat → Nat) : ofElems w (n + 1) f = ofElems w n f + f n % 2 ^ w * 2 ^ (w * n) := by
  simp [ofElems, List.range_succ, List.foldl_append]

theorem ofElems_lt (w n : Nat) (f : Nat → Nat) : ofElems w n f < 2 ^ (w * n) := by
  induction n with
  | zero => simp [ofElems]
  | succ n ih =>
    rw [ofElems_succ]
    have h : f n % 2 ^ w < 2 ^ w := Nat.mod_lt _ (Nat.two_pow_pos w)
    have : f n % 2 ^ w * 2 ^ (w * n) ≤ (2 ^ w - 1) * 2 ^ (w * n) := Nat.mul_le_mul_right _ (by omega)
    have e : 2 ^ (w * (n + 1)) = 2 ^ w * 2 ^ (w * n) := by rw [Nat.mul_succ, Nat.pow_add, Nat.mul_comm]
    rw [Nat.sub_mul, Nat.one_mul] at this
    have h2 : 2 ^ (w * n) ≤ 2 ^ w * 2 ^ (w * n) := Nat.le_mul_of_pos_left _ (Nat.two_pow_pos w)
    omega

/-- Element `i` of a register built from `n` elements. -/
theorem elem_ofElems (w n : Nat) (f : Nat → Nat) (i : Nat) (h : i < n) : elem w (ofElems w n f) i = f i % 2 ^ w := by
  induction n with
  | zero => omega
  | succ n ih =>
    rw [ofElems_succ]
    unfold elem at *
    by_cases e : i = n
    · subst e
      rw [Nat.add_mul_div_right _ _ (Nat.two_pow_pos _), Nat.div_eq_of_lt (ofElems_lt w i f), Nat.zero_add, Nat.mod_mod]
    · have hi : i < n := by omega
      obtain ⟨k, hk⟩ : ∃ k, n = i + 1 + k := ⟨n - (i + 1), by omega⟩
      have e2 : f n % 2 ^ w * 2 ^ (w * n) = f n % 2 ^ w * 2 ^ (w * k) * 2 ^ w * 2 ^ (w * i) := by
        rw [hk, Nat.mul_add, Nat.mul_add, Nat.mul_one, Nat.pow_add, Nat.pow_add]
        simp [Nat.mul_assoc, Nat.mul_comm, Nat.mul_left_comm]
      rw [e2, Nat.add_mul_div_right _ _ (Nat.two_pow_pos _), Nat.add_mul_mod_self_right, ih hi]

theorem halves (x : Nat) : x % 2 ^ 32 + x / 2 ^ 32 % 2 ^ 32 * 2 ^ 32 = x % 2 ^ 64 := by omega

theorem Vals.at_zip (a b : Lanes Word) (k L : Nat) (ha : a.length = 32) (hb : b.length = 32) (hL : L < 32) :
    Vals.at (List.zipWith (fun lo hi => lo + hi * k) (Vals.ofLanes a) (Vals.ofLanes b)) L =
      (Lanes.at 0 a L).toNat + (Lanes.at 0 b L).toNat * k := by
  have h1 : L < a.length := by omega
  have h2 : L < b.length := by omega
  simp only [Vals.at, Vals.ofLanes, Lanes.at, List.getD_eq_getElem?_getD, List.getElem?_zipWith, List.getElem?_map,
    List.getElem?_eq_getElem h1, List.getElem?_eq_getElem h2, Option.map_some, Option.getD_some]

theorem Strand.length_setRegs_low (st : Strand) (wide : Bool) (c : Nat) (m : Mask) (v : Vals) (hc : st.holds c) :
    ((st.setRegs wide c m v).reg c).length = 32 := by
  cases wide with
  | false => simp only [Strand.setRegs, Bool.false_eq_true, if_false]; rw [Strand.reg_setReg_same _ _ _ _ hc, Lanes.length_gen]
  | true =>
    simp only [Strand.setRegs, if_true]
    rw [Strand.reg_setReg_ne _ _ _ (Nat.ne_of_lt (Nat.lt_succ_self c)), Strand.reg_setReg_same _ _ _ _ hc, Lanes.length_gen]

theorem Strand.length_setRegs_high (st : Strand) (c : Nat) (m : Mask) (v : Vals) (hc : st.holds (c + 1)) :
    ((st.setRegs true c m v).reg (c + 1)).length = 32 := by
  have h2 : (st.setReg c m (List.map (fun x => x % 2 ^ 32) v)).holds (c + 1) := by
    unfold Strand.holds at *; simpa using hc
  simp only [Strand.setRegs, if_true]
  rw [Strand.reg_setReg_same _ _ _ _ h2, Lanes.length_gen]

/-- What a 32-bit register holds in a lane after a result was written to it. -/
theorem Strand.at_regs_narrow (st : Strand) (c : Nat) (m : Mask) (v : Vals) (L : Nat) (hc : st.holds c)
    (hL : L < 32) (hv : v.length = 32) (hm : Mask.has m L = true) :
    ((st.setRegs false c m v).regs false c).at L = v.at L % 2 ^ 32 := by
  have h := Strand.at_setRegs_narrow st c m v L hc hL hv
  rw [hm, if_pos rfl] at h
  rw [Strand.regs, if_neg Bool.false_ne_true, Vals.at_ofLanes, h]

/-- What a pair holds in a lane after a result was written to it. -/
theorem Strand.at_regs_wide (st : Strand) (c : Nat) (m : Mask) (v : Vals) (L : Nat) (hc : st.holds c) (hc1 : st.holds (c + 1))
    (hL : L < 32) (hv : v.length = 32) (hm : Mask.has m L = true) :
    ((st.setRegs true c m v).regs true c).at L = v.at L % 2 ^ 64 := by
  have hl := Strand.at_setRegs_low st c m v L hc hL hv
  have hh := Strand.at_setRegs_high st c m v L hc1 hL hv
  rw [hm, if_pos rfl] at hl hh
  rw [Strand.regs, if_pos rfl, Vals.at_zip _ _ _ _ (Strand.length_setRegs_low _ _ _ _ _ hc) (Strand.length_setRegs_high _ _ _ _ hc1) hL,
    hl, hh, halves]

theorem Strand.at_regs (st : Strand) (wide : Bool) (c : Nat) (m : Mask) (v : Vals) (L : Nat)
    (hc : ∀ n, n < (if wide then 2 else 1) → st.holds (c + n)) (hL : L < 32) (hv : v.length = 32) (hm : Mask.has m L = true) :
    ((st.setRegs wide c m v).regs wide c).at L = v.at L % 2 ^ regBits wide := by
  cases wide with
  | false => exact Strand.at_regs_narrow st c m v L (hc 0 Nat.zero_lt_one) hL hv hm
  | true => exact Strand.at_regs_wide st c m v L (hc 0 Nat.zero_lt_two) (hc 1 Nat.one_lt_two) hL hv hm

/-- R17: the destination of a word whose codes are legal is held. -/
theorem codesOk_holds {st : Strand} {f : Frag} {i : Instr} {r : Role} {d : BitVec 8} {n : Nat} (h : codesOk st f i = true)
    (hm : (r, d) ∈ operandsOf i) (hd : d.toNat < 208)
    (hn : n < Role.count (type64 (modeType f.mode)) (modeType f.mode == 6 || modeType f.mode == 7) (packLen f) r) :
    st.holds (d.toNat + n) := by
  simp only [codesOk, Bool.and_eq_true, List.all_eq_true] at h
  have := (h.2 _ hm).2
  simp only [Bool.or_eq_true, decide_eq_true_eq] at this
  rcases this with this | this
  · omega
  · simp only [heldIn, Bool.or_eq_true, decide_eq_true_eq, List.all_eq_true, List.mem_range] at this
    rcases this with this | this
    · left; omega
    · right; exact this n hn

/-- R16: what a destination code may be. -/
theorem codesOk_dst {st : Strand} {f : Frag} {i : Instr} {r : Role} {d : BitVec 8} (h : codesOk st f i = true)
    (hm : (r, d) ∈ operandsOf i) (hr : r = .dst ∨ r = .dst64 ∨ r = .dstT) : d.toNat < 208 := by
  simp only [codesOk, Bool.and_eq_true, List.all_eq_true] at h
  have := (h.2 _ hm).1
  rcases hr with rfl | rfl | rfl <;> simp [codeOk, dstCode] at this
  · exact this
  · exact this.1
  · exact this.1

end Sys2Proof.Machine
end

