-- ==== Sys2Proof/Laws/Frames.lean ====
section
/-!
SUPPORT. What a word leaves alone whose effect is a result in registers: the shared frame of its ends.
-/
namespace Sys2Proof.Machine

/-- `st` differs from the strand of `c` in the `n` registers from code `d`, the latch of the pipe, p15 and the generators at
most. -/
structure Reg (c : Ctx) (st : Strand) (d n : Nat) : Prop where
  reg : ∀ k, (k < d ∨ d + n ≤ k) → st.reg k = c.st.reg k
  pred : ∀ k, k ≠ 15 → st.pred k = c.st.pred k
  latch : st.latch (!c.pipe) = c.st.latch (!c.pipe)
  rest : { st with v := c.st.v, o := c.st.o, l0 := c.st.l0, l1 := c.st.l1, p := c.st.p, sr := c.st.sr } = c.st

theorem Reg.frag {c : Ctx} {st : Strand} {d n : Nat} (h : Reg c st d n) (b : Bool) : st.frag b = c.st.frag b := by
  have := h.rest
  cases b
  · exact (congrArg Strand.fragA this :)
  · exact (congrArg Strand.fragB this :)

theorem Reg.frame {c : Ctx} {s : State} {i : Instr} {st : Strand} {d n : Nat} (hc : s.ctx i = some c) (h : Reg c st d n) :
   s.onlyStrand (c.done st) s.cur ∧ ∃ st', (c.done st).strand s.cur = some st' ∧
      (∀ k, (k < d ∨ d + n ≤ k) → st'.reg k = c.st.reg k) ∧
      (∀ k, k ≠ 15 → st'.pred k = c.st.pred k) ∧
      st'.latch (!c.pipe) = c.st.latch (!c.pipe) ∧
      st'.frag s.curSlot = some c.f.next ∧ st'.frag (!s.curSlot) = c.st.frag (!s.curSlot) ∧
      { st' with fragA := c.st.fragA, fragB := c.st.fragB, v := c.st.v, o := c.st.o, l0 := c.st.l0, l1 := c.st.l1, p := c.st.p, sr := c.st.sr, sig := c.st.sig } = c.st := by
  obtain ⟨h1, h2, rfl, h4, h5, -, -⟩ := State.ctx_eq_some hc
  rw [← h5] at h2
  rw [← h4, ← h5]
  refine ⟨⟨rfl, fun j hj => Ctx.done_other _ _ hj⟩, _, Ctx.done_strand _ _, ?_, ?_, ?_, ?_, ?_, ?_⟩
  · intro k hk; rw [Ctx.advance_reg, h.reg k hk]
  · intro k hk; rw [Ctx.advance_pred, h.pred k hk]
  · rw [Ctx.advance_latch, h.latch]
  · exact Ctx.advance_frag _ _ _ (by rw [h.frag, h2])
  · rw [Ctx.advance_frag_other, h.frag]
  · have hf := h.frag c.slot
    have hr := h.rest
    rw [h2] at hf
    have key : c.advance st = (st.foldWord c.st.whole c.f c.word).setFrag c.slot (some c.f.next) := by simp [Ctx.advance, hf]
    rw [key]
    have hA : c.st.fragA = st.fragA := (h.frag false).symm
    have hB : c.st.fragB = st.fragB := (h.frag true).symm
    have hs : c.st.sig = st.sig := (congrArg Strand.sig hr :).symm
    refine Eq.trans ?_ hr
    rw [hA, hB, hs]
    unfold Strand.foldWord
    cases c.slot <;> by_cases hx : (c.st.whole && modeSig c.f.mode) = true <;> simp [Strand.setFrag, hx]

theorem Reg.ofSame {c : Ctx} {st : Strand} (h : st.sameButRegs c.st) (d n : Nat)
   (hr : ∀ k, (k < d ∨ d + n ≤ k) → st.reg k = c.st.reg k) : Reg c st d n := by
  unfold Strand.sameButRegs at h
  refine ⟨hr, ?_, ?_, ?_⟩
  · intro k _; unfold Strand.pred; rw [show st.p = c.st.p from (congrArg Strand.p h :)]
  · unfold Strand.latch; rw [show st.l0 = c.st.l0 from (congrArg Strand.l0 h :), show st.l1 = c.st.l1 from (congrArg Strand.l1 h :)]
  · rw [← h]

theorem Reg.setLatch {c : Ctx} {st : Strand} {d n : Nat} (h : Reg c st d n) (m v) : Reg c (st.setLatch c.pipe m v) d n := by
  refine ⟨?_, ?_, ?_, ?_⟩
  · intro k hk; rw [Strand.setLatch_reg, h.reg k hk]
  · intro k hk; rw [Strand.pred, Strand.setLatch_p]; exact h.pred k hk
  · rw [Strand.latch_setLatch_other, h.latch]
  · rw [← h.rest]; unfold Strand.setLatch; split <;> rfl
theorem Reg.setSr {c : Ctx} {st : Strand} {d n : Nat} (h : Reg c st d n) (m v) : Reg c (st.setSr m v) d n := 
  ⟨h.reg, h.pred, h.latch, by rw [← h.rest]; rfl⟩
theorem Reg.setP15 {c : Ctx} {st : Strand} {d n : Nat} (h : Reg c st d n) (m v) : Reg c (st.setPred 15 m v) d n := by
  refine ⟨?_, ?_, ?_, ?_⟩
  · intro k hk; rw [Strand.setPred_reg, h.reg k hk]
  · intro k hk; rw [Strand.pred_setPred_ne _ hk, h.pred k hk]
  · exact h.latch
  · rw [← h.rest]; rfl
theorem Reg.setRegs (c : Ctx) (wide : Bool) (d : Nat) (m v) : Reg c (c.st.setRegs wide d m v) d (if wide then 2 else 1) := by
  apply Reg.ofSame (Strand.sameButRegs_setRegs _ _ _ _ _)
  intro k hk
  apply Strand.reg_setRegs_ne
  · split at hk <;> omega
  · intro e; subst e; simp at hk; omega
theorem Reg.pack (c : Ctx) (d n : Nat) (m) (v : Nat → Vals) : Reg c ((List.range n).foldl (fun st j => st.setRegs false (d + j) m (v j)) c.st) d n := by
  induction n with
  | zero => exact ⟨fun _ _ => rfl, fun _ _ => rfl, rfl, rfl⟩
  | succ n ih =>
    rw [List.range_succ, List.foldl_append, List.foldl_cons, List.foldl_nil]
    refine Reg.ofSame ?_ _ _ ?_
    · refine Strand.sameButRegs_trans (Strand.sameButRegs_setRegs _ _ _ _ _) ?_
      have : ∀ l : List Nat, ∀ st : Strand, (l.foldl (fun st j => st.setRegs false (d + j) m (v j)) st).sameButRegs st := by
        intro l
        induction l with
        | nil => intro st; rfl
        | cons a r ih => intro st; exact Strand.sameButRegs_trans (ih _) (Strand.sameButRegs_setRegs _ _ _ _ _)
      exact this _ _
    · intro k hk
      show Strand.reg (Strand.setRegs _ _ _ _ _) k = _
      rw [Strand.reg_setRegs_ne _ _ _ _ (by omega) (by simp), ih.reg k (by omega)]

/-! ### What a lane of the destination holds -/

theorem Ctx.done_laneOf {c : Ctx} {s : State} {i : Instr} (hc : s.ctx i = some c) (st : Strand) (wide : Bool) (d : BitVec 8) (L : Nat) :
    (c.done st).laneOf s.cur wide d L = some ((st.regs wide d.toNat).at L) := by
  obtain ⟨-, -, -, h4, -⟩ := State.ctx_eq_some hc
  rw [← h4, State.laneOf, Ctx.done_strand, Option.map_some]
  unfold Strand.regs
  simp only [Ctx.advance_reg]

/-- A lane of the result of a word with a destination D that follows TYPE. -/
theorem Ctx.result_laneOf {c : Ctx} {s : State} {i : Instr} {d : BitVec 8} {r : Role} {wide : Bool} (hc : s.ctx i = some c)
    (hk : codesOk c.st c.f i = true) (hm : (r, d) ∈ operandsOf i) (hr : r = .dst ∨ r = .dst64 ∨ r = .dstT)
    (hw : c.destCount r = if wide then 2 else 1) (v : Vals) (hv : v.length = 32) (L : Nat) (hL : L < 32) (ha : Mask.has c.act L = true) :
    (c.result wide d v).laneOf s.cur wide d L = some (v.at L % 2 ^ regBits wide) := by
  unfold Ctx.result
  rw [Ctx.done_laneOf hc]
  have hd := codesOk_dst hk hm hr
  have := Strand.at_regs c.st wide d.toNat c.act v L (fun n hn => codesOk_holds hk hm hd (Nat.lt_of_lt_of_eq hn hw.symm)) hL hv ha
  unfold Strand.regs at *
  simp only [Strand.setLatch_reg]
  rw [this]

end Sys2Proof.Machine
end

