-- ==== Sys2Proof/Laws/PerInstr.lean ====
section
/-!
SUPPORT. Decoding and encoding agree: one lemma per constructor.
-/
namespace Sys2Proof.Laws.RoundTrip

set_option Elab.async false

/-- The word of `i` decodes to `i`, a sequencer word in a stream of its own. -/
def Statement (i : Instr) : Prop :=
  ∀ w, i.wf = true → encode i = some w → (if i.isSequencer then decodeSeq w else decode w) = .ok i

theorem fld_of {n hi lo x : Nat} (h : n / 2 ^ lo % 2 ^ (hi - lo + 1) = x) : fld n hi lo = x := h

theorem fld_at {n hi lo : Nat} (q x r : Nat) (h : n = (q * 2 ^ (hi - lo + 1) + x) * 2 ^ lo + r) (hx : x < 2 ^ (hi - lo + 1)) (hr : r < 2 ^ lo) :
    fld n hi lo = x := by
  subst h
  rw [fld, Nat.mul_comm _ (2 ^ lo), Nat.mul_add_div (Nat.two_pow_pos lo), Nat.div_eq_of_lt hr, Nat.add_zero, Nat.mul_comm q, Nat.mul_add_mod,
    Nat.mod_eq_of_lt hx]

theorem ofNat_fld {k : Nat} (b : BitVec k) {m : Nat} (h : m = b.toNat) : BitVec.ofNat k m = b := by
  rw [h]
  simp

theorem word_of {x : Nat} {w : Word} (e : some (BitVec.ofNat 32 x) = some w) (h : x < 2 ^ 32) : w.toNat = x := by
  obtain rfl := Option.some.inj e
  rw [BitVec.toNat_ofNat, Nat.mod_eq_of_lt h]

/-- What the strand decoder does with a word by its opcode. -/
theorem decode_of {w : Word} {n op : Nat} (hw : w.toNat = n) (hop : fld n 31 24 = op) {r : Decoded}
    (h : (if op < 0x20 then decodeOps00 op n
      else if op < 0x40 then decodeOps20 op n
      else if op < 0x60 then decodeOps40 op n
      else if op < 0x80 then decodeOps60 op n
      else if op < 0xA0 then decodeOps80 op n
      else if op < 0xC0 then decodeOpsA0 op n
      else if op < 0xE0 then decodeOpsC0 op n
      else if op < 0xF8 then .bad .illegalWord
      else decodeHeader n) = r) : decode w = r := by
  subst hw hop
  exact h

theorem clauseStart (p0 p1 p2 p3) : Statement (.clauseStart p0 p1 p2 p3) := by
  intro w g e
  have b0 := p0.isLt
  have b1 := p1.isLt
  have b2 := p2.isLt
  have b3 := p3.isLt
  have hw : w.toNat = 0xF8000000 + p0.toNat * 0x800000 + p1.toNat * 0x800 + p2.toNat * 0x80 + p3.toNat * 0x8 := word_of e (by omega)
  obtain ⟨n, hn⟩ : ∃ n, n = 0xF8000000 + p0.toNat * 0x800000 + p1.toNat * 0x800 + p2.toNat * 0x80 + p3.toNat * 0x8 := ⟨_, rfl⟩
  rw [← hn] at hw
  have a0 := ofNat_fld p0 (fld_at (31) (p0.toNat) (p1.toNat * 2048 + p2.toNat * 128 + p3.toNat * 8) (by omega) (by omega) (by omega) : fld n 26 23 = _)
  have a1 := ofNat_fld p1 (fld_at (496 + p0.toNat * 1) (p1.toNat) (p2.toNat * 128 + p3.toNat * 8) (by omega) (by omega) (by omega) : fld n 22 11 = _)
  have a2 := ofNat_fld p2 (fld_at (2031616 + p0.toNat * 4096 + p1.toNat * 1) (p2.toNat) (p3.toNat * 8) (by omega) (by omega) (by omega) : fld n 10 7 = _)
  have a3 := ofNat_fld p3 (fld_at (32505856 + p0.toNat * 65536 + p1.toNat * 16 + p2.toNat * 1) (p3.toNat) (0) (by omega) (by omega) (by omega) : fld n 6 3 = _)
  have z0 : fld n 2 0 = 0 := fld_of (by omega)
  obtain ⟨op, hop⟩ : ∃ op, fld n 31 24 = op := ⟨_, rfl⟩
  have ho : 0xF8 ≤ op := by rw [← hop]; show 0xF8 ≤ n / 2 ^ 24 % 2 ^ 8; omega
  refine decode_of hw hop ?_
  iterate 8 rw [if_neg (show ¬ op < _ by omega)]
  rw [decodeHeader, if_pos z0, a0, a1, a2, a3]

theorem layout0 {n op x0 : Nat} (ho : op < 0x100) (h0 : x0 < 2 ^ 16) (h : n = op * 0x1000000 + x0) :
    n < 2 ^ 32 ∧ fld n 31 24 = op ∧ fld n 15 0 = x0 ∧ fld n 23 16 = 0 := by
  refine ⟨?_, fld_of ?_, fld_of ?_, fld_of ?_⟩ <;> omega

theorem setmode (p0) : Statement (.setmode p0) := by
  intro w g e
  obtain ⟨n, hn⟩ : ∃ n, n = 0x01000000 + p0.toNat := ⟨_, rfl⟩
  obtain ⟨nlt, hop, f0, z0⟩ := layout0 (op := 1) (by decide) p0.isLt hn
  have hw : w.toNat = n := (word_of (x := 0x01000000 + p0.toNat) e (hn ▸ nlt)).trans hn.symm
  refine decode_of (op := 1) hw hop ?_
  show (unusedZero (fld n 23 16 == 0) (.ok (.setmode (.ofNat 16 (fld n 15 0)))) : Decoded) = _
  rw [z0, ofNat_fld p0 f0]
  rfl

theorem setmodeh (p0) : Statement (.setmodeh p0) := by
  intro w g e
  obtain ⟨n, hn⟩ : ∃ n, n = 0x02000000 + p0.toNat := ⟨_, rfl⟩
  obtain ⟨nlt, hop, f0, z0⟩ := layout0 (op := 2) (by decide) p0.isLt hn
  have hw : w.toNat = n := (word_of (x := 0x02000000 + p0.toNat) e (hn ▸ nlt)).trans hn.symm
  refine decode_of (op := 2) hw hop ?_
  show (unusedZero (fld n 23 16 == 0) (.ok (.setmodeh (.ofNat 16 (fld n 15 0)))) : Decoded) = _
  rw [z0, ofNat_fld p0 f0]
  rfl

theorem layout1 {n op x0 : Nat} (ho : op < 0x100) (h0 : x0 < 2 ^ 8) (h : n = op * 0x1000000 + x0 * 0x10000) :
    n < 2 ^ 32 ∧ fld n 31 24 = op ∧ fld n 23 16 = x0 ∧ fld n 15 0 = 0 := by
  refine ⟨?_, fld_of ?_, fld_of ?_, fld_of ?_⟩ <;> omega

theorem getmode (p0) : Statement (.getmode p0) := by
  intro w g e
  obtain ⟨n, hn⟩ : ∃ n, n = 0x03000000 + p0.toNat * 0x10000 := ⟨_, rfl⟩
  obtain ⟨nlt, hop, f0, z0⟩ := layout1 (op := 3) (by decide) p0.isLt hn
  have hw : w.toNat = n := (word_of (x := 0x03000000 + p0.toNat * 0x10000) e (hn ▸ nlt)).trans hn.symm
  refine decode_of (op := 3) hw hop ?_
  show (unusedZero (fld n 15 0 == 0) (.ok (.getmode (.ofNat 8 (fld n 23 16)))) : Decoded) = _
  rw [z0, ofNat_fld p0 f0]
  rfl

theorem rcv (p0) : Statement (.rcv p0) := by
  intro w g e
  obtain ⟨n, hn⟩ : ∃ n, n = 0x04000000 + p0.toNat := ⟨_, rfl⟩
  obtain ⟨nlt, hop, f0, z0⟩ := layout0 (op := 4) (by decide) p0.isLt hn
  have hw : w.toNat = n := (word_of (x := 0x04000000 + p0.toNat) e (hn ▸ nlt)).trans hn.symm
  refine decode_of (op := 4) hw hop ?_
  show (unusedZero (fld n 23 16 == 0) (.ok (.rcv (.ofNat 16 (fld n 15 0)))) : Decoded) = _
  rw [z0, ofNat_fld p0 f0]
  rfl

theorem layout2 {n op x0 x1 : Nat} (ho : op < 0x100) (h0 : x0 < 2 ^ 2) (h1 : x1 < 2 ^ 16) (h : n = op * 0x1000000 + x0 * 0x400000 + x1) :
    n < 2 ^ 32 ∧ fld n 31 24 = op ∧ fld n 23 22 = x0 ∧ fld n 15 0 = x1 ∧ fld n 21 16 = 0 := by
  refine ⟨?_, fld_of ?_, fld_of ?_, fld_of ?_, fld_of ?_⟩ <;> omega

theorem bra (p0 p1) : Statement (.bra p0 p1) := by
  intro w g e
  obtain ⟨n, hn⟩ : ∃ n, n = 0x05000000 + p0.toNat * 0x400000 + p1.toNat := ⟨_, rfl⟩
  obtain ⟨nlt, hop, f0, f1, z0⟩ := layout2 (op := 5) (by decide) p0.isLt p1.isLt hn
  have hw : w.toNat = n := (word_of (x := 0x05000000 + p0.toNat * 0x400000 + p1.toNat) e (hn ▸ nlt)).trans hn.symm
  refine decode_of (op := 5) hw hop ?_
  show (unusedZero (fld n 21 16 == 0) (.ok (.bra (.ofNat 2 (fld n 23 22)) (.ofNat 16 (fld n 15 0)))) : Decoded) = _
  rw [z0, ofNat_fld p0 f0, ofNat_fld p1 f1]
  rfl

theorem layout3 {n op x0 x1 x2 x3 : Nat} (ho : op < 0x100) (h0 : x0 < 2 ^ 2) (h1 : x1 < 2 ^ 4) (h2 : x2 < 2 ^ 1) (h3 : x3 < 2 ^ 16) (h : n = op * 0x1000000 + x0 * 0x400000 + x1 * 0x40000 + x2 * 0x20000 + x3) :
    n < 2 ^ 32 ∧ fld n 31 24 = op ∧ fld n 23 22 = x0 ∧ fld n 21 18 = x1 ∧ fld n 17 17 = x2 ∧ fld n 15 0 = x3 ∧ fld n 16 16 = 0 := by
  refine ⟨?_, fld_of ?_, fld_of ?_, fld_of ?_, fld_of ?_, fld_of ?_, fld_of ?_⟩ <;> omega

theorem brc (p0 p1 p2 p3) : Statement (.brc p0 p1 p2 p3) := by
  intro w g e
  obtain ⟨n, hn⟩ : ∃ n, n = 0x06000000 + p0.toNat * 0x400000 + p1.toNat * 0x40000 + p2.toNat * 0x20000 + p3.toNat := ⟨_, rfl⟩
  obtain ⟨nlt, hop, f0, f1, f2, f3, z0⟩ := layout3 (op := 6) (by decide) p0.isLt p1.isLt p2.isLt p3.isLt hn
  have hw : w.toNat = n := (word_of (x := 0x06000000 + p0.toNat * 0x400000 + p1.toNat * 0x40000 + p2.toNat * 0x20000 + p3.toNat) e (hn ▸ nlt)).trans hn.symm
  refine decode_of (op := 6) hw hop ?_
  show (unusedZero (fld n 16 16 == 0) (.ok (.brc (.ofNat 2 (fld n 23 22)) (.ofNat 4 (fld n 21 18)) (.ofNat 1 (fld n 17 17)) (.ofNat 16 (fld n 15 0)))) : Decoded) = _
  rw [z0, ofNat_fld p0 f0, ofNat_fld p1 f1, ofNat_fld p2 f2, ofNat_fld p3 f3]
  rfl

theorem layout4 {n op x0 x1 : Nat} (ho : op < 0x100) (h0 : x0 < 2 ^ 2) (h1 : x1 < 2 ^ 8) (h : n = op * 0x1000000 + x0 * 0x400000 + x1 * 0x100) :
    n < 2 ^ 32 ∧ fld n 31 24 = op ∧ fld n 23 22 = x0 ∧ fld n 15 8 = x1 ∧ fld n 21 16 = 0 ∧ fld n 7 0 = 0 := by
  refine ⟨?_, fld_of ?_, fld_of ?_, fld_of ?_, fld_of ?_, fld_of ?_⟩ <;> omega

theorem brx (p0 p1) : Statement (.brx p0 p1) := by
  intro w g e
  obtain ⟨n, hn⟩ : ∃ n, n = 0x07000000 + p0.toNat * 0x400000 + p1.toNat * 0x100 := ⟨_, rfl⟩
  obtain ⟨nlt, hop, f0, f1, z0, z1⟩ := layout4 (op := 7) (by decide) p0.isLt p1.isLt hn
  have hw : w.toNat = n := (word_of (x := 0x07000000 + p0.toNat * 0x400000 + p1.toNat * 0x100) e (hn ▸ nlt)).trans hn.symm
  refine decode_of (op := 7) hw hop ?_
  show (unusedZero (fld n 21 16 == 0 && fld n 7 0 == 0) (.ok (.brx (.ofNat 2 (fld n 23 22)) (.ofNat 8 (fld n 15 8)))) : Decoded) = _
  rw [z0, z1, ofNat_fld p0 f0, ofNat_fld p1 f1]
  rfl

theorem layout5 {n op x0 x1 : Nat} (ho : op < 0x100) (h0 : x0 < 2 ^ 8) (h1 : x1 < 2 ^ 16) (h : n = op * 0x1000000 + x0 * 0x10000 + x1) :
    n < 2 ^ 32 ∧ fld n 31 24 = op ∧ fld n 23 16 = x0 ∧ fld n 15 0 = x1 := by
  refine ⟨?_, fld_of ?_, fld_of ?_, fld_of ?_⟩ <;> omega

theorem call (p0 p1) : Statement (.call p0 p1) := by
  intro w g e
  obtain ⟨n, hn⟩ : ∃ n, n = 0x08000000 + p0.toNat * 0x10000 + p1.toNat := ⟨_, rfl⟩
  obtain ⟨nlt, hop, f0, f1⟩ := layout5 (op := 8) (by decide) p0.isLt p1.isLt hn
  have hw : w.toNat = n := (word_of (x := 0x08000000 + p0.toNat * 0x10000 + p1.toNat) e (hn ▸ nlt)).trans hn.symm
  refine decode_of (op := 8) hw hop ?_
  show (.ok (.call (.ofNat 8 (fld n 23 16)) (.ofNat 16 (fld n 15 0))) : Decoded) = _
  rw [ofNat_fld p0 f0, ofNat_fld p1 f1]

theorem layout6 {n op x0 : Nat} (ho : op < 0x100) (h0 : x0 < 2 ^ 8) (h : n = op * 0x1000000 + x0 * 0x100) :
    n < 2 ^ 32 ∧ fld n 31 24 = op ∧ fld n 15 8 = x0 ∧ fld n 23 16 = 0 ∧ fld n 7 0 = 0 := by
  refine ⟨?_, fld_of ?_, fld_of ?_, fld_of ?_, fld_of ?_⟩ <;> omega

theorem ret (p0) : Statement (.ret p0) := by
  intro w g e
  obtain ⟨n, hn⟩ : ∃ n, n = 0x09000000 + p0.toNat * 0x100 := ⟨_, rfl⟩
  obtain ⟨nlt, hop, f0, z0, z1⟩ := layout6 (op := 9) (by decide) p0.isLt hn
  have hw : w.toNat = n := (word_of (x := 0x09000000 + p0.toNat * 0x100) e (hn ▸ nlt)).trans hn.symm
  refine decode_of (op := 9) hw hop ?_
  show (unusedZero (fld n 23 16 == 0 && fld n 7 0 == 0) (.ok (.ret (.ofNat 8 (fld n 15 8)))) : Decoded) = _
  rw [z0, z1, ofNat_fld p0 f0]
  rfl

theorem layout7 {n op : Nat} (ho : op < 0x100) (h : n = op * 0x1000000) :
    n < 2 ^ 32 ∧ fld n 31 24 = op ∧ fld n 23 0 = 0 := by
  refine ⟨?_, fld_of ?_, fld_of ?_⟩ <;> omega

theorem exit : Statement .exit := by
  intro w g e
  obtain ⟨n, hn⟩ : ∃ n, n = 0x0A000000 := ⟨_, rfl⟩
  obtain ⟨nlt, hop, z0⟩ := layout7 (op := 10) (by decide) hn
  have hw : w.toNat = n := (word_of (x := 0x0A000000) e (hn ▸ nlt)).trans hn.symm
  refine decode_of (op := 10) hw hop ?_
  show (unusedZero (fld n 23 0 == 0) (.ok .exit) : Decoded) = _
  rw [z0]
  rfl

theorem yield : Statement .yield := by
  intro w g e
  obtain ⟨n, hn⟩ : ∃ n, n = 0x0B000000 := ⟨_, rfl⟩
  obtain ⟨nlt, hop, z0⟩ := layout7 (op := 11) (by decide) hn
  have hw : w.toNat = n := (word_of (x := 0x0B000000) e (hn ▸ nlt)).trans hn.symm
  refine decode_of (op := 11) hw hop ?_
  show (unusedZero (fld n 23 0 == 0) (.ok .yield) : Decoded) = _
  rw [z0]
  rfl

theorem nop : Statement .nop := by
  intro w g e
  obtain ⟨n, hn⟩ : ∃ n, n = 0x0F000000 := ⟨_, rfl⟩
  obtain ⟨nlt, hop, z0⟩ := layout7 (op := 15) (by decide) hn
  have hw : w.toNat = n := (word_of (x := 0x0F000000) e (hn ▸ nlt)).trans hn.symm
  refine decode_of (op := 15) hw hop ?_
  show (unusedZero (fld n 23 0 == 0) (.ok .nop) : Decoded) = _
  rw [z0]
  rfl

theorem layout8 {n op x0 x1 : Nat} (ho : op < 0x100) (h0 : x0 < 2 ^ 8) (h1 : x1 < 2 ^ 8) (h : n = op * 0x1000000 + x0 * 0x10000 + x1 * 0x100) :
    n < 2 ^ 32 ∧ fld n 31 24 = op ∧ fld n 23 16 = x0 ∧ fld n 15 8 = x1 ∧ fld n 7 0 = 0 := by
  refine ⟨?_, fld_of ?_, fld_of ?_, fld_of ?_, fld_of ?_⟩ <;> omega

theorem mov (p0 p1) : Statement (.mov p0 p1) := by
  intro w g e
  obtain ⟨n, hn⟩ : ∃ n, n = 0x10000000 + p0.toNat * 0x10000 + p1.toNat * 0x100 := ⟨_, rfl⟩
  obtain ⟨nlt, hop, f0, f1, z0⟩ := layout8 (op := 16) (by decide) p0.isLt p1.isLt hn
  have hw : w.toNat = n := (word_of (x := 0x10000000 + p0.toNat * 0x10000 + p1.toNat * 0x100) e (hn ▸ nlt)).trans hn.symm
  refine decode_of (op := 16) hw hop ?_
  show (unusedZero (fld n 7 0 == 0) (.ok (.mov (.ofNat 8 (fld n 23 16)) (.ofNat 8 (fld n 15 8)))) : Decoded) = _
  rw [z0, ofNat_fld p0 f0, ofNat_fld p1 f1]
  rfl

theorem lil (p0 p1) : Statement (.lil p0 p1) := by
  intro w g e
  obtain ⟨n, hn⟩ : ∃ n, n = 0x11000000 + p0.toNat * 0x10000 + p1.toNat := ⟨_, rfl⟩
  obtain ⟨nlt, hop, f0, f1⟩ := layout5 (op := 17) (by decide) p0.isLt p1.isLt hn
  have hw : w.toNat = n := (word_of (x := 0x11000000 + p0.toNat * 0x10000 + p1.toNat) e (hn ▸ nlt)).trans hn.symm
  refine decode_of (op := 17) hw hop ?_
  show (.ok (.lil (.ofNat 8 (fld n 23 16)) (.ofNat 16 (fld n 15 0))) : Decoded) = _
  rw [ofNat_fld p0 f0, ofNat_fld p1 f1]

theorem lih (p0 p1) : Statement (.lih p0 p1) := by
  intro w g e
  obtain ⟨n, hn⟩ : ∃ n, n = 0x12000000 + p0.toNat * 0x10000 + p1.toNat := ⟨_, rfl⟩
  obtain ⟨nlt, hop, f0, f1⟩ := layout5 (op := 18) (by decide) p0.isLt p1.isLt hn
  have hw : w.toNat = n := (word_of (x := 0x12000000 + p0.toNat * 0x10000 + p1.toNat) e (hn ▸ nlt)).trans hn.symm
  refine decode_of (op := 18) hw hop ?_
  show (.ok (.lih (.ofNat 8 (fld n 23 16)) (.ofNat 16 (fld n 15 0))) : Decoded) = _
  rw [ofNat_fld p0 f0, ofNat_fld p1 f1]

theorem layout9 {n op x0 x1 x2 : Nat} (ho : op < 0x100) (h0 : x0 < 2 ^ 8) (h1 : x1 < 2 ^ 8) (h2 : x2 < 2 ^ 8) (h : n = op * 0x1000000 + x0 * 0x10000 + x1 * 0x100 + x2) :
    n < 2 ^ 32 ∧ fld n 31 24 = op ∧ fld n 23 16 = x0 ∧ fld n 15 8 = x1 ∧ fld n 7 0 = x2 := by
  refine ⟨?_, fld_of ?_, fld_of ?_, fld_of ?_, fld_of ?_⟩ <;> omega

theorem sel (p0 p1 p2) : Statement (.sel p0 p1 p2) := by
  intro w g e
  obtain ⟨n, hn⟩ : ∃ n, n = 0x13000000 + p0.toNat * 0x10000 + p1.toNat * 0x100 + p2.toNat := ⟨_, rfl⟩
  obtain ⟨nlt, hop, f0, f1, f2⟩ := layout9 (op := 19) (by decide) p0.isLt p1.isLt p2.isLt hn
  have hw : w.toNat = n := (word_of (x := 0x13000000 + p0.toNat * 0x10000 + p1.toNat * 0x100 + p2.toNat) e (hn ▸ nlt)).trans hn.symm
  refine decode_of (op := 19) hw hop ?_
  show (.ok (.sel (.ofNat 8 (fld n 23 16)) (.ofNat 8 (fld n 15 8)) (.ofNat 8 (fld n 7 0))) : Decoded) = _
  rw [ofNat_fld p0 f0, ofNat_fld p1 f1, ofNat_fld p2 f2]

theorem add (p0 p1 p2) : Statement (.add p0 p1 p2) := by
  intro w g e
  obtain ⟨n, hn⟩ : ∃ n, n = 0x14000000 + p0.toNat * 0x10000 + p1.toNat * 0x100 + p2.toNat := ⟨_, rfl⟩
  obtain ⟨nlt, hop, f0, f1, f2⟩ := layout9 (op := 20) (by decide) p0.isLt p1.isLt p2.isLt hn
  have hw : w.toNat = n := (word_of (x := 0x14000000 + p0.toNat * 0x10000 + p1.toNat * 0x100 + p2.toNat) e (hn ▸ nlt)).trans hn.symm
  refine decode_of (op := 20) hw hop ?_
  show (.ok (.add (.ofNat 8 (fld n 23 16)) (.ofNat 8 (fld n 15 8)) (.ofNat 8 (fld n 7 0))) : Decoded) = _
  rw [ofNat_fld p0 f0, ofNat_fld p1 f1, ofNat_fld p2 f2]

theorem addc (p0 p1 p2) : Statement (.addc p0 p1 p2) := by
  intro w g e
  obtain ⟨n, hn⟩ : ∃ n, n = 0x15000000 + p0.toNat * 0x10000 + p1.toNat * 0x100 + p2.toNat := ⟨_, rfl⟩
  obtain ⟨nlt, hop, f0, f1, f2⟩ := layout9 (op := 21) (by decide) p0.isLt p1.isLt p2.isLt hn
  have hw : w.toNat = n := (word_of (x := 0x15000000 + p0.toNat * 0x10000 + p1.toNat * 0x100 + p2.toNat) e (hn ▸ nlt)).trans hn.symm
  refine decode_of (op := 21) hw hop ?_
  show (.ok (.addc (.ofNat 8 (fld n 23 16)) (.ofNat 8 (fld n 15 8)) (.ofNat 8 (fld n 7 0))) : Decoded) = _
  rw [ofNat_fld p0 f0, ofNat_fld p1 f1, ofNat_fld p2 f2]

theorem sub (p0 p1 p2) : Statement (.sub p0 p1 p2) := by
  intro w g e
  obtain ⟨n, hn⟩ : ∃ n, n = 0x16000000 + p0.toNat * 0x10000 + p1.toNat * 0x100 + p2.toNat := ⟨_, rfl⟩
  obtain ⟨nlt, hop, f0, f1, f2⟩ := layout9 (op := 22) (by decide) p0.isLt p1.isLt p2.isLt hn
  have hw : w.toNat = n := (word_of (x := 0x16000000 + p0.toNat * 0x10000 + p1.toNat * 0x100 + p2.toNat) e (hn ▸ nlt)).trans hn.symm
  refine decode_of (op := 22) hw hop ?_
  show (.ok (.sub (.ofNat 8 (fld n 23 16)) (.ofNat 8 (fld n 15 8)) (.ofNat 8 (fld n 7 0))) : Decoded) = _
  rw [ofNat_fld p0 f0, ofNat_fld p1 f1, ofNat_fld p2 f2]

theorem subb (p0 p1 p2) : Statement (.subb p0 p1 p2) := by
  intro w g e
  obtain ⟨n, hn⟩ : ∃ n, n = 0x17000000 + p0.toNat * 0x10000 + p1.toNat * 0x100 + p2.toNat := ⟨_, rfl⟩
  obtain ⟨nlt, hop, f0, f1, f2⟩ := layout9 (op := 23) (by decide) p0.isLt p1.isLt p2.isLt hn
  have hw : w.toNat = n := (word_of (x := 0x17000000 + p0.toNat * 0x10000 + p1.toNat * 0x100 + p2.toNat) e (hn ▸ nlt)).trans hn.symm
  refine decode_of (op := 23) hw hop ?_
  show (.ok (.subb (.ofNat 8 (fld n 23 16)) (.ofNat 8 (fld n 15 8)) (.ofNat 8 (fld n 7 0))) : Decoded) = _
  rw [ofNat_fld p0 f0, ofNat_fld p1 f1, ofNat_fld p2 f2]

theorem mul (p0 p1 p2) : Statement (.mul p0 p1 p2) := by
  intro w g e
  obtain ⟨n, hn⟩ : ∃ n, n = 0x18000000 + p0.toNat * 0x10000 + p1.toNat * 0x100 + p2.toNat := ⟨_, rfl⟩
  obtain ⟨nlt, hop, f0, f1, f2⟩ := layout9 (op := 24) (by decide) p0.isLt p1.isLt p2.isLt hn
  have hw : w.toNat = n := (word_of (x := 0x18000000 + p0.toNat * 0x10000 + p1.toNat * 0x100 + p2.toNat) e (hn ▸ nlt)).trans hn.symm
  refine decode_of (op := 24) hw hop ?_
  show (.ok (.mul (.ofNat 8 (fld n 23 16)) (.ofNat 8 (fld n 15 8)) (.ofNat 8 (fld n 7 0))) : Decoded) = _
  rw [ofNat_fld p0 f0, ofNat_fld p1 f1, ofNat_fld p2 f2]

theorem mulh (p0 p1 p2) : Statement (.mulh p0 p1 p2) := by
  intro w g e
  obtain ⟨n, hn⟩ : ∃ n, n = 0x19000000 + p0.toNat * 0x10000 + p1.toNat * 0x100 + p2.toNat := ⟨_, rfl⟩
  obtain ⟨nlt, hop, f0, f1, f2⟩ := layout9 (op := 25) (by decide) p0.isLt p1.isLt p2.isLt hn
  have hw : w.toNat = n := (word_of (x := 0x19000000 + p0.toNat * 0x10000 + p1.toNat * 0x100 + p2.toNat) e (hn ▸ nlt)).trans hn.symm
  refine decode_of (op := 25) hw hop ?_
  show (.ok (.mulh (.ofNat 8 (fld n 23 16)) (.ofNat 8 (fld n 15 8)) (.ofNat 8 (fld n 7 0))) : Decoded) = _
  rw [ofNat_fld p0 f0, ofNat_fld p1 f1, ofNat_fld p2 f2]

theorem mad (p0 p1 p2) : Statement (.mad p0 p1 p2) := by
  intro w g e
  obtain ⟨n, hn⟩ : ∃ n, n = 0x1A000000 + p0.toNat * 0x10000 + p1.toNat * 0x100 + p2.toNat := ⟨_, rfl⟩
  obtain ⟨nlt, hop, f0, f1, f2⟩ := layout9 (op := 26) (by decide) p0.isLt p1.isLt p2.isLt hn
  have hw : w.toNat = n := (word_of (x := 0x1A000000 + p0.toNat * 0x10000 + p1.toNat * 0x100 + p2.toNat) e (hn ▸ nlt)).trans hn.symm
  refine decode_of (op := 26) hw hop ?_
  show (.ok (.mad (.ofNat 8 (fld n 23 16)) (.ofNat 8 (fld n 15 8)) (.ofNat 8 (fld n 7 0))) : Decoded) = _
  rw [ofNat_fld p0 f0, ofNat_fld p1 f1, ofNat_fld p2 f2]

theorem abs (p0 p1) : Statement (.abs p0 p1) := by
  intro w g e
  obtain ⟨n, hn⟩ : ∃ n, n = 0x1B000000 + p0.toNat * 0x10000 + p1.toNat * 0x100 := ⟨_, rfl⟩
  obtain ⟨nlt, hop, f0, f1, z0⟩ := layout8 (op := 27) (by decide) p0.isLt p1.isLt hn
  have hw : w.toNat = n := (word_of (x := 0x1B000000 + p0.toNat * 0x10000 + p1.toNat * 0x100) e (hn ▸ nlt)).trans hn.symm
  refine decode_of (op := 27) hw hop ?_
  show (unusedZero (fld n 7 0 == 0) (.ok (.abs (.ofNat 8 (fld n 23 16)) (.ofNat 8 (fld n 15 8)))) : Decoded) = _
  rw [z0, ofNat_fld p0 f0, ofNat_fld p1 f1]
  rfl

theorem neg (p0 p1) : Statement (.neg p0 p1) := by
  intro w g e
  obtain ⟨n, hn⟩ : ∃ n, n = 0x1C000000 + p0.toNat * 0x10000 + p1.toNat * 0x100 := ⟨_, rfl⟩
  obtain ⟨nlt, hop, f0, f1, z0⟩ := layout8 (op := 28) (by decide) p0.isLt p1.isLt hn
  have hw : w.toNat = n := (word_of (x := 0x1C000000 + p0.toNat * 0x10000 + p1.toNat * 0x100) e (hn ▸ nlt)).trans hn.symm
  refine decode_of (op := 28) hw hop ?_
  show (unusedZero (fld n 7 0 == 0) (.ok (.neg (.ofNat 8 (fld n 23 16)) (.ofNat 8 (fld n 15 8)))) : Decoded) = _
  rw [z0, ofNat_fld p0 f0, ofNat_fld p1 f1]
  rfl

theorem min (p0 p1 p2) : Statement (.min p0 p1 p2) := by
  intro w g e
  obtain ⟨n, hn⟩ : ∃ n, n = 0x1D000000 + p0.toNat * 0x10000 + p1.toNat * 0x100 + p2.toNat := ⟨_, rfl⟩
  obtain ⟨nlt, hop, f0, f1, f2⟩ := layout9 (op := 29) (by decide) p0.isLt p1.isLt p2.isLt hn
  have hw : w.toNat = n := (word_of (x := 0x1D000000 + p0.toNat * 0x10000 + p1.toNat * 0x100 + p2.toNat) e (hn ▸ nlt)).trans hn.symm
  refine decode_of (op := 29) hw hop ?_
  show (.ok (.min (.ofNat 8 (fld n 23 16)) (.ofNat 8 (fld n 15 8)) (.ofNat 8 (fld n 7 0))) : Decoded) = _
  rw [ofNat_fld p0 f0, ofNat_fld p1 f1, ofNat_fld p2 f2]

theorem max (p0 p1 p2) : Statement (.max p0 p1 p2) := by
  intro w g e
  obtain ⟨n, hn⟩ : ∃ n, n = 0x1E000000 + p0.toNat * 0x10000 + p1.toNat * 0x100 + p2.toNat := ⟨_, rfl⟩
  obtain ⟨nlt, hop, f0, f1, f2⟩ := layout9 (op := 30) (by decide) p0.isLt p1.isLt p2.isLt hn
  have hw : w.toNat = n := (word_of (x := 0x1E000000 + p0.toNat * 0x10000 + p1.toNat * 0x100 + p2.toNat) e (hn ▸ nlt)).trans hn.symm
  refine decode_of (op := 30) hw hop ?_
  show (.ok (.max (.ofNat 8 (fld n 23 16)) (.ofNat 8 (fld n 15 8)) (.ofNat 8 (fld n 7 0))) : Decoded) = _
  rw [ofNat_fld p0 f0, ofNat_fld p1 f1, ofNat_fld p2 f2]

theorem lea (p0 p1 p2) : Statement (.lea p0 p1 p2) := by
  intro w g e
  obtain ⟨n, hn⟩ : ∃ n, n = 0x1F000000 + p0.toNat * 0x10000 + p1.toNat * 0x100 + p2.toNat := ⟨_, rfl⟩
  obtain ⟨nlt, hop, f0, f1, f2⟩ := layout9 (op := 31) (by decide) p0.isLt p1.isLt p2.isLt hn
  have hw : w.toNat = n := (word_of (x := 0x1F000000 + p0.toNat * 0x10000 + p1.toNat * 0x100 + p2.toNat) e (hn ▸ nlt)).trans hn.symm
  refine decode_of (op := 31) hw hop ?_
  show (.ok (.lea (.ofNat 8 (fld n 23 16)) (.ofNat 8 (fld n 15 8)) (.ofNat 8 (fld n 7 0))) : Decoded) = _
  rw [ofNat_fld p0 f0, ofNat_fld p1 f1, ofNat_fld p2 f2]

theorem and (p0 p1 p2) : Statement (.and p0 p1 p2) := by
  intro w g e
  obtain ⟨n, hn⟩ : ∃ n, n = 0x20000000 + p0.toNat * 0x10000 + p1.toNat * 0x100 + p2.toNat := ⟨_, rfl⟩
  obtain ⟨nlt, hop, f0, f1, f2⟩ := layout9 (op := 32) (by decide) p0.isLt p1.isLt p2.isLt hn
  have hw : w.toNat = n := (word_of (x := 0x20000000 + p0.toNat * 0x10000 + p1.toNat * 0x100 + p2.toNat) e (hn ▸ nlt)).trans hn.symm
  refine decode_of (op := 32) hw hop ?_
  show (.ok (.and (.ofNat 8 (fld n 23 16)) (.ofNat 8 (fld n 15 8)) (.ofNat 8 (fld n 7 0))) : Decoded) = _
  rw [ofNat_fld p0 f0, ofNat_fld p1 f1, ofNat_fld p2 f2]

theorem or (p0 p1 p2) : Statement (.or p0 p1 p2) := by
  intro w g e
  obtain ⟨n, hn⟩ : ∃ n, n = 0x21000000 + p0.toNat * 0x10000 + p1.toNat * 0x100 + p2.toNat := ⟨_, rfl⟩
  obtain ⟨nlt, hop, f0, f1, f2⟩ := layout9 (op := 33) (by decide) p0.isLt p1.isLt p2.isLt hn
  have hw : w.toNat = n := (word_of (x := 0x21000000 + p0.toNat * 0x10000 + p1.toNat * 0x100 + p2.toNat) e (hn ▸ nlt)).trans hn.symm
  refine decode_of (op := 33) hw hop ?_
  show (.ok (.or (.ofNat 8 (fld n 23 16)) (.ofNat 8 (fld n 15 8)) (.ofNat 8 (fld n 7 0))) : Decoded) = _
  rw [ofNat_fld p0 f0, ofNat_fld p1 f1, ofNat_fld p2 f2]

theorem xor (p0 p1 p2) : Statement (.xor p0 p1 p2) := by
  intro w g e
  obtain ⟨n, hn⟩ : ∃ n, n = 0x22000000 + p0.toNat * 0x10000 + p1.toNat * 0x100 + p2.toNat := ⟨_, rfl⟩
  obtain ⟨nlt, hop, f0, f1, f2⟩ := layout9 (op := 34) (by decide) p0.isLt p1.isLt p2.isLt hn
  have hw : w.toNat = n := (word_of (x := 0x22000000 + p0.toNat * 0x10000 + p1.toNat * 0x100 + p2.toNat) e (hn ▸ nlt)).trans hn.symm
  refine decode_of (op := 34) hw hop ?_
  show (.ok (.xor (.ofNat 8 (fld n 23 16)) (.ofNat 8 (fld n 15 8)) (.ofNat 8 (fld n 7 0))) : Decoded) = _
  rw [ofNat_fld p0 f0, ofNat_fld p1 f1, ofNat_fld p2 f2]

theorem andn (p0 p1 p2) : Statement (.andn p0 p1 p2) := by
  intro w g e
  obtain ⟨n, hn⟩ : ∃ n, n = 0x23000000 + p0.toNat * 0x10000 + p1.toNat * 0x100 + p2.toNat := ⟨_, rfl⟩
  obtain ⟨nlt, hop, f0, f1, f2⟩ := layout9 (op := 35) (by decide) p0.isLt p1.isLt p2.isLt hn
  have hw : w.toNat = n := (word_of (x := 0x23000000 + p0.toNat * 0x10000 + p1.toNat * 0x100 + p2.toNat) e (hn ▸ nlt)).trans hn.symm
  refine decode_of (op := 35) hw hop ?_
  show (.ok (.andn (.ofNat 8 (fld n 23 16)) (.ofNat 8 (fld n 15 8)) (.ofNat 8 (fld n 7 0))) : Decoded) = _
  rw [ofNat_fld p0 f0, ofNat_fld p1 f1, ofNat_fld p2 f2]

theorem not (p0 p1) : Statement (.not p0 p1) := by
  intro w g e
  obtain ⟨n, hn⟩ : ∃ n, n = 0x24000000 + p0.toNat * 0x10000 + p1.toNat * 0x100 := ⟨_, rfl⟩
  obtain ⟨nlt, hop, f0, f1, z0⟩ := layout8 (op := 36) (by decide) p0.isLt p1.isLt hn
  have hw : w.toNat = n := (word_of (x := 0x24000000 + p0.toNat * 0x10000 + p1.toNat * 0x100) e (hn ▸ nlt)).trans hn.symm
  refine decode_of (op := 36) hw hop ?_
  show (unusedZero (fld n 7 0 == 0) (.ok (.not (.ofNat 8 (fld n 23 16)) (.ofNat 8 (fld n 15 8)))) : Decoded) = _
  rw [z0, ofNat_fld p0 f0, ofNat_fld p1 f1]
  rfl

theorem shl (p0 p1 p2) : Statement (.shl p0 p1 p2) := by
  intro w g e
  obtain ⟨n, hn⟩ : ∃ n, n = 0x25000000 + p0.toNat * 0x10000 + p1.toNat * 0x100 + p2.toNat := ⟨_, rfl⟩
  obtain ⟨nlt, hop, f0, f1, f2⟩ := layout9 (op := 37) (by decide) p0.isLt p1.isLt p2.isLt hn
  have hw : w.toNat = n := (word_of (x := 0x25000000 + p0.toNat * 0x10000 + p1.toNat * 0x100 + p2.toNat) e (hn ▸ nlt)).trans hn.symm
  refine decode_of (op := 37) hw hop ?_
  show (.ok (.shl (.ofNat 8 (fld n 23 16)) (.ofNat 8 (fld n 15 8)) (.ofNat 8 (fld n 7 0))) : Decoded) = _
  rw [ofNat_fld p0 f0, ofNat_fld p1 f1, ofNat_fld p2 f2]

theorem shr (p0 p1 p2) : Statement (.shr p0 p1 p2) := by
  intro w g e
  obtain ⟨n, hn⟩ : ∃ n, n = 0x26000000 + p0.toNat * 0x10000 + p1.toNat * 0x100 + p2.toNat := ⟨_, rfl⟩
  obtain ⟨nlt, hop, f0, f1, f2⟩ := layout9 (op := 38) (by decide) p0.isLt p1.isLt p2.isLt hn
  have hw : w.toNat = n := (word_of (x := 0x26000000 + p0.toNat * 0x10000 + p1.toNat * 0x100 + p2.toNat) e (hn ▸ nlt)).trans hn.symm
  refine decode_of (op := 38) hw hop ?_
  show (.ok (.shr (.ofNat 8 (fld n 23 16)) (.ofNat 8 (fld n 15 8)) (.ofNat 8 (fld n 7 0))) : Decoded) = _
  rw [ofNat_fld p0 f0, ofNat_fld p1 f1, ofNat_fld p2 f2]

theorem sar (p0 p1 p2) : Statement (.sar p0 p1 p2) := by
  intro w g e
  obtain ⟨n, hn⟩ : ∃ n, n = 0x27000000 + p0.toNat * 0x10000 + p1.toNat * 0x100 + p2.toNat := ⟨_, rfl⟩
  obtain ⟨nlt, hop, f0, f1, f2⟩ := layout9 (op := 39) (by decide) p0.isLt p1.isLt p2.isLt hn
  have hw : w.toNat = n := (word_of (x := 0x27000000 + p0.toNat * 0x10000 + p1.toNat * 0x100 + p2.toNat) e (hn ▸ nlt)).trans hn.symm
  refine decode_of (op := 39) hw hop ?_
  show (.ok (.sar (.ofNat 8 (fld n 23 16)) (.ofNat 8 (fld n 15 8)) (.ofNat 8 (fld n 7 0))) : Decoded) = _
  rw [ofNat_fld p0 f0, ofNat_fld p1 f1, ofNat_fld p2 f2]

theorem rotl (p0 p1 p2) : Statement (.rotl p0 p1 p2) := by
  intro w g e
  obtain ⟨n, hn⟩ : ∃ n, n = 0x28000000 + p0.toNat * 0x10000 + p1.toNat * 0x100 + p2.toNat := ⟨_, rfl⟩
  obtain ⟨nlt, hop, f0, f1, f2⟩ := layout9 (op := 40) (by decide) p0.isLt p1.isLt p2.isLt hn
  have hw : w.toNat = n := (word_of (x := 0x28000000 + p0.toNat * 0x10000 + p1.toNat * 0x100 + p2.toNat) e (hn ▸ nlt)).trans hn.symm
  refine decode_of (op := 40) hw hop ?_
  show (.ok (.rotl (.ofNat 8 (fld n 23 16)) (.ofNat 8 (fld n 15 8)) (.ofNat 8 (fld n 7 0))) : Decoded) = _
  rw [ofNat_fld p0 f0, ofNat_fld p1 f1, ofNat_fld p2 f2]

theorem bfx (p0 p1 p2) : Statement (.bfx p0 p1 p2) := by
  intro w g e
  obtain ⟨n, hn⟩ : ∃ n, n = 0x29000000 + p0.toNat * 0x10000 + p1.toNat * 0x100 + p2.toNat := ⟨_, rfl⟩
  obtain ⟨nlt, hop, f0, f1, f2⟩ := layout9 (op := 41) (by decide) p0.isLt p1.isLt p2.isLt hn
  have hw : w.toNat = n := (word_of (x := 0x29000000 + p0.toNat * 0x10000 + p1.toNat * 0x100 + p2.toNat) e (hn ▸ nlt)).trans hn.symm
  refine decode_of (op := 41) hw hop ?_
  show (.ok (.bfx (.ofNat 8 (fld n 23 16)) (.ofNat 8 (fld n 15 8)) (.ofNat 8 (fld n 7 0))) : Decoded) = _
  rw [ofNat_fld p0 f0, ofNat_fld p1 f1, ofNat_fld p2 f2]

theorem bfi (p0 p1 p2) : Statement (.bfi p0 p1 p2) := by
  intro w g e
  obtain ⟨n, hn⟩ : ∃ n, n = 0x2A000000 + p0.toNat * 0x10000 + p1.toNat * 0x100 + p2.toNat := ⟨_, rfl⟩
  obtain ⟨nlt, hop, f0, f1, f2⟩ := layout9 (op := 42) (by decide) p0.isLt p1.isLt p2.isLt hn
  have hw : w.toNat = n := (word_of (x := 0x2A000000 + p0.toNat * 0x10000 + p1.toNat * 0x100 + p2.toNat) e (hn ▸ nlt)).trans hn.symm
  refine decode_of (op := 42) hw hop ?_
  show (.ok (.bfi (.ofNat 8 (fld n 23 16)) (.ofNat 8 (fld n 15 8)) (.ofNat 8 (fld n 7 0))) : Decoded) = _
  rw [ofNat_fld p0 f0, ofNat_fld p1 f1, ofNat_fld p2 f2]

theorem clz (p0 p1) : Statement (.clz p0 p1) := by
  intro w g e
  obtain ⟨n, hn⟩ : ∃ n, n = 0x2B000000 + p0.toNat * 0x10000 + p1.toNat * 0x100 := ⟨_, rfl⟩
  obtain ⟨nlt, hop, f0, f1, z0⟩ := layout8 (op := 43) (by decide) p0.isLt p1.isLt hn
  have hw : w.toNat = n := (word_of (x := 0x2B000000 + p0.toNat * 0x10000 + p1.toNat * 0x100) e (hn ▸ nlt)).trans hn.symm
  refine decode_of (op := 43) hw hop ?_
  show (unusedZero (fld n 7 0 == 0) (.ok (.clz (.ofNat 8 (fld n 23 16)) (.ofNat 8 (fld n 15 8)))) : Decoded) = _
  rw [z0, ofNat_fld p0 f0, ofNat_fld p1 f1]
  rfl

theorem ctz (p0 p1) : Statement (.ctz p0 p1) := by
  intro w g e
  obtain ⟨n, hn⟩ : ∃ n, n = 0x2C000000 + p0.toNat * 0x10000 + p1.toNat * 0x100 := ⟨_, rfl⟩
  obtain ⟨nlt, hop, f0, f1, z0⟩ := layout8 (op := 44) (by decide) p0.isLt p1.isLt hn
  have hw : w.toNat = n := (word_of (x := 0x2C000000 + p0.toNat * 0x10000 + p1.toNat * 0x100) e (hn ▸ nlt)).trans hn.symm
  refine decode_of (op := 44) hw hop ?_
  show (unusedZero (fld n 7 0 == 0) (.ok (.ctz (.ofNat 8 (fld n 23 16)) (.ofNat 8 (fld n 15 8)))) : Decoded) = _
  rw [z0, ofNat_fld p0 f0, ofNat_fld p1 f1]
  rfl

theorem popc (p0 p1) : Statement (.popc p0 p1) := by
  intro w g e
  obtain ⟨n, hn⟩ : ∃ n, n = 0x2D000000 + p0.toNat * 0x10000 + p1.toNat * 0x100 := ⟨_, rfl⟩
  obtain ⟨nlt, hop, f0, f1, z0⟩ := layout8 (op := 45) (by decide) p0.isLt p1.isLt hn
  have hw : w.toNat = n := (word_of (x := 0x2D000000 + p0.toNat * 0x10000 + p1.toNat * 0x100) e (hn ▸ nlt)).trans hn.symm
  refine decode_of (op := 45) hw hop ?_
  show (unusedZero (fld n 7 0 == 0) (.ok (.popc (.ofNat 8 (fld n 23 16)) (.ofNat 8 (fld n 15 8)))) : Decoded) = _
  rw [z0, ofNat_fld p0 f0, ofNat_fld p1 f1]
  rfl

theorem brev (p0 p1) : Statement (.brev p0 p1) := by
  intro w g e
  obtain ⟨n, hn⟩ : ∃ n, n = 0x2E000000 + p0.toNat * 0x10000 + p1.toNat * 0x100 := ⟨_, rfl⟩
  obtain ⟨nlt, hop, f0, f1, z0⟩ := layout8 (op := 46) (by decide) p0.isLt p1.isLt hn
  have hw : w.toNat = n := (word_of (x := 0x2E000000 + p0.toNat * 0x10000 + p1.toNat * 0x100) e (hn ▸ nlt)).trans hn.symm
  refine decode_of (op := 46) hw hop ?_
  show (unusedZero (fld n 7 0 == 0) (.ok (.brev (.ofNat 8 (fld n 23 16)) (.ofNat 8 (fld n 15 8)))) : Decoded) = _
  rw [z0, ofNat_fld p0 f0, ofNat_fld p1 f1]
  rfl

theorem fadd (p0 p1 p2) : Statement (.fadd p0 p1 p2) := by
  intro w g e
  obtain ⟨n, hn⟩ : ∃ n, n = 0x30000000 + p0.toNat * 0x10000 + p1.toNat * 0x100 + p2.toNat := ⟨_, rfl⟩
  obtain ⟨nlt, hop, f0, f1, f2⟩ := layout9 (op := 48) (by decide) p0.isLt p1.isLt p2.isLt hn
  have hw : w.toNat = n := (word_of (x := 0x30000000 + p0.toNat * 0x10000 + p1.toNat * 0x100 + p2.toNat) e (hn ▸ nlt)).trans hn.symm
  refine decode_of (op := 48) hw hop ?_
  show (.ok (.fadd (.ofNat 8 (fld n 23 16)) (.ofNat 8 (fld n 15 8)) (.ofNat 8 (fld n 7 0))) : Decoded) = _
  rw [ofNat_fld p0 f0, ofNat_fld p1 f1, ofNat_fld p2 f2]

theorem fsub (p0 p1 p2) : Statement (.fsub p0 p1 p2) := by
  intro w g e
  obtain ⟨n, hn⟩ : ∃ n, n = 0x31000000 + p0.toNat * 0x10000 + p1.toNat * 0x100 + p2.toNat := ⟨_, rfl⟩
  obtain ⟨nlt, hop, f0, f1, f2⟩ := layout9 (op := 49) (by decide) p0.isLt p1.isLt p2.isLt hn
  have hw : w.toNat = n := (word_of (x := 0x31000000 + p0.toNat * 0x10000 + p1.toNat * 0x100 + p2.toNat) e (hn ▸ nlt)).trans hn.symm
  refine decode_of (op := 49) hw hop ?_
  show (.ok (.fsub (.ofNat 8 (fld n 23 16)) (.ofNat 8 (fld n 15 8)) (.ofNat 8 (fld n 7 0))) : Decoded) = _
  rw [ofNat_fld p0 f0, ofNat_fld p1 f1, ofNat_fld p2 f2]

theorem fmul (p0 p1 p2) : Statement (.fmul p0 p1 p2) := by
  intro w g e
  obtain ⟨n, hn⟩ : ∃ n, n = 0x32000000 + p0.toNat * 0x10000 + p1.toNat * 0x100 + p2.toNat := ⟨_, rfl⟩
  obtain ⟨nlt, hop, f0, f1, f2⟩ := layout9 (op := 50) (by decide) p0.isLt p1.isLt p2.isLt hn
  have hw : w.toNat = n := (word_of (x := 0x32000000 + p0.toNat * 0x10000 + p1.toNat * 0x100 + p2.toNat) e (hn ▸ nlt)).trans hn.symm
  refine decode_of (op := 50) hw hop ?_
  show (.ok (.fmul (.ofNat 8 (fld n 23 16)) (.ofNat 8 (fld n 15 8)) (.ofNat 8 (fld n 7 0))) : Decoded) = _
  rw [ofNat_fld p0 f0, ofNat_fld p1 f1, ofNat_fld p2 f2]

theorem ffma (p0 p1 p2) : Statement (.ffma p0 p1 p2) := by
  intro w g e
  obtain ⟨n, hn⟩ : ∃ n, n = 0x33000000 + p0.toNat * 0x10000 + p1.toNat * 0x100 + p2.toNat := ⟨_, rfl⟩
  obtain ⟨nlt, hop, f0, f1, f2⟩ := layout9 (op := 51) (by decide) p0.isLt p1.isLt p2.isLt hn
  have hw : w.toNat = n := (word_of (x := 0x33000000 + p0.toNat * 0x10000 + p1.toNat * 0x100 + p2.toNat) e (hn ▸ nlt)).trans hn.symm
  refine decode_of (op := 51) hw hop ?_
  show (.ok (.ffma (.ofNat 8 (fld n 23 16)) (.ofNat 8 (fld n 15 8)) (.ofNat 8 (fld n 7 0))) : Decoded) = _
  rw [ofNat_fld p0 f0, ofNat_fld p1 f1, ofNat_fld p2 f2]

theorem fmin (p0 p1 p2) : Statement (.fmin p0 p1 p2) := by
  intro w g e
  obtain ⟨n, hn⟩ : ∃ n, n = 0x34000000 + p0.toNat * 0x10000 + p1.toNat * 0x100 + p2.toNat := ⟨_, rfl⟩
  obtain ⟨nlt, hop, f0, f1, f2⟩ := layout9 (op := 52) (by decide) p0.isLt p1.isLt p2.isLt hn
  have hw : w.toNat = n := (word_of (x := 0x34000000 + p0.toNat * 0x10000 + p1.toNat * 0x100 + p2.toNat) e (hn ▸ nlt)).trans hn.symm
  refine decode_of (op := 52) hw hop ?_
  show (.ok (.fmin (.ofNat 8 (fld n 23 16)) (.ofNat 8 (fld n 15 8)) (.ofNat 8 (fld n 7 0))) : Decoded) = _
  rw [ofNat_fld p0 f0, ofNat_fld p1 f1, ofNat_fld p2 f2]

theorem fmax (p0 p1 p2) : Statement (.fmax p0 p1 p2) := by
  intro w g e
  obtain ⟨n, hn⟩ : ∃ n, n = 0x35000000 + p0.toNat * 0x10000 + p1.toNat * 0x100 + p2.toNat := ⟨_, rfl⟩
  obtain ⟨nlt, hop, f0, f1, f2⟩ := layout9 (op := 53) (by decide) p0.isLt p1.isLt p2.isLt hn
  have hw : w.toNat = n := (word_of (x := 0x35000000 + p0.toNat * 0x10000 + p1.toNat * 0x100 + p2.toNat) e (hn ▸ nlt)).trans hn.symm
  refine decode_of (op := 53) hw hop ?_
  show (.ok (.fmax (.ofNat 8 (fld n 23 16)) (.ofNat 8 (fld n 15 8)) (.ofNat 8 (fld n 7 0))) : Decoded) = _
  rw [ofNat_fld p0 f0, ofNat_fld p1 f1, ofNat_fld p2 f2]

theorem fminp (p0 p1 p2) : Statement (.fminp p0 p1 p2) := by
  intro w g e
  obtain ⟨n, hn⟩ : ∃ n, n = 0x36000000 + p0.toNat * 0x10000 + p1.toNat * 0x100 + p2.toNat := ⟨_, rfl⟩
  obtain ⟨nlt, hop, f0, f1, f2⟩ := layout9 (op := 54) (by decide) p0.isLt p1.isLt p2.isLt hn
  have hw : w.toNat = n := (word_of (x := 0x36000000 + p0.toNat * 0x10000 + p1.toNat * 0x100 + p2.toNat) e (hn ▸ nlt)).trans hn.symm
  refine decode_of (op := 54) hw hop ?_
  show (.ok (.fminp (.ofNat 8 (fld n 23 16)) (.ofNat 8 (fld n 15 8)) (.ofNat 8 (fld n 7 0))) : Decoded) = _
  rw [ofNat_fld p0 f0, ofNat_fld p1 f1, ofNat_fld p2 f2]

theorem fmaxp (p0 p1 p2) : Statement (.fmaxp p0 p1 p2) := by
  intro w g e
  obtain ⟨n, hn⟩ : ∃ n, n = 0x37000000 + p0.toNat * 0x10000 + p1.toNat * 0x100 + p2.toNat := ⟨_, rfl⟩
  obtain ⟨nlt, hop, f0, f1, f2⟩ := layout9 (op := 55) (by decide) p0.isLt p1.isLt p2.isLt hn
  have hw : w.toNat = n := (word_of (x := 0x37000000 + p0.toNat * 0x10000 + p1.toNat * 0x100 + p2.toNat) e (hn ▸ nlt)).trans hn.symm
  refine decode_of (op := 55) hw hop ?_
  show (.ok (.fmaxp (.ofNat 8 (fld n 23 16)) (.ofNat 8 (fld n 15 8)) (.ofNat 8 (fld n 7 0))) : Decoded) = _
  rw [ofNat_fld p0 f0, ofNat_fld p1 f1, ofNat_fld p2 f2]

theorem fabs (p0 p1) : Statement (.fabs p0 p1) := by
  intro w g e
  obtain ⟨n, hn⟩ : ∃ n, n = 0x38000000 + p0.toNat * 0x10000 + p1.toNat * 0x100 := ⟨_, rfl⟩
  obtain ⟨nlt, hop, f0, f1, z0⟩ := layout8 (op := 56) (by decide) p0.isLt p1.isLt hn
  have hw : w.toNat = n := (word_of (x := 0x38000000 + p0.toNat * 0x10000 + p1.toNat * 0x100) e (hn ▸ nlt)).trans hn.symm
  refine decode_of (op := 56) hw hop ?_
  show (unusedZero (fld n 7 0 == 0) (.ok (.fabs (.ofNat 8 (fld n 23 16)) (.ofNat 8 (fld n 15 8)))) : Decoded) = _
  rw [z0, ofNat_fld p0 f0, ofNat_fld p1 f1]
  rfl

theorem fneg (p0 p1) : Statement (.fneg p0 p1) := by
  intro w g e
  obtain ⟨n, hn⟩ : ∃ n, n = 0x39000000 + p0.toNat * 0x10000 + p1.toNat * 0x100 := ⟨_, rfl⟩
  obtain ⟨nlt, hop, f0, f1, z0⟩ := layout8 (op := 57) (by decide) p0.isLt p1.isLt hn
  have hw : w.toNat = n := (word_of (x := 0x39000000 + p0.toNat * 0x10000 + p1.toNat * 0x100) e (hn ▸ nlt)).trans hn.symm
  refine decode_of (op := 57) hw hop ?_
  show (unusedZero (fld n 7 0 == 0) (.ok (.fneg (.ofNat 8 (fld n 23 16)) (.ofNat 8 (fld n 15 8)))) : Decoded) = _
  rw [z0, ofNat_fld p0 f0, ofNat_fld p1 f1]
  rfl

theorem frcp (p0 p1) : Statement (.frcp p0 p1) := by
  intro w g e
  obtain ⟨n, hn⟩ : ∃ n, n = 0x3A000000 + p0.toNat * 0x10000 + p1.toNat * 0x100 := ⟨_, rfl⟩
  obtain ⟨nlt, hop, f0, f1, z0⟩ := layout8 (op := 58) (by decide) p0.isLt p1.isLt hn
  have hw : w.toNat = n := (word_of (x := 0x3A000000 + p0.toNat * 0x10000 + p1.toNat * 0x100) e (hn ▸ nlt)).trans hn.symm
  refine decode_of (op := 58) hw hop ?_
  show (unusedZero (fld n 7 0 == 0) (.ok (.frcp (.ofNat 8 (fld n 23 16)) (.ofNat 8 (fld n 15 8)))) : Decoded) = _
  rw [z0, ofNat_fld p0 f0, ofNat_fld p1 f1]
  rfl

theorem frsq (p0 p1) : Statement (.frsq p0 p1) := by
  intro w g e
  obtain ⟨n, hn⟩ : ∃ n, n = 0x3B000000 + p0.toNat * 0x10000 + p1.toNat * 0x100 := ⟨_, rfl⟩
  obtain ⟨nlt, hop, f0, f1, z0⟩ := layout8 (op := 59) (by decide) p0.isLt p1.isLt hn
  have hw : w.toNat = n := (word_of (x := 0x3B000000 + p0.toNat * 0x10000 + p1.toNat * 0x100) e (hn ▸ nlt)).trans hn.symm
  refine decode_of (op := 59) hw hop ?_
  show (unusedZero (fld n 7 0 == 0) (.ok (.frsq (.ofNat 8 (fld n 23 16)) (.ofNat 8 (fld n 15 8)))) : Decoded) = _
  rw [z0, ofNat_fld p0 f0, ofNat_fld p1 f1]
  rfl

theorem fsqrt (p0 p1) : Statement (.fsqrt p0 p1) := by
  intro w g e
  obtain ⟨n, hn⟩ : ∃ n, n = 0x3C000000 + p0.toNat * 0x10000 + p1.toNat * 0x100 := ⟨_, rfl⟩
  obtain ⟨nlt, hop, f0, f1, z0⟩ := layout8 (op := 60) (by decide) p0.isLt p1.isLt hn
  have hw : w.toNat = n := (word_of (x := 0x3C000000 + p0.toNat * 0x10000 + p1.toNat * 0x100) e (hn ▸ nlt)).trans hn.symm
  refine decode_of (op := 60) hw hop ?_
  show (unusedZero (fld n 7 0 == 0) (.ok (.fsqrt (.ofNat 8 (fld n 23 16)) (.ofNat 8 (fld n 15 8)))) : Decoded) = _
  rw [z0, ofNat_fld p0 f0, ofNat_fld p1 f1]
  rfl

theorem fex2 (p0 p1) : Statement (.fex2 p0 p1) := by
  intro w g e
  obtain ⟨n, hn⟩ : ∃ n, n = 0x3D000000 + p0.toNat * 0x10000 + p1.toNat * 0x100 := ⟨_, rfl⟩
  obtain ⟨nlt, hop, f0, f1, z0⟩ := layout8 (op := 61) (by decide) p0.isLt p1.isLt hn
  have hw : w.toNat = n := (word_of (x := 0x3D000000 + p0.toNat * 0x10000 + p1.toNat * 0x100) e (hn ▸ nlt)).trans hn.symm
  refine decode_of (op := 61) hw hop ?_
  show (unusedZero (fld n 7 0 == 0) (.ok (.fex2 (.ofNat 8 (fld n 23 16)) (.ofNat 8 (fld n 15 8)))) : Decoded) = _
  rw [z0, ofNat_fld p0 f0, ofNat_fld p1 f1]
  rfl

theorem flg2 (p0 p1) : Statement (.flg2 p0 p1) := by
  intro w g e
  obtain ⟨n, hn⟩ : ∃ n, n = 0x3E000000 + p0.toNat * 0x10000 + p1.toNat * 0x100 := ⟨_, rfl⟩
  obtain ⟨nlt, hop, f0, f1, z0⟩ := layout8 (op := 62) (by decide) p0.isLt p1.isLt hn
  have hw : w.toNat = n := (word_of (x := 0x3E000000 + p0.toNat * 0x10000 + p1.toNat * 0x100) e (hn ▸ nlt)).trans hn.symm
  refine decode_of (op := 62) hw hop ?_
  show (unusedZero (fld n 7 0 == 0) (.ok (.flg2 (.ofNat 8 (fld n 23 16)) (.ofNat 8 (fld n 15 8)))) : Decoded) = _
  rw [z0, ofNat_fld p0 f0, ofNat_fld p1 f1]
  rfl

theorem fsin (p0 p1) : Statement (.fsin p0 p1) := by
  intro w g e
  obtain ⟨n, hn⟩ : ∃ n, n = 0x3F000000 + p0.toNat * 0x10000 + p1.toNat * 0x100 := ⟨_, rfl⟩
  obtain ⟨nlt, hop, f0, f1, z0⟩ := layout8 (op := 63) (by decide) p0.isLt p1.isLt hn
  have hw : w.toNat = n := (word_of (x := 0x3F000000 + p0.toNat * 0x10000 + p1.toNat * 0x100) e (hn ▸ nlt)).trans hn.symm
  refine decode_of (op := 63) hw hop ?_
  show (unusedZero (fld n 7 0 == 0) (.ok (.fsin (.ofNat 8 (fld n 23 16)) (.ofNat 8 (fld n 15 8)))) : Decoded) = _
  rw [z0, ofNat_fld p0 f0, ofNat_fld p1 f1]
  rfl

theorem fcos (p0 p1) : Statement (.fcos p0 p1) := by
  intro w g e
  obtain ⟨n, hn⟩ : ∃ n, n = 0x40000000 + p0.toNat * 0x10000 + p1.toNat * 0x100 := ⟨_, rfl⟩
  obtain ⟨nlt, hop, f0, f1, z0⟩ := layout8 (op := 64) (by decide) p0.isLt p1.isLt hn
  have hw : w.toNat = n := (word_of (x := 0x40000000 + p0.toNat * 0x10000 + p1.toNat * 0x100) e (hn ▸ nlt)).trans hn.symm
  refine decode_of (op := 64) hw hop ?_
  show (unusedZero (fld n 7 0 == 0) (.ok (.fcos (.ofNat 8 (fld n 23 16)) (.ofNat 8 (fld n 15 8)))) : Decoded) = _
  rw [z0, ofNat_fld p0 f0, ofNat_fld p1 f1]
  rfl

theorem frnd (p0 p1) : Statement (.frnd p0 p1) := by
  intro w g e
  obtain ⟨n, hn⟩ : ∃ n, n = 0x41000000 + p0.toNat * 0x10000 + p1.toNat * 0x100 := ⟨_, rfl⟩
  obtain ⟨nlt, hop, f0, f1, z0⟩ := layout8 (op := 65) (by decide) p0.isLt p1.isLt hn
  have hw : w.toNat = n := (word_of (x := 0x41000000 + p0.toNat * 0x10000 + p1.toNat * 0x100) e (hn ▸ nlt)).trans hn.symm
  refine decode_of (op := 65) hw hop ?_
  show (unusedZero (fld n 7 0 == 0) (.ok (.frnd (.ofNat 8 (fld n 23 16)) (.ofNat 8 (fld n 15 8)))) : Decoded) = _
  rw [z0, ofNat_fld p0 f0, ofNat_fld p1 f1]
  rfl

theorem fcls (p0 p1) : Statement (.fcls p0 p1) := by
  intro w g e
  obtain ⟨n, hn⟩ : ∃ n, n = 0x42000000 + p0.toNat * 0x10000 + p1.toNat * 0x100 := ⟨_, rfl⟩
  obtain ⟨nlt, hop, f0, f1, z0⟩ := layout8 (op := 66) (by decide) p0.isLt p1.isLt hn
  have hw : w.toNat = n := (word_of (x := 0x42000000 + p0.toNat * 0x10000 + p1.toNat * 0x100) e (hn ▸ nlt)).trans hn.symm
  refine decode_of (op := 66) hw hop ?_
  show (unusedZero (fld n 7 0 == 0) (.ok (.fcls (.ofNat 8 (fld n 23 16)) (.ofNat 8 (fld n 15 8)))) : Decoded) = _
  rw [z0, ofNat_fld p0 f0, ofNat_fld p1 f1]
  rfl

theorem fscl (p0 p1 p2) : Statement (.fscl p0 p1 p2) := by
  intro w g e
  obtain ⟨n, hn⟩ : ∃ n, n = 0x43000000 + p0.toNat * 0x10000 + p1.toNat * 0x100 + p2.toNat := ⟨_, rfl⟩
  obtain ⟨nlt, hop, f0, f1, f2⟩ := layout9 (op := 67) (by decide) p0.isLt p1.isLt p2.isLt hn
  have hw : w.toNat = n := (word_of (x := 0x43000000 + p0.toNat * 0x10000 + p1.toNat * 0x100 + p2.toNat) e (hn ▸ nlt)).trans hn.symm
  refine decode_of (op := 67) hw hop ?_
  show (.ok (.fscl (.ofNat 8 (fld n 23 16)) (.ofNat 8 (fld n 15 8)) (.ofNat 8 (fld n 7 0))) : Decoded) = _
  rw [ofNat_fld p0 f0, ofNat_fld p1 f1, ofNat_fld p2 f2]

theorem fdot4 (p0 p1 p2) : Statement (.fdot4 p0 p1 p2) := by
  intro w g e
  obtain ⟨n, hn⟩ : ∃ n, n = 0x44000000 + p0.toNat * 0x10000 + p1.toNat * 0x100 + p2.toNat := ⟨_, rfl⟩
  obtain ⟨nlt, hop, f0, f1, f2⟩ := layout9 (op := 68) (by decide) p0.isLt p1.isLt p2.isLt hn
  have hw : w.toNat = n := (word_of (x := 0x44000000 + p0.toNat * 0x10000 + p1.toNat * 0x100 + p2.toNat) e (hn ▸ nlt)).trans hn.symm
  refine decode_of (op := 68) hw hop ?_
  show (.ok (.fdot4 (.ofNat 8 (fld n 23 16)) (.ofNat 8 (fld n 15 8)) (.ofNat 8 (fld n 7 0))) : Decoded) = _
  rw [ofNat_fld p0 f0, ofNat_fld p1 f1, ofNat_fld p2 f2]

theorem layout10 {n op x0 x1 x2 x3 : Nat} (ho : op < 0x100) (h0 : x0 < 2 ^ 4) (h1 : x1 < 2 ^ 4) (h2 : x2 < 2 ^ 8) (h3 : x3 < 2 ^ 8) (h : n = op * 0x1000000 + x0 * 0x100000 + x1 * 0x10000 + x2 * 0x100 + x3) :
    n < 2 ^ 32 ∧ fld n 31 24 = op ∧ fld n 23 20 = x0 ∧ fld n 19 16 = x1 ∧ fld n 15 8 = x2 ∧ fld n 7 0 = x3 := by
  refine ⟨?_, fld_of ?_, fld_of ?_, fld_of ?_, fld_of ?_, fld_of ?_⟩ <;> omega

theorem icmp (p0 p1 p2 p3) : Statement (.icmp p0 p1 p2 p3) := by
  intro w g e
  obtain ⟨n, hn⟩ : ∃ n, n = 0x50000000 + p0.toNat * 0x100000 + p1.toNat * 0x10000 + p2.toNat * 0x100 + p3.toNat := ⟨_, rfl⟩
  obtain ⟨nlt, hop, f0, f1, f2, f3⟩ := layout10 (op := 80) (by decide) p0.isLt p1.isLt p2.isLt p3.isLt hn
  have hw : w.toNat = n := (word_of (x := 0x50000000 + p0.toNat * 0x100000 + p1.toNat * 0x10000 + p2.toNat * 0x100 + p3.toNat) e (hn ▸ nlt)).trans hn.symm
  refine decode_of (op := 80) hw hop ?_
  show (.ok (.icmp (.ofNat 4 (fld n 23 20)) (.ofNat 4 (fld n 19 16)) (.ofNat 8 (fld n 15 8)) (.ofNat 8 (fld n 7 0))) : Decoded) = _
  rw [ofNat_fld p0 f0, ofNat_fld p1 f1, ofNat_fld p2 f2, ofNat_fld p3 f3]

theorem fcmp (p0 p1 p2 p3) : Statement (.fcmp p0 p1 p2 p3) := by
  intro w g e
  obtain ⟨n, hn⟩ : ∃ n, n = 0x51000000 + p0.toNat * 0x100000 + p1.toNat * 0x10000 + p2.toNat * 0x100 + p3.toNat := ⟨_, rfl⟩
  obtain ⟨nlt, hop, f0, f1, f2, f3⟩ := layout10 (op := 81) (by decide) p0.isLt p1.isLt p2.isLt p3.isLt hn
  have hw : w.toNat = n := (word_of (x := 0x51000000 + p0.toNat * 0x100000 + p1.toNat * 0x10000 + p2.toNat * 0x100 + p3.toNat) e (hn ▸ nlt)).trans hn.symm
  refine decode_of (op := 81) hw hop ?_
  show (.ok (.fcmp (.ofNat 4 (fld n 23 20)) (.ofNat 4 (fld n 19 16)) (.ofNat 8 (fld n 15 8)) (.ofNat 8 (fld n 7 0))) : Decoded) = _
  rw [ofNat_fld p0 f0, ofNat_fld p1 f1, ofNat_fld p2 f2, ofNat_fld p3 f3]

theorem layout11 {n op x0 x1 x2 : Nat} (ho : op < 0x100) (h0 : x0 < 2 ^ 4) (h1 : x1 < 2 ^ 4) (h2 : x2 < 2 ^ 4) (h : n = op * 0x1000000 + x0 * 0x10000 + x1 * 0x100 + x2) :
    n < 2 ^ 32 ∧ fld n 31 24 = op ∧ fld n 19 16 = x0 ∧ fld n 11 8 = x1 ∧ fld n 3 0 = x2 ∧ fld n 23 20 = 0 ∧ fld n 15 12 = 0 ∧ fld n 7 4 = 0 := by
  refine ⟨?_, fld_of ?_, fld_of ?_, fld_of ?_, fld_of ?_, fld_of ?_, fld_of ?_, fld_of ?_⟩ <;> omega

theorem pand (p0 p1 p2) : Statement (.pand p0 p1 p2) := by
  intro w g e
  obtain ⟨n, hn⟩ : ∃ n, n = 0x52000000 + p0.toNat * 0x10000 + p1.toNat * 0x100 + p2.toNat := ⟨_, rfl⟩
  obtain ⟨nlt, hop, f0, f1, f2, z0, z1, z2⟩ := layout11 (op := 82) (by decide) p0.isLt p1.isLt p2.isLt hn
  have hw : w.toNat = n := (word_of (x := 0x52000000 + p0.toNat * 0x10000 + p1.toNat * 0x100 + p2.toNat) e (hn ▸ nlt)).trans hn.symm
  refine decode_of (op := 82) hw hop ?_
  show (operandOk (fld n 23 20 == 0 && fld n 15 12 == 0 && fld n 7 4 == 0) (.ok (.pand (.ofNat 4 (fld n 19 16)) (.ofNat 4 (fld n 11 8)) (.ofNat 4 (fld n 3 0)))) : Decoded) = _
  rw [z0, z1, z2, ofNat_fld p0 f0, ofNat_fld p1 f1, ofNat_fld p2 f2]
  rfl

theorem por (p0 p1 p2) : Statement (.por p0 p1 p2) := by
  intro w g e
  obtain ⟨n, hn⟩ : ∃ n, n = 0x53000000 + p0.toNat * 0x10000 + p1.toNat * 0x100 + p2.toNat := ⟨_, rfl⟩
  obtain ⟨nlt, hop, f0, f1, f2, z0, z1, z2⟩ := layout11 (op := 83) (by decide) p0.isLt p1.isLt p2.isLt hn
  have hw : w.toNat = n := (word_of (x := 0x53000000 + p0.toNat * 0x10000 + p1.toNat * 0x100 + p2.toNat) e (hn ▸ nlt)).trans hn.symm
  refine decode_of (op := 83) hw hop ?_
  show (operandOk (fld n 23 20 == 0 && fld n 15 12 == 0 && fld n 7 4 == 0) (.ok (.por (.ofNat 4 (fld n 19 16)) (.ofNat 4 (fld n 11 8)) (.ofNat 4 (fld n 3 0)))) : Decoded) = _
  rw [z0, z1, z2, ofNat_fld p0 f0, ofNat_fld p1 f1, ofNat_fld p2 f2]
  rfl

theorem pxor (p0 p1 p2) : Statement (.pxor p0 p1 p2) := by
  intro w g e
  obtain ⟨n, hn⟩ : ∃ n, n = 0x54000000 + p0.toNat * 0x10000 + p1.toNat * 0x100 + p2.toNat := ⟨_, rfl⟩
  obtain ⟨nlt, hop, f0, f1, f2, z0, z1, z2⟩ := layout11 (op := 84) (by decide) p0.isLt p1.isLt p2.isLt hn
  have hw : w.toNat = n := (word_of (x := 0x54000000 + p0.toNat * 0x10000 + p1.toNat * 0x100 + p2.toNat) e (hn ▸ nlt)).trans hn.symm
  refine decode_of (op := 84) hw hop ?_
  show (operandOk (fld n 23 20 == 0 && fld n 15 12 == 0 && fld n 7 4 == 0) (.ok (.pxor (.ofNat 4 (fld n 19 16)) (.ofNat 4 (fld n 11 8)) (.ofNat 4 (fld n 3 0)))) : Decoded) = _
  rw [z0, z1, z2, ofNat_fld p0 f0, ofNat_fld p1 f1, ofNat_fld p2 f2]
  rfl

theorem layout12 {n op x0 x1 : Nat} (ho : op < 0x100) (h0 : x0 < 2 ^ 8) (h1 : x1 < 2 ^ 4) (h : n = op * 0x1000000 + x0 * 0x10000 + x1 * 0x100) :
    n < 2 ^ 32 ∧ fld n 31 24 = op ∧ fld n 23 16 = x0 ∧ fld n 11 8 = x1 ∧ fld n 7 0 = 0 ∧ fld n 15 12 = 0 := by
  refine ⟨?_, fld_of ?_, fld_of ?_, fld_of ?_, fld_of ?_, fld_of ?_⟩ <;> omega

theorem p2v (p0 p1) : Statement (.p2v p0 p1) := by
  intro w g e
  obtain ⟨n, hn⟩ : ∃ n, n = 0x55000000 + p0.toNat * 0x10000 + p1.toNat * 0x100 := ⟨_, rfl⟩
  obtain ⟨nlt, hop, f0, f1, z0, z1⟩ := layout12 (op := 85) (by decide) p0.isLt p1.isLt hn
  have hw : w.toNat = n := (word_of (x := 0x55000000 + p0.toNat * 0x10000 + p1.toNat * 0x100) e (hn ▸ nlt)).trans hn.symm
  refine decode_of (op := 85) hw hop ?_
  show (unusedZero (fld n 7 0 == 0) (operandOk (fld n 15 12 == 0) (.ok (.p2v (.ofNat 8 (fld n 23 16)) (.ofNat 4 (fld n 11 8))))) : Decoded) = _
  rw [z0, z1, ofNat_fld p0 f0, ofNat_fld p1 f1]
  rfl

theorem layout13 {n op x0 x1 : Nat} (ho : op < 0x100) (h0 : x0 < 2 ^ 4) (h1 : x1 < 2 ^ 8) (h : n = op * 0x1000000 + x0 * 0x10000 + x1 * 0x100) :
    n < 2 ^ 32 ∧ fld n 31 24 = op ∧ fld n 19 16 = x0 ∧ fld n 15 8 = x1 ∧ fld n 7 0 = 0 ∧ fld n 23 20 = 0 := by
  refine ⟨?_, fld_of ?_, fld_of ?_, fld_of ?_, fld_of ?_, fld_of ?_⟩ <;> omega

theorem v2p (p0 p1) : Statement (.v2p p0 p1) := by
  intro w g e
  obtain ⟨n, hn⟩ : ∃ n, n = 0x56000000 + p0.toNat * 0x10000 + p1.toNat * 0x100 := ⟨_, rfl⟩
  obtain ⟨nlt, hop, f0, f1, z0, z1⟩ := layout13 (op := 86) (by decide) p0.isLt p1.isLt hn
  have hw : w.toNat = n := (word_of (x := 0x56000000 + p0.toNat * 0x10000 + p1.toNat * 0x100) e (hn ▸ nlt)).trans hn.symm
  refine decode_of (op := 86) hw hop ?_
  show (unusedZero (fld n 7 0 == 0) (operandOk (fld n 23 20 == 0) (.ok (.v2p (.ofNat 4 (fld n 19 16)) (.ofNat 8 (fld n 15 8))))) : Decoded) = _
  rw [z0, z1, ofNat_fld p0 f0, ofNat_fld p1 f1]
  rfl

theorem layout14 {n op x0 x1 : Nat} (ho : op < 0x100) (h0 : x0 < 2 ^ 8) (h1 : x1 < 2 ^ 8) (h : n = op * 0x1000000 + x0 * 0x100 + x1) :
    n < 2 ^ 32 ∧ fld n 31 24 = op ∧ fld n 15 8 = x0 ∧ fld n 7 0 = x1 ∧ fld n 23 16 = 0 := by
  refine ⟨?_, fld_of ?_, fld_of ?_, fld_of ?_, fld_of ?_⟩ <;> omega

theorem vgrow (p0 p1) : Statement (.vgrow p0 p1) := by
  intro w g e
  obtain ⟨n, hn⟩ : ∃ n, n = 0x58000000 + p0.toNat * 0x100 + p1.toNat := ⟨_, rfl⟩
  obtain ⟨nlt, hop, f0, f1, z0⟩ := layout14 (op := 88) (by decide) p0.isLt p1.isLt hn
  have hw : w.toNat = n := (word_of (x := 0x58000000 + p0.toNat * 0x100 + p1.toNat) e (hn ▸ nlt)).trans hn.symm
  refine decode_of (op := 88) hw hop ?_
  show (unusedZero (fld n 23 16 == 0) (.ok (.vgrow (.ofNat 8 (fld n 15 8)) (.ofNat 8 (fld n 7 0)))) : Decoded) = _
  rw [z0, ofNat_fld p0 f0, ofNat_fld p1 f1]
  rfl

theorem vshrink (p0 p1) : Statement (.vshrink p0 p1) := by
  intro w g e
  obtain ⟨n, hn⟩ : ∃ n, n = 0x59000000 + p0.toNat * 0x100 + p1.toNat := ⟨_, rfl⟩
  obtain ⟨nlt, hop, f0, f1, z0⟩ := layout14 (op := 89) (by decide) p0.isLt p1.isLt hn
  have hw : w.toNat = n := (word_of (x := 0x59000000 + p0.toNat * 0x100 + p1.toNat) e (hn ▸ nlt)).trans hn.symm
  refine decode_of (op := 89) hw hop ?_
  show (unusedZero (fld n 23 16 == 0) (.ok (.vshrink (.ofNat 8 (fld n 15 8)) (.ofNat 8 (fld n 7 0)))) : Decoded) = _
  rw [z0, ofNat_fld p0 f0, ofNat_fld p1 f1]
  rfl

theorem shfl (p0 p1 p2) : Statement (.shfl p0 p1 p2) := by
  intro w g e
  obtain ⟨n, hn⟩ : ∃ n, n = 0x5A000000 + p0.toNat * 0x10000 + p1.toNat * 0x100 + p2.toNat := ⟨_, rfl⟩
  obtain ⟨nlt, hop, f0, f1, f2⟩ := layout9 (op := 90) (by decide) p0.isLt p1.isLt p2.isLt hn
  have hw : w.toNat = n := (word_of (x := 0x5A000000 + p0.toNat * 0x10000 + p1.toNat * 0x100 + p2.toNat) e (hn ▸ nlt)).trans hn.symm
  refine decode_of (op := 90) hw hop ?_
  show (.ok (.shfl (.ofNat 8 (fld n 23 16)) (.ofNat 8 (fld n 15 8)) (.ofNat 8 (fld n 7 0))) : Decoded) = _
  rw [ofNat_fld p0 f0, ofNat_fld p1 f1, ofNat_fld p2 f2]

theorem rot (p0 p1 p2) : Statement (.rot p0 p1 p2) := by
  intro w g e
  obtain ⟨n, hn⟩ : ∃ n, n = 0x5B000000 + p0.toNat * 0x10000 + p1.toNat * 0x100 + p2.toNat := ⟨_, rfl⟩
  obtain ⟨nlt, hop, f0, f1, f2⟩ := layout9 (op := 91) (by decide) p0.isLt p1.isLt p2.isLt hn
  have hw : w.toNat = n := (word_of (x := 0x5B000000 + p0.toNat * 0x10000 + p1.toNat * 0x100 + p2.toNat) e (hn ▸ nlt)).trans hn.symm
  refine decode_of (op := 91) hw hop ?_
  show (.ok (.rot (.ofNat 8 (fld n 23 16)) (.ofNat 8 (fld n 15 8)) (.ofNat 8 (fld n 7 0))) : Decoded) = _
  rw [ofNat_fld p0 f0, ofNat_fld p1 f1, ofNat_fld p2 f2]

theorem vote (p0 p1 p2) : Statement (.vote p0 p1 p2) := by
  intro w g e
  obtain ⟨n, hn⟩ : ∃ n, n = 0x5C000000 + p0.toNat * 0x10000 + p1.toNat * 0x100 + p2.toNat := ⟨_, rfl⟩
  obtain ⟨nlt, hop, f0, f1, f2⟩ := layout9 (op := 92) (by decide) p0.isLt p1.isLt p2.isLt hn
  have hw : w.toNat = n := (word_of (x := 0x5C000000 + p0.toNat * 0x10000 + p1.toNat * 0x100 + p2.toNat) e (hn ▸ nlt)).trans hn.symm
  refine decode_of (op := 92) hw hop ?_
  show (.ok (.vote (.ofNat 8 (fld n 23 16)) (.ofNat 8 (fld n 15 8)) (.ofNat 8 (fld n 7 0))) : Decoded) = _
  rw [ofNat_fld p0 f0, ofNat_fld p1 f1, ofNat_fld p2 f2]

theorem layout15 {n op x0 x1 : Nat} (ho : op < 0x100) (h0 : x0 < 2 ^ 8) (h1 : x1 < 2 ^ 8) (h : n = op * 0x1000000 + x0 * 0x10000 + x1) :
    n < 2 ^ 32 ∧ fld n 31 24 = op ∧ fld n 23 16 = x0 ∧ fld n 7 0 = x1 ∧ fld n 15 8 = 0 := by
  refine ⟨?_, fld_of ?_, fld_of ?_, fld_of ?_, fld_of ?_⟩ <;> omega

theorem lanes (p0 p1) : Statement (.lanes p0 p1) := by
  intro w g e
  obtain ⟨n, hn⟩ : ∃ n, n = 0x5D000000 + p0.toNat * 0x10000 + p1.toNat := ⟨_, rfl⟩
  obtain ⟨nlt, hop, f0, f1, z0⟩ := layout15 (op := 93) (by decide) p0.isLt p1.isLt hn
  have hw : w.toNat = n := (word_of (x := 0x5D000000 + p0.toNat * 0x10000 + p1.toNat) e (hn ▸ nlt)).trans hn.symm
  refine decode_of (op := 93) hw hop ?_
  show (unusedZero (fld n 15 8 == 0) (.ok (.lanes (.ofNat 8 (fld n 23 16)) (.ofNat 8 (fld n 7 0)))) : Decoded) = _
  rw [z0, ofNat_fld p0 f0, ofNat_fld p1 f1]
  rfl

theorem rdsr (p0 p1) : Statement (.rdsr p0 p1) := by
  intro w g e
  obtain ⟨n, hn⟩ : ∃ n, n = 0x5E000000 + p0.toNat * 0x10000 + p1.toNat * 0x100 := ⟨_, rfl⟩
  obtain ⟨nlt, hop, f0, f1, z0⟩ := layout8 (op := 94) (by decide) p0.isLt p1.isLt hn
  have hw : w.toNat = n := (word_of (x := 0x5E000000 + p0.toNat * 0x10000 + p1.toNat * 0x100) e (hn ▸ nlt)).trans hn.symm
  refine decode_of (op := 94) hw hop ?_
  show (unusedZero (fld n 7 0 == 0) (.ok (.rdsr (.ofNat 8 (fld n 23 16)) (.ofNat 8 (fld n 15 8)))) : Decoded) = _
  rw [z0, ofNat_fld p0 f0, ofNat_fld p1 f1]
  rfl

theorem wrsr (p0 p1) : Statement (.wrsr p0 p1) := by
  intro w g e
  obtain ⟨n, hn⟩ : ∃ n, n = 0x5F000000 + p0.toNat * 0x10000 + p1.toNat * 0x100 := ⟨_, rfl⟩
  obtain ⟨nlt, hop, f0, f1, z0⟩ := layout8 (op := 95) (by decide) p0.isLt p1.isLt hn
  have hw : w.toNat = n := (word_of (x := 0x5F000000 + p0.toNat * 0x10000 + p1.toNat * 0x100) e (hn ▸ nlt)).trans hn.symm
  refine decode_of (op := 95) hw hop ?_
  show (unusedZero (fld n 7 0 == 0) (.ok (.wrsr (.ofNat 8 (fld n 23 16)) (.ofNat 8 (fld n 15 8)))) : Decoded) = _
  rw [z0, ofNat_fld p0 f0, ofNat_fld p1 f1]
  rfl

theorem layout16 {n op x0 x1 : Nat} (ho : op < 0x100) (h0 : x0 < 2 ^ 2) (h1 : x1 < 2 ^ 8) (h : n = op * 0x1000000 + x0 * 0x10000 + x1 * 0x100) :
    n < 2 ^ 32 ∧ fld n 31 24 = op ∧ fld n 17 16 = x0 ∧ fld n 15 8 = x1 ∧ fld n 7 0 = 0 ∧ fld n 23 18 = 0 := by
  refine ⟨?_, fld_of ?_, fld_of ?_, fld_of ?_, fld_of ?_, fld_of ?_⟩ <;> omega

theorem setfmt (p0 p1) : Statement (.setfmt p0 p1) := by
  intro w g e
  obtain ⟨n, hn⟩ : ∃ n, n = 0x60000000 + p0.toNat * 0x10000 + p1.toNat * 0x100 := ⟨_, rfl⟩
  obtain ⟨nlt, hop, f0, f1, z0, z1⟩ := layout16 (op := 96) (by decide) p0.isLt p1.isLt hn
  have hw : w.toNat = n := (word_of (x := 0x60000000 + p0.toNat * 0x10000 + p1.toNat * 0x100) e (hn ▸ nlt)).trans hn.symm
  refine decode_of (op := 96) hw hop ?_
  show (unusedZero (fld n 7 0 == 0) (operandOk (fld n 23 18 == 0) (.ok (.setfmt (.ofNat 2 (fld n 17 16)) (.ofNat 8 (fld n 15 8))))) : Decoded) = _
  rw [z0, z1, ofNat_fld p0 f0, ofNat_fld p1 f1]
  rfl

theorem layout17 {n op x0 x1 : Nat} (ho : op < 0x100) (h0 : x0 < 2 ^ 8) (h1 : x1 < 2 ^ 2) (h : n = op * 0x1000000 + x0 * 0x10000 + x1 * 0x100) :
    n < 2 ^ 32 ∧ fld n 31 24 = op ∧ fld n 23 16 = x0 ∧ fld n 9 8 = x1 ∧ fld n 7 0 = 0 ∧ fld n 15 10 = 0 := by
  refine ⟨?_, fld_of ?_, fld_of ?_, fld_of ?_, fld_of ?_, fld_of ?_⟩ <;> omega

theorem getfmt (p0 p1) : Statement (.getfmt p0 p1) := by
  intro w g e
  obtain ⟨n, hn⟩ : ∃ n, n = 0x61000000 + p0.toNat * 0x10000 + p1.toNat * 0x100 := ⟨_, rfl⟩
  obtain ⟨nlt, hop, f0, f1, z0, z1⟩ := layout17 (op := 97) (by decide) p0.isLt p1.isLt hn
  have hw : w.toNat = n := (word_of (x := 0x61000000 + p0.toNat * 0x10000 + p1.toNat * 0x100) e (hn ▸ nlt)).trans hn.symm
  refine decode_of (op := 97) hw hop ?_
  show (unusedZero (fld n 7 0 == 0) (operandOk (fld n 15 10 == 0) (.ok (.getfmt (.ofNat 8 (fld n 23 16)) (.ofNat 2 (fld n 9 8))))) : Decoded) = _
  rw [z0, z1, ofNat_fld p0 f0, ofNat_fld p1 f1]
  rfl

theorem layout18 {n op x0 x1 x2 x3 : Nat} (ho : op < 0x100) (h0 : x0 < 2 ^ 8) (h1 : x1 < 2 ^ 8) (h2 : x2 < 2 ^ 4) (h3 : x3 < 2 ^ 4) (h : n = op * 0x1000000 + x0 * 0x10000 + x1 * 0x100 + x2 * 0x10 + x3) :
    n < 2 ^ 32 ∧ fld n 31 24 = op ∧ fld n 23 16 = x0 ∧ fld n 15 8 = x1 ∧ fld n 7 4 = x2 ∧ fld n 3 0 = x3 := by
  refine ⟨?_, fld_of ?_, fld_of ?_, fld_of ?_, fld_of ?_, fld_of ?_⟩ <;> omega

theorem cvt (p0 p1 p2 p3) : Statement (.cvt p0 p1 p2 p3) := by
  intro w g e
  obtain ⟨n, hn⟩ : ∃ n, n = 0x62000000 + p0.toNat * 0x10000 + p1.toNat * 0x100 + p2.toNat * 0x10 + p3.toNat := ⟨_, rfl⟩
  obtain ⟨nlt, hop, f0, f1, f2, f3⟩ := layout18 (op := 98) (by decide) p0.isLt p1.isLt p2.isLt p3.isLt hn
  have hw : w.toNat = n := (word_of (x := 0x62000000 + p0.toNat * 0x10000 + p1.toNat * 0x100 + p2.toNat * 0x10 + p3.toNat) e (hn ▸ nlt)).trans hn.symm
  refine decode_of (op := 98) hw hop ?_
  show (.ok (.cvt (.ofNat 8 (fld n 23 16)) (.ofNat 8 (fld n 15 8)) (.ofNat 4 (fld n 7 4)) (.ofNat 4 (fld n 3 0))) : Decoded) = _
  rw [ofNat_fld p0 f0, ofNat_fld p1 f1, ofNat_fld p2 f2, ofNat_fld p3 f3]

theorem layout19 {n op x0 x1 x2 : Nat} (ho : op < 0x100) (h0 : x0 < 2 ^ 8) (h1 : x1 < 2 ^ 8) (h2 : x2 < 2 ^ 2) (h : n = op * 0x1000000 + x0 * 0x10000 + x1 * 0x100 + x2) :
    n < 2 ^ 32 ∧ fld n 31 24 = op ∧ fld n 23 16 = x0 ∧ fld n 15 8 = x1 ∧ fld n 1 0 = x2 ∧ fld n 7 2 = 0 := by
  refine ⟨?_, fld_of ?_, fld_of ?_, fld_of ?_, fld_of ?_, fld_of ?_⟩ <;> omega

theorem nfpk (p0 p1 p2) : Statement (.nfpk p0 p1 p2) := by
  intro w g e
  obtain ⟨n, hn⟩ : ∃ n, n = 0x63000000 + p0.toNat * 0x10000 + p1.toNat * 0x100 + p2.toNat := ⟨_, rfl⟩
  obtain ⟨nlt, hop, f0, f1, f2, z0⟩ := layout19 (op := 99) (by decide) p0.isLt p1.isLt p2.isLt hn
  have hw : w.toNat = n := (word_of (x := 0x63000000 + p0.toNat * 0x10000 + p1.toNat * 0x100 + p2.toNat) e (hn ▸ nlt)).trans hn.symm
  refine decode_of (op := 99) hw hop ?_
  show (unusedZero (fld n 7 2 == 0) (.ok (.nfpk (.ofNat 8 (fld n 23 16)) (.ofNat 8 (fld n 15 8)) (.ofNat 2 (fld n 1 0)))) : Decoded) = _
  rw [z0, ofNat_fld p0 f0, ofNat_fld p1 f1, ofNat_fld p2 f2]
  rfl

theorem nfupk (p0 p1 p2) : Statement (.nfupk p0 p1 p2) := by
  intro w g e
  obtain ⟨n, hn⟩ : ∃ n, n = 0x64000000 + p0.toNat * 0x10000 + p1.toNat * 0x100 + p2.toNat := ⟨_, rfl⟩
  obtain ⟨nlt, hop, f0, f1, f2, z0⟩ := layout19 (op := 100) (by decide) p0.isLt p1.isLt p2.isLt hn
  have hw : w.toNat = n := (word_of (x := 0x64000000 + p0.toNat * 0x10000 + p1.toNat * 0x100 + p2.toNat) e (hn ▸ nlt)).trans hn.symm
  refine decode_of (op := 100) hw hop ?_
  show (unusedZero (fld n 7 2 == 0) (.ok (.nfupk (.ofNat 8 (fld n 23 16)) (.ofNat 8 (fld n 15 8)) (.ofNat 2 (fld n 1 0)))) : Decoded) = _
  rw [z0, ofNat_fld p0 f0, ofNat_fld p1 f1, ofNat_fld p2 f2]
  rfl

theorem srseed (p0) : Statement (.srseed p0) := by
  intro w g e
  obtain ⟨n, hn⟩ : ∃ n, n = 0x65000000 + p0.toNat * 0x100 := ⟨_, rfl⟩
  obtain ⟨nlt, hop, f0, z0, z1⟩ := layout6 (op := 101) (by decide) p0.isLt hn
  have hw : w.toNat = n := (word_of (x := 0x65000000 + p0.toNat * 0x100) e (hn ▸ nlt)).trans hn.symm
  refine decode_of (op := 101) hw hop ?_
  show (unusedZero (fld n 23 16 == 0 && fld n 7 0 == 0) (.ok (.srseed (.ofNat 8 (fld n 15 8)))) : Decoded) = _
  rw [z0, z1, ofNat_fld p0 f0]
  rfl

theorem layout20 {n op x0 x1 x2 x3 : Nat} (ho : op < 0x100) (h0 : x0 < 2 ^ 8) (h1 : x1 < 2 ^ 8) (h2 : x2 < 2 ^ 1) (h3 : x3 < 2 ^ 2) (h : n = op * 0x1000000 + x0 * 0x10000 + x1 * 0x100 + x2 * 0x4 + x3) :
    n < 2 ^ 32 ∧ fld n 31 24 = op ∧ fld n 23 16 = x0 ∧ fld n 15 8 = x1 ∧ fld n 2 2 = x2 ∧ fld n 1 0 = x3 ∧ fld n 7 3 = 0 := by
  refine ⟨?_, fld_of ?_, fld_of ?_, fld_of ?_, fld_of ?_, fld_of ?_, fld_of ?_⟩ <;> omega

theorem lds (p0 p1 p2 p3) : Statement (.lds p0 p1 p2 p3) := by
  intro w g e
  obtain ⟨n, hn⟩ : ∃ n, n = 0x68000000 + p0.toNat * 0x10000 + p1.toNat * 0x100 + p2.toNat * 0x4 + p3.toNat := ⟨_, rfl⟩
  obtain ⟨nlt, hop, f0, f1, f2, f3, z0⟩ := layout20 (op := 104) (by decide) p0.isLt p1.isLt p2.isLt p3.isLt hn
  have g0 : (fld n 2 2 == 0 || decide (fld n 1 0 ≥ 2)) = true := by
    rw [f2, f3]
    rcases Bool.or_eq_true_iff.mp (Bool.and_eq_true_iff.mp g).1 with h | h
    · rw [eq_of_beq h]; rfl
    · rw [Bool.or_eq_true]; exact .inr h
  have hw : w.toNat = n := (word_of (x := 0x68000000 + p0.toNat * 0x10000 + p1.toNat * 0x100 + p2.toNat * 0x4 + p3.toNat) e (hn ▸ nlt)).trans hn.symm
  refine decode_of (op := 104) hw hop ?_
  show (unusedZero (fld n 7 3 == 0 && (fld n 2 2 == 0 || fld n 1 0 ≥ 2)) (.ok (.lds (.ofNat 8 (fld n 23 16)) (.ofNat 8 (fld n 15 8)) (.ofNat 1 (fld n 2 2)) (.ofNat 2 (fld n 1 0)))) : Decoded) = _
  rw [z0, g0, ofNat_fld p0 f0, ofNat_fld p1 f1, ofNat_fld p2 f2, ofNat_fld p3 f3]
  rfl

theorem layout21 {n op x0 x1 x2 : Nat} (ho : op < 0x100) (h0 : x0 < 2 ^ 2) (h1 : x1 < 2 ^ 8) (h2 : x2 < 2 ^ 8) (h : n = op * 0x1000000 + x0 * 0x10000 + x1 * 0x100 + x2) :
    n < 2 ^ 32 ∧ fld n 31 24 = op ∧ fld n 17 16 = x0 ∧ fld n 15 8 = x1 ∧ fld n 7 0 = x2 ∧ fld n 23 18 = 0 := by
  refine ⟨?_, fld_of ?_, fld_of ?_, fld_of ?_, fld_of ?_, fld_of ?_⟩ <;> omega

theorem sts (p0 p1 p2) : Statement (.sts p0 p1 p2) := by
  intro w g e
  obtain ⟨n, hn⟩ : ∃ n, n = 0x69000000 + p0.toNat * 0x10000 + p1.toNat * 0x100 + p2.toNat := ⟨_, rfl⟩
  obtain ⟨nlt, hop, f0, f1, f2, z0⟩ := layout21 (op := 105) (by decide) p0.isLt p1.isLt p2.isLt hn
  have hw : w.toNat = n := (word_of (x := 0x69000000 + p0.toNat * 0x10000 + p1.toNat * 0x100 + p2.toNat) e (hn ▸ nlt)).trans hn.symm
  refine decode_of (op := 105) hw hop ?_
  show (unusedZero (fld n 23 18 == 0) (.ok (.sts (.ofNat 2 (fld n 17 16)) (.ofNat 8 (fld n 15 8)) (.ofNat 8 (fld n 7 0)))) : Decoded) = _
  rw [z0, ofNat_fld p0 f0, ofNat_fld p1 f1, ofNat_fld p2 f2]
  rfl

theorem layout22 {n op x0 x1 x2 : Nat} (ho : op < 0x100) (h0 : x0 < 2 ^ 8) (h1 : x1 < 2 ^ 8) (h2 : x2 < 2 ^ 4) (h : n = op * 0x1000000 + x0 * 0x10000 + x1 * 0x100 + x2) :
    n < 2 ^ 32 ∧ fld n 31 24 = op ∧ fld n 23 16 = x0 ∧ fld n 15 8 = x1 ∧ fld n 3 0 = x2 ∧ fld n 7 4 = 0 := by
  refine ⟨?_, fld_of ?_, fld_of ?_, fld_of ?_, fld_of ?_, fld_of ?_⟩ <;> omega

theorem ldsm (p0 p1 p2) : Statement (.ldsm p0 p1 p2) := by
  intro w g e
  obtain ⟨n, hn⟩ : ∃ n, n = 0x6A000000 + p0.toNat * 0x10000 + p1.toNat * 0x100 + p2.toNat := ⟨_, rfl⟩
  obtain ⟨nlt, hop, f0, f1, f2, z0⟩ := layout22 (op := 106) (by decide) p0.isLt p1.isLt p2.isLt hn
  have hw : w.toNat = n := (word_of (x := 0x6A000000 + p0.toNat * 0x10000 + p1.toNat * 0x100 + p2.toNat) e (hn ▸ nlt)).trans hn.symm
  refine decode_of (op := 106) hw hop ?_
  show (unusedZero (fld n 7 4 == 0) (.ok (.ldsm (.ofNat 8 (fld n 23 16)) (.ofNat 8 (fld n 15 8)) (.ofNat 4 (fld n 3 0)))) : Decoded) = _
  rw [z0, ofNat_fld p0 f0, ofNat_fld p1 f1, ofNat_fld p2 f2]
  rfl

theorem layout23 {n op x0 x1 x2 : Nat} (ho : op < 0x100) (h0 : x0 < 2 ^ 4) (h1 : x1 < 2 ^ 8) (h2 : x2 < 2 ^ 8) (h : n = op * 0x1000000 + x0 * 0x10000 + x1 * 0x100 + x2) :
    n < 2 ^ 32 ∧ fld n 31 24 = op ∧ fld n 19 16 = x0 ∧ fld n 15 8 = x1 ∧ fld n 7 0 = x2 ∧ fld n 23 20 = 0 := by
  refine ⟨?_, fld_of ?_, fld_of ?_, fld_of ?_, fld_of ?_, fld_of ?_⟩ <;> omega

theorem stsm (p0 p1 p2) : Statement (.stsm p0 p1 p2) := by
  intro w g e
  obtain ⟨n, hn⟩ : ∃ n, n = 0x6B000000 + p0.toNat * 0x10000 + p1.toNat * 0x100 + p2.toNat := ⟨_, rfl⟩
  obtain ⟨nlt, hop, f0, f1, f2, z0⟩ := layout23 (op := 107) (by decide) p0.isLt p1.isLt p2.isLt hn
  have hw : w.toNat = n := (word_of (x := 0x6B000000 + p0.toNat * 0x10000 + p1.toNat * 0x100 + p2.toNat) e (hn ▸ nlt)).trans hn.symm
  refine decode_of (op := 107) hw hop ?_
  show (unusedZero (fld n 23 20 == 0) (.ok (.stsm (.ofNat 4 (fld n 19 16)) (.ofNat 8 (fld n 15 8)) (.ofNat 8 (fld n 7 0)))) : Decoded) = _
  rw [z0, ofNat_fld p0 f0, ofNat_fld p1 f1, ofNat_fld p2 f2]
  rfl

theorem spt (p0 p1) : Statement (.spt p0 p1) := by
  intro w g e
  obtain ⟨n, hn⟩ : ∃ n, n = 0x6C000000 + p0.toNat * 0x10000 + p1.toNat * 0x100 := ⟨_, rfl⟩
  obtain ⟨nlt, hop, f0, f1, z0⟩ := layout8 (op := 108) (by decide) p0.isLt p1.isLt hn
  have hw : w.toNat = n := (word_of (x := 0x6C000000 + p0.toNat * 0x10000 + p1.toNat * 0x100) e (hn ▸ nlt)).trans hn.symm
  refine decode_of (op := 108) hw hop ?_
  show (unusedZero (fld n 7 0 == 0) (.ok (.spt (.ofNat 8 (fld n 23 16)) (.ofNat 8 (fld n 15 8)))) : Decoded) = _
  rw [z0, ofNat_fld p0 f0, ofNat_fld p1 f1]
  rfl

theorem spc (p0 p1) : Statement (.spc p0 p1) := by
  intro w g e
  obtain ⟨n, hn⟩ : ∃ n, n = 0x6D000000 + p0.toNat * 0x10000 + p1.toNat * 0x100 := ⟨_, rfl⟩
  obtain ⟨nlt, hop, f0, f1, z0⟩ := layout8 (op := 109) (by decide) p0.isLt p1.isLt hn
  have hw : w.toNat = n := (word_of (x := 0x6D000000 + p0.toNat * 0x10000 + p1.toNat * 0x100) e (hn ▸ nlt)).trans hn.symm
  refine decode_of (op := 109) hw hop ?_
  show (unusedZero (fld n 7 0 == 0) (.ok (.spc (.ofNat 8 (fld n 23 16)) (.ofNat 8 (fld n 15 8)))) : Decoded) = _
  rw [z0, ofNat_fld p0 f0, ofNat_fld p1 f1]
  rfl

theorem layout24 {n op x0 x1 x2 : Nat} (ho : op < 0x100) (h0 : x0 < 2 ^ 2) (h1 : x1 < 2 ^ 2) (h2 : x2 < 2 ^ 8) (h : n = op * 0x1000000 + x0 * 0x40000 + x1 * 0x10000 + x2 * 0x100) :
    n < 2 ^ 32 ∧ fld n 31 24 = op ∧ fld n 19 18 = x0 ∧ fld n 17 16 = x1 ∧ fld n 15 8 = x2 ∧ fld n 23 20 = 0 ∧ fld n 7 0 = 0 := by
  refine ⟨?_, fld_of ?_, fld_of ?_, fld_of ?_, fld_of ?_, fld_of ?_, fld_of ?_⟩ <;> omega

theorem xsend (p0 p1 p2) : Statement (.xsend p0 p1 p2) := by
  intro w g e
  obtain ⟨n, hn⟩ : ∃ n, n = 0x6E000000 + p0.toNat * 0x40000 + p1.toNat * 0x10000 + p2.toNat * 0x100 := ⟨_, rfl⟩
  obtain ⟨nlt, hop, f0, f1, f2, z0, z1⟩ := layout24 (op := 110) (by decide) p0.isLt p1.isLt p2.isLt hn
  have hw : w.toNat = n := (word_of (x := 0x6E000000 + p0.toNat * 0x40000 + p1.toNat * 0x10000 + p2.toNat * 0x100) e (hn ▸ nlt)).trans hn.symm
  refine decode_of (op := 110) hw hop ?_
  show (unusedZero (fld n 23 20 == 0 && fld n 7 0 == 0) (.ok (.xsend (.ofNat 2 (fld n 19 18)) (.ofNat 2 (fld n 17 16)) (.ofNat 8 (fld n 15 8)))) : Decoded) = _
  rw [z0, z1, ofNat_fld p0 f0, ofNat_fld p1 f1, ofNat_fld p2 f2]
  rfl

theorem layout25 {n op x0 x1 x2 : Nat} (ho : op < 0x100) (h0 : x0 < 2 ^ 8) (h1 : x1 < 2 ^ 2) (h2 : x2 < 2 ^ 2) (h : n = op * 0x1000000 + x0 * 0x10000 + x1 * 0x400 + x2 * 0x100) :
    n < 2 ^ 32 ∧ fld n 31 24 = op ∧ fld n 23 16 = x0 ∧ fld n 11 10 = x1 ∧ fld n 9 8 = x2 ∧ fld n 15 12 = 0 ∧ fld n 7 0 = 0 := by
  refine ⟨?_, fld_of ?_, fld_of ?_, fld_of ?_, fld_of ?_, fld_of ?_, fld_of ?_⟩ <;> omega

theorem xrecv (p0 p1 p2) : Statement (.xrecv p0 p1 p2) := by
  intro w g e
  obtain ⟨n, hn⟩ : ∃ n, n = 0x6F000000 + p0.toNat * 0x10000 + p1.toNat * 0x400 + p2.toNat * 0x100 := ⟨_, rfl⟩
  obtain ⟨nlt, hop, f0, f1, f2, z0, z1⟩ := layout25 (op := 111) (by decide) p0.isLt p1.isLt p2.isLt hn
  have hw : w.toNat = n := (word_of (x := 0x6F000000 + p0.toNat * 0x10000 + p1.toNat * 0x400 + p2.toNat * 0x100) e (hn ▸ nlt)).trans hn.symm
  refine decode_of (op := 111) hw hop ?_
  show (unusedZero (fld n 15 12 == 0 && fld n 7 0 == 0) (.ok (.xrecv (.ofNat 8 (fld n 23 16)) (.ofNat 2 (fld n 11 10)) (.ofNat 2 (fld n 9 8)))) : Decoded) = _
  rw [z0, z1, ofNat_fld p0 f0, ofNat_fld p1 f1, ofNat_fld p2 f2]
  rfl

theorem ld (p0 p1 p2 p3) : Statement (.ld p0 p1 p2 p3) := by
  intro w g e
  obtain ⟨n, hn⟩ : ∃ n, n = 0x70000000 + p0.toNat * 0x10000 + p1.toNat * 0x100 + p2.toNat * 0x4 + p3.toNat := ⟨_, rfl⟩
  obtain ⟨nlt, hop, f0, f1, f2, f3, z0⟩ := layout20 (op := 112) (by decide) p0.isLt p1.isLt p2.isLt p3.isLt hn
  have g0 : (fld n 2 2 == 0 || decide (fld n 1 0 ≥ 2)) = true := by
    rw [f2, f3]
    rcases Bool.or_eq_true_iff.mp (Bool.and_eq_true_iff.mp g).1 with h | h
    · rw [eq_of_beq h]; rfl
    · rw [Bool.or_eq_true]; exact .inr h
  have hw : w.toNat = n := (word_of (x := 0x70000000 + p0.toNat * 0x10000 + p1.toNat * 0x100 + p2.toNat * 0x4 + p3.toNat) e (hn ▸ nlt)).trans hn.symm
  refine decode_of (op := 112) hw hop ?_
  show (unusedZero (fld n 7 3 == 0 && (fld n 2 2 == 0 || fld n 1 0 ≥ 2)) (.ok (.ld (.ofNat 8 (fld n 23 16)) (.ofNat 8 (fld n 15 8)) (.ofNat 1 (fld n 2 2)) (.ofNat 2 (fld n 1 0)))) : Decoded) = _
  rw [z0, g0, ofNat_fld p0 f0, ofNat_fld p1 f1, ofNat_fld p2 f2, ofNat_fld p3 f3]
  rfl

theorem ldb (p0 p1 p2 p3) : Statement (.ldb p0 p1 p2 p3) := by
  intro w g e
  obtain ⟨n, hn⟩ : ∃ n, n = 0x71000000 + p0.toNat * 0x10000 + p1.toNat * 0x100 + p2.toNat * 0x4 + p3.toNat := ⟨_, rfl⟩
  obtain ⟨nlt, hop, f0, f1, f2, f3, z0⟩ := layout20 (op := 113) (by decide) p0.isLt p1.isLt p2.isLt p3.isLt hn
  have g0 : (fld n 2 2 == 0 || decide (fld n 1 0 ≥ 2)) = true := by
    rw [f2, f3]
    rcases Bool.or_eq_true_iff.mp (Bool.and_eq_true_iff.mp g).1 with h | h
    · rw [eq_of_beq h]; rfl
    · rw [Bool.or_eq_true]; exact .inr h
  have hw : w.toNat = n := (word_of (x := 0x71000000 + p0.toNat * 0x10000 + p1.toNat * 0x100 + p2.toNat * 0x4 + p3.toNat) e (hn ▸ nlt)).trans hn.symm
  refine decode_of (op := 113) hw hop ?_
  show (unusedZero (fld n 7 3 == 0 && (fld n 2 2 == 0 || fld n 1 0 ≥ 2)) (.ok (.ldb (.ofNat 8 (fld n 23 16)) (.ofNat 8 (fld n 15 8)) (.ofNat 1 (fld n 2 2)) (.ofNat 2 (fld n 1 0)))) : Decoded) = _
  rw [z0, g0, ofNat_fld p0 f0, ofNat_fld p1 f1, ofNat_fld p2 f2, ofNat_fld p3 f3]
  rfl

theorem st (p0 p1 p2) : Statement (.st p0 p1 p2) := by
  intro w g e
  obtain ⟨n, hn⟩ : ∃ n, n = 0x72000000 + p0.toNat * 0x10000 + p1.toNat * 0x100 + p2.toNat := ⟨_, rfl⟩
  obtain ⟨nlt, hop, f0, f1, f2, z0⟩ := layout21 (op := 114) (by decide) p0.isLt p1.isLt p2.isLt hn
  have hw : w.toNat = n := (word_of (x := 0x72000000 + p0.toNat * 0x10000 + p1.toNat * 0x100 + p2.toNat) e (hn ▸ nlt)).trans hn.symm
  refine decode_of (op := 114) hw hop ?_
  show (unusedZero (fld n 23 18 == 0) (.ok (.st (.ofNat 2 (fld n 17 16)) (.ofNat 8 (fld n 15 8)) (.ofNat 8 (fld n 7 0)))) : Decoded) = _
  rw [z0, ofNat_fld p0 f0, ofNat_fld p1 f1, ofNat_fld p2 f2]
  rfl

theorem stb (p0 p1 p2) : Statement (.stb p0 p1 p2) := by
  intro w g e
  obtain ⟨n, hn⟩ : ∃ n, n = 0x73000000 + p0.toNat * 0x10000 + p1.toNat * 0x100 + p2.toNat := ⟨_, rfl⟩
  obtain ⟨nlt, hop, f0, f1, f2, z0⟩ := layout21 (op := 115) (by decide) p0.isLt p1.isLt p2.isLt hn
  have hw : w.toNat = n := (word_of (x := 0x73000000 + p0.toNat * 0x10000 + p1.toNat * 0x100 + p2.toNat) e (hn ▸ nlt)).trans hn.symm
  refine decode_of (op := 115) hw hop ?_
  show (unusedZero (fld n 23 18 == 0) (.ok (.stb (.ofNat 2 (fld n 17 16)) (.ofNat 8 (fld n 15 8)) (.ofNat 8 (fld n 7 0)))) : Decoded) = _
  rw [z0, ofNat_fld p0 f0, ofNat_fld p1 f1, ofNat_fld p2 f2]
  rfl

theorem ldm (p0 p1 p2) : Statement (.ldm p0 p1 p2) := by
  intro w g e
  obtain ⟨n, hn⟩ : ∃ n, n = 0x74000000 + p0.toNat * 0x10000 + p1.toNat * 0x100 + p2.toNat := ⟨_, rfl⟩
  obtain ⟨nlt, hop, f0, f1, f2, z0⟩ := layout22 (op := 116) (by decide) p0.isLt p1.isLt p2.isLt hn
  have hw : w.toNat = n := (word_of (x := 0x74000000 + p0.toNat * 0x10000 + p1.toNat * 0x100 + p2.toNat) e (hn ▸ nlt)).trans hn.symm
  refine decode_of (op := 116) hw hop ?_
  show (unusedZero (fld n 7 4 == 0) (.ok (.ldm (.ofNat 8 (fld n 23 16)) (.ofNat 8 (fld n 15 8)) (.ofNat 4 (fld n 3 0)))) : Decoded) = _
  rw [z0, ofNat_fld p0 f0, ofNat_fld p1 f1, ofNat_fld p2 f2]
  rfl

theorem stm (p0 p1 p2) : Statement (.stm p0 p1 p2) := by
  intro w g e
  obtain ⟨n, hn⟩ : ∃ n, n = 0x75000000 + p0.toNat * 0x10000 + p1.toNat * 0x100 + p2.toNat := ⟨_, rfl⟩
  obtain ⟨nlt, hop, f0, f1, f2, z0⟩ := layout23 (op := 117) (by decide) p0.isLt p1.isLt p2.isLt hn
  have hw : w.toNat = n := (word_of (x := 0x75000000 + p0.toNat * 0x10000 + p1.toNat * 0x100 + p2.toNat) e (hn ▸ nlt)).trans hn.symm
  refine decode_of (op := 117) hw hop ?_
  show (unusedZero (fld n 23 20 == 0) (.ok (.stm (.ofNat 4 (fld n 19 16)) (.ofNat 8 (fld n 15 8)) (.ofNat 8 (fld n 7 0)))) : Decoded) = _
  rw [z0, ofNat_fld p0 f0, ofNat_fld p1 f1, ofNat_fld p2 f2]
  rfl

theorem pref (p0) : Statement (.pref p0) := by
  intro w g e
  obtain ⟨n, hn⟩ : ∃ n, n = 0x76000000 + p0.toNat * 0x100 := ⟨_, rfl⟩
  obtain ⟨nlt, hop, f0, z0, z1⟩ := layout6 (op := 118) (by decide) p0.isLt hn
  have hw : w.toNat = n := (word_of (x := 0x76000000 + p0.toNat * 0x100) e (hn ▸ nlt)).trans hn.symm
  refine decode_of (op := 118) hw hop ?_
  show (unusedZero (fld n 23 16 == 0 && fld n 7 0 == 0) (.ok (.pref (.ofNat 8 (fld n 15 8)))) : Decoded) = _
  rw [z0, z1, ofNat_fld p0 f0]
  rfl

theorem chain (p0 p1) : Statement (.chain p0 p1) := by
  intro w g e
  obtain ⟨n, hn⟩ : ∃ n, n = 0x77000000 + p0.toNat * 0x10000 + p1.toNat * 0x100 := ⟨_, rfl⟩
  obtain ⟨nlt, hop, f0, f1, z0⟩ := layout8 (op := 119) (by decide) p0.isLt p1.isLt hn
  have hw : w.toNat = n := (word_of (x := 0x77000000 + p0.toNat * 0x10000 + p1.toNat * 0x100) e (hn ▸ nlt)).trans hn.symm
  refine decode_of (op := 119) hw hop ?_
  show (unusedZero (fld n 7 0 == 0) (.ok (.chain (.ofNat 8 (fld n 23 16)) (.ofNat 8 (fld n 15 8)))) : Decoded) = _
  rw [z0, ofNat_fld p0 f0, ofNat_fld p1 f1]
  rfl

theorem pin (p0) : Statement (.pin p0) := by
  intro w g e
  obtain ⟨n, hn⟩ : ∃ n, n = 0x78000000 + p0.toNat * 0x100 := ⟨_, rfl⟩
  obtain ⟨nlt, hop, f0, z0, z1⟩ := layout6 (op := 120) (by decide) p0.isLt hn
  have hw : w.toNat = n := (word_of (x := 0x78000000 + p0.toNat * 0x100) e (hn ▸ nlt)).trans hn.symm
  refine decode_of (op := 120) hw hop ?_
  show (unusedZero (fld n 23 16 == 0 && fld n 7 0 == 0) (.ok (.pin (.ofNat 8 (fld n 15 8)))) : Decoded) = _
  rw [z0, z1, ofNat_fld p0 f0]
  rfl

theorem unpin (p0) : Statement (.unpin p0) := by
  intro w g e
  obtain ⟨n, hn⟩ : ∃ n, n = 0x79000000 + p0.toNat * 0x100 := ⟨_, rfl⟩
  obtain ⟨nlt, hop, f0, z0, z1⟩ := layout6 (op := 121) (by decide) p0.isLt hn
  have hw : w.toNat = n := (word_of (x := 0x79000000 + p0.toNat * 0x100) e (hn ▸ nlt)).trans hn.symm
  refine decode_of (op := 121) hw hop ?_
  show (unusedZero (fld n 23 16 == 0 && fld n 7 0 == 0) (.ok (.unpin (.ofNat 8 (fld n 15 8)))) : Decoded) = _
  rw [z0, z1, ofNat_fld p0 f0]
  rfl

theorem lotwb (p0) : Statement (.lotwb p0) := by
  intro w g e
  obtain ⟨n, hn⟩ : ∃ n, n = 0x7A000000 + p0.toNat * 0x100 := ⟨_, rfl⟩
  obtain ⟨nlt, hop, f0, z0, z1⟩ := layout6 (op := 122) (by decide) p0.isLt hn
  have hw : w.toNat = n := (word_of (x := 0x7A000000 + p0.toNat * 0x100) e (hn ▸ nlt)).trans hn.symm
  refine decode_of (op := 122) hw hop ?_
  show (unusedZero (fld n 23 16 == 0 && fld n 7 0 == 0) (.ok (.lotwb (.ofNat 8 (fld n 15 8)))) : Decoded) = _
  rw [z0, z1, ofNat_fld p0 f0]
  rfl

theorem lotdrop (p0) : Statement (.lotdrop p0) := by
  intro w g e
  obtain ⟨n, hn⟩ : ∃ n, n = 0x7B000000 + p0.toNat * 0x100 := ⟨_, rfl⟩
  obtain ⟨nlt, hop, f0, z0, z1⟩ := layout6 (op := 123) (by decide) p0.isLt hn
  have hw : w.toNat = n := (word_of (x := 0x7B000000 + p0.toNat * 0x100) e (hn ▸ nlt)).trans hn.symm
  refine decode_of (op := 123) hw hop ?_
  show (unusedZero (fld n 23 16 == 0 && fld n 7 0 == 0) (.ok (.lotdrop (.ofNat 8 (fld n 15 8)))) : Decoded) = _
  rw [z0, z1, ofNat_fld p0 f0]
  rfl

theorem pgq (p0 p1 p2) : Statement (.pgq p0 p1 p2) := by
  intro w g e
  obtain ⟨n, hn⟩ : ∃ n, n = 0x7C000000 + p0.toNat * 0x10000 + p1.toNat * 0x100 + p2.toNat := ⟨_, rfl⟩
  obtain ⟨nlt, hop, f0, f1, f2⟩ := layout9 (op := 124) (by decide) p0.isLt p1.isLt p2.isLt hn
  have hw : w.toNat = n := (word_of (x := 0x7C000000 + p0.toNat * 0x10000 + p1.toNat * 0x100 + p2.toNat) e (hn ▸ nlt)).trans hn.symm
  refine decode_of (op := 124) hw hop ?_
  show (.ok (.pgq (.ofNat 8 (fld n 23 16)) (.ofNat 8 (fld n 15 8)) (.ofNat 8 (fld n 7 0))) : Decoded) = _
  rw [ofNat_fld p0 f0, ofNat_fld p1 f1, ofNat_fld p2 f2]

theorem tlbinv (p0 p1 p2) : Statement (.tlbinv p0 p1 p2) := by
  intro w g e
  obtain ⟨n, hn⟩ : ∃ n, n = 0x7D000000 + p0.toNat * 0x10000 + p1.toNat * 0x100 + p2.toNat := ⟨_, rfl⟩
  obtain ⟨nlt, hop, f0, f1, f2, z0⟩ := layout23 (op := 125) (by decide) p0.isLt p1.isLt p2.isLt hn
  have hw : w.toNat = n := (word_of (x := 0x7D000000 + p0.toNat * 0x10000 + p1.toNat * 0x100 + p2.toNat) e (hn ▸ nlt)).trans hn.symm
  refine decode_of (op := 125) hw hop ?_
  show (unusedZero (fld n 23 20 == 0) (.ok (.tlbinv (.ofNat 4 (fld n 19 16)) (.ofNat 8 (fld n 15 8)) (.ofNat 8 (fld n 7 0)))) : Decoded) = _
  rw [z0, ofNat_fld p0 f0, ofNat_fld p1 f1, ofNat_fld p2 f2]
  rfl

theorem tlbsync : Statement .tlbsync := by
  intro w g e
  obtain ⟨n, hn⟩ : ∃ n, n = 0x7E000000 := ⟨_, rfl⟩
  obtain ⟨nlt, hop, z0⟩ := layout7 (op := 126) (by decide) hn
  have hw : w.toNat = n := (word_of (x := 0x7E000000) e (hn ▸ nlt)).trans hn.symm
  refine decode_of (op := 126) hw hop ?_
  show (unusedZero (fld n 23 0 == 0) (.ok .tlbsync) : Decoded) = _
  rw [z0]
  rfl

theorem layout26 {n op x0 : Nat} (ho : op < 0x100) (h0 : x0 < 2 ^ 4) (h : n = op * 0x1000000 + x0 * 0x10000) :
    n < 2 ^ 32 ∧ fld n 31 24 = op ∧ fld n 19 16 = x0 ∧ fld n 15 0 = 0 ∧ fld n 23 20 = 0 := by
  refine ⟨?_, fld_of ?_, fld_of ?_, fld_of ?_, fld_of ?_⟩ <;> omega

theorem bar (p0) : Statement (.bar p0) := by
  intro w g e
  obtain ⟨n, hn⟩ : ∃ n, n = 0x80000000 + p0.toNat * 0x10000 := ⟨_, rfl⟩
  obtain ⟨nlt, hop, f0, z0, z1⟩ := layout26 (op := 128) (by decide) p0.isLt hn
  have hw : w.toNat = n := (word_of (x := 0x80000000 + p0.toNat * 0x10000) e (hn ▸ nlt)).trans hn.symm
  refine decode_of (op := 128) hw hop ?_
  show (unusedZero (fld n 15 0 == 0) (operandOk (fld n 23 20 == 0) (.ok (.bar (.ofNat 4 (fld n 19 16))))) : Decoded) = _
  rw [z0, z1, ofNat_fld p0 f0]
  rfl

theorem barar_arm {n : Nat} (h : fld n 7 0 = 0) : decodeOps80 129 n = operandOk (fld n 23 20 == 0) (operandOk (fld n 15 8 == 0) (.ok (.barar (.ofNat 4 (fld n 19 16))))) := by
  unfold decodeOps80
  rw [h]
  rfl

theorem layout27 {n op x0 : Nat} (ho : op < 0x100) (h0 : x0 < 2 ^ 4) (h : n = op * 0x1000000 + x0 * 0x10000) :
    n < 2 ^ 32 ∧ fld n 31 24 = op ∧ fld n 19 16 = x0 ∧ fld n 23 20 = 0 ∧ fld n 15 8 = 0 ∧ fld n 7 0 = 0 := by
  refine ⟨?_, fld_of ?_, fld_of ?_, fld_of ?_, fld_of ?_, fld_of ?_⟩ <;> omega

theorem barar (p0) : Statement (.barar p0) := by
  intro w g e
  obtain ⟨n, hn⟩ : ∃ n, n = 0x81000000 + p0.toNat * 0x10000 := ⟨_, rfl⟩
  obtain ⟨nlt, hop, f0, z0, z1, y⟩ := layout27 (op := 129) (by decide) p0.isLt hn
  have hw : w.toNat = n := (word_of (x := 0x81000000 + p0.toNat * 0x10000) e (hn ▸ nlt)).trans hn.symm
  refine decode_of (op := 129) hw hop ?_
  refine (barar_arm y).trans ?_
  rw [z0, z1, ofNat_fld p0 f0]
  rfl

theorem bararArm_arm {n : Nat} (h : fld n 7 0 = 1) : decodeOps80 129 n = operandOk (fld n 23 20 == 0) (.ok (.bararArm (.ofNat 4 (fld n 19 16)) (.ofNat 8 (fld n 15 8)))) := by
  unfold decodeOps80
  rw [h]
  rfl

theorem layout28 {n op x0 x1 : Nat} (ho : op < 0x100) (h0 : x0 < 2 ^ 4) (h1 : x1 < 2 ^ 8) (h : n = op * 0x1000000 + 0x1 + x0 * 0x10000 + x1 * 0x100) :
    n < 2 ^ 32 ∧ fld n 31 24 = op ∧ fld n 19 16 = x0 ∧ fld n 15 8 = x1 ∧ fld n 23 20 = 0 ∧ fld n 7 0 = 1 := by
  refine ⟨?_, fld_of ?_, fld_of ?_, fld_of ?_, fld_of ?_, fld_of ?_⟩ <;> omega

theorem bararArm (p0 p1) : Statement (.bararArm p0 p1) := by
  intro w g e
  obtain ⟨n, hn⟩ : ∃ n, n = 0x81000001 + p0.toNat * 0x10000 + p1.toNat * 0x100 := ⟨_, rfl⟩
  obtain ⟨nlt, hop, f0, f1, z0, y⟩ := layout28 (op := 129) (by decide) p0.isLt p1.isLt hn
  have hw : w.toNat = n := (word_of (x := 0x81000001 + p0.toNat * 0x10000 + p1.toNat * 0x100) e (hn ▸ nlt)).trans hn.symm
  refine decode_of (op := 129) hw hop ?_
  refine (bararArm_arm y).trans ?_
  rw [z0, ofNat_fld p0 f0, ofNat_fld p1 f1]
  rfl

theorem barw (p0) : Statement (.barw p0) := by
  intro w g e
  obtain ⟨n, hn⟩ : ∃ n, n = 0x82000000 + p0.toNat * 0x10000 := ⟨_, rfl⟩
  obtain ⟨nlt, hop, f0, z0, z1⟩ := layout26 (op := 130) (by decide) p0.isLt hn
  have hw : w.toNat = n := (word_of (x := 0x82000000 + p0.toNat * 0x10000) e (hn ▸ nlt)).trans hn.symm
  refine decode_of (op := 130) hw hop ?_
  show (unusedZero (fld n 15 0 == 0) (operandOk (fld n 23 20 == 0) (.ok (.barw (.ofNat 4 (fld n 19 16))))) : Decoded) = _
  rw [z0, z1, ofNat_fld p0 f0]
  rfl

theorem barst (p0 p1) : Statement (.barst p0 p1) := by
  intro w g e
  obtain ⟨n, hn⟩ : ∃ n, n = 0x83000000 + p0.toNat * 0x10000 + p1.toNat * 0x100 := ⟨_, rfl⟩
  obtain ⟨nlt, hop, f0, f1, z0, z1⟩ := layout12 (op := 131) (by decide) p0.isLt p1.isLt hn
  have hw : w.toNat = n := (word_of (x := 0x83000000 + p0.toNat * 0x10000 + p1.toNat * 0x100) e (hn ▸ nlt)).trans hn.symm
  refine decode_of (op := 131) hw hop ?_
  show (unusedZero (fld n 7 0 == 0) (operandOk (fld n 15 12 == 0) (.ok (.barst (.ofNat 8 (fld n 23 16)) (.ofNat 4 (fld n 11 8))))) : Decoded) = _
  rw [z0, z1, ofNat_fld p0 f0, ofNat_fld p1 f1]
  rfl

theorem gbar (p0) : Statement (.gbar p0) := by
  intro w g e
  obtain ⟨n, hn⟩ : ∃ n, n = 0x84000000 + p0.toNat * 0x10000 := ⟨_, rfl⟩
  obtain ⟨nlt, hop, f0, z0⟩ := layout1 (op := 132) (by decide) p0.isLt hn
  have hw : w.toNat = n := (word_of (x := 0x84000000 + p0.toNat * 0x10000) e (hn ▸ nlt)).trans hn.symm
  refine decode_of (op := 132) hw hop ?_
  show (unusedZero (fld n 15 0 == 0) (.ok (.gbar (.ofNat 8 (fld n 23 16)))) : Decoded) = _
  rw [z0, ofNat_fld p0 f0]
  rfl

theorem layout29 {n op x0 : Nat} (ho : op < 0x100) (h0 : x0 < 2 ^ 12) (h : n = op * 0x1000000 + x0) :
    n < 2 ^ 32 ∧ fld n 31 24 = op ∧ fld n 11 0 = x0 ∧ fld n 23 12 = 0 := by
  refine ⟨?_, fld_of ?_, fld_of ?_, fld_of ?_⟩ <;> omega

theorem fwait (p0) : Statement (.fwait p0) := by
  intro w g e
  obtain ⟨n, hn⟩ : ∃ n, n = 0x85000000 + p0.toNat := ⟨_, rfl⟩
  obtain ⟨nlt, hop, f0, z0⟩ := layout29 (op := 133) (by decide) p0.isLt hn
  have hw : w.toNat = n := (word_of (x := 0x85000000 + p0.toNat) e (hn ▸ nlt)).trans hn.symm
  refine decode_of (op := 133) hw hop ?_
  show (unusedZero (fld n 23 12 == 0) (.ok (.fwait (.ofNat 12 (fld n 11 0)))) : Decoded) = _
  rw [z0, ofNat_fld p0 f0]
  rfl

theorem layout30 {n op x0 x1 : Nat} (ho : op < 0x100) (h0 : x0 < 2 ^ 2) (h1 : x1 < 2 ^ 8) (h : n = op * 0x1000000 + x0 * 0x10000 + x1 * 0x100) :
    n < 2 ^ 32 ∧ fld n 31 24 = op ∧ fld n 17 16 = x0 ∧ fld n 15 8 = x1 ∧ fld n 23 18 = 0 ∧ fld n 7 0 = 0 := by
  refine ⟨?_, fld_of ?_, fld_of ?_, fld_of ?_, fld_of ?_, fld_of ?_⟩ <;> omega

theorem twait (p0 p1) : Statement (.twait p0 p1) := by
  intro w g e
  obtain ⟨n, hn⟩ : ∃ n, n = 0x86000000 + p0.toNat * 0x10000 + p1.toNat * 0x100 := ⟨_, rfl⟩
  obtain ⟨nlt, hop, f0, f1, z0, z1⟩ := layout30 (op := 134) (by decide) p0.isLt p1.isLt hn
  have hw : w.toNat = n := (word_of (x := 0x86000000 + p0.toNat * 0x10000 + p1.toNat * 0x100) e (hn ▸ nlt)).trans hn.symm
  refine decode_of (op := 134) hw hop ?_
  show (unusedZero (fld n 23 18 == 0 && fld n 7 0 == 0) (.ok (.twait (.ofNat 2 (fld n 17 16)) (.ofNat 8 (fld n 15 8)))) : Decoded) = _
  rw [z0, z1, ofNat_fld p0 f0, ofNat_fld p1 f1]
  rfl

theorem layout31 {n op x0 x1 : Nat} (ho : op < 0x100) (h0 : x0 < 2 ^ 8) (h1 : x1 < 2 ^ 2) (h : n = op * 0x1000000 + x0 * 0x10000 + x1) :
    n < 2 ^ 32 ∧ fld n 31 24 = op ∧ fld n 23 16 = x0 ∧ fld n 1 0 = x1 ∧ fld n 15 2 = 0 := by
  refine ⟨?_, fld_of ?_, fld_of ?_, fld_of ?_, fld_of ?_⟩ <;> omega

theorem tget (p0 p1) : Statement (.tget p0 p1) := by
  intro w g e
  obtain ⟨n, hn⟩ : ∃ n, n = 0x87000000 + p0.toNat * 0x10000 + p1.toNat := ⟨_, rfl⟩
  obtain ⟨nlt, hop, f0, f1, z0⟩ := layout31 (op := 135) (by decide) p0.isLt p1.isLt hn
  have hw : w.toNat = n := (word_of (x := 0x87000000 + p0.toNat * 0x10000 + p1.toNat) e (hn ▸ nlt)).trans hn.symm
  refine decode_of (op := 135) hw hop ?_
  show (unusedZero (fld n 15 2 == 0) (.ok (.tget (.ofNat 8 (fld n 23 16)) (.ofNat 2 (fld n 1 0)))) : Decoded) = _
  rw [z0, ofNat_fld p0 f0, ofNat_fld p1 f1]
  rfl

theorem layout32 {n op x0 : Nat} (ho : op < 0x100) (h0 : x0 < 2 ^ 3) (h : n = op * 0x1000000 + x0 * 0x10000) :
    n < 2 ^ 32 ∧ fld n 31 24 = op ∧ fld n 18 16 = x0 ∧ fld n 23 19 = 0 ∧ fld n 15 0 = 0 := by
  refine ⟨?_, fld_of ?_, fld_of ?_, fld_of ?_, fld_of ?_⟩ <;> omega

theorem fence (p0) : Statement (.fence p0) := by
  intro w g e
  obtain ⟨n, hn⟩ : ∃ n, n = 0x88000000 + p0.toNat * 0x10000 := ⟨_, rfl⟩
  obtain ⟨nlt, hop, f0, z0, z1⟩ := layout32 (op := 136) (by decide) p0.isLt hn
  have hw : w.toNat = n := (word_of (x := 0x88000000 + p0.toNat * 0x10000) e (hn ▸ nlt)).trans hn.symm
  refine decode_of (op := 136) hw hop ?_
  show (unusedZero (fld n 23 19 == 0 && fld n 15 0 == 0) (.ok (.fence (.ofNat 3 (fld n 18 16)))) : Decoded) = _
  rw [z0, z1, ofNat_fld p0 f0]
  rfl

theorem layout33 {n op x0 x1 x2 x3 x4 : Nat} (ho : op < 0x100) (h0 : x0 < 2 ^ 3) (h1 : x1 < 2 ^ 3) (h2 : x2 < 2 ^ 2) (h3 : x3 < 2 ^ 8) (h4 : x4 < 2 ^ 8) (h : n = op * 0x1000000 + x0 * 0x200000 + x1 * 0x40000 + x2 * 0x10000 + x3 * 0x100 + x4) :
    n < 2 ^ 32 ∧ fld n 31 24 = op ∧ fld n 23 21 = x0 ∧ fld n 20 18 = x1 ∧ fld n 17 16 = x2 ∧ fld n 15 8 = x3 ∧ fld n 7 0 = x4 := by
  refine ⟨?_, fld_of ?_, fld_of ?_, fld_of ?_, fld_of ?_, fld_of ?_, fld_of ?_⟩ <;> omega

theorem atom (p0 p1 p2 p3 p4) : Statement (.atom p0 p1 p2 p3 p4) := by
  intro w g e
  obtain ⟨n, hn⟩ : ∃ n, n = 0x89000000 + p0.toNat * 0x200000 + p1.toNat * 0x40000 + p2.toNat * 0x10000 + p3.toNat * 0x100 + p4.toNat := ⟨_, rfl⟩
  obtain ⟨nlt, hop, f0, f1, f2, f3, f4⟩ := layout33 (op := 137) (by decide) p0.isLt p1.isLt p2.isLt p3.isLt p4.isLt hn
  have hw : w.toNat = n := (word_of (x := 0x89000000 + p0.toNat * 0x200000 + p1.toNat * 0x40000 + p2.toNat * 0x10000 + p3.toNat * 0x100 + p4.toNat) e (hn ▸ nlt)).trans hn.symm
  refine decode_of (op := 137) hw hop ?_
  show (.ok (.atom (.ofNat 3 (fld n 23 21)) (.ofNat 3 (fld n 20 18)) (.ofNat 2 (fld n 17 16)) (.ofNat 8 (fld n 15 8)) (.ofNat 8 (fld n 7 0))) : Decoded) = _
  rw [ofNat_fld p0 f0, ofNat_fld p1 f1, ofNat_fld p2 f2, ofNat_fld p3 f3, ofNat_fld p4 f4]

theorem atomn (p0 p1 p2 p3 p4) : Statement (.atomn p0 p1 p2 p3 p4) := by
  intro w g e
  obtain ⟨n, hn⟩ : ∃ n, n = 0x8A000000 + p0.toNat * 0x200000 + p1.toNat * 0x40000 + p2.toNat * 0x10000 + p3.toNat * 0x100 + p4.toNat := ⟨_, rfl⟩
  obtain ⟨nlt, hop, f0, f1, f2, f3, f4⟩ := layout33 (op := 138) (by decide) p0.isLt p1.isLt p2.isLt p3.isLt p4.isLt hn
  have hw : w.toNat = n := (word_of (x := 0x8A000000 + p0.toNat * 0x200000 + p1.toNat * 0x40000 + p2.toNat * 0x10000 + p3.toNat * 0x100 + p4.toNat) e (hn ▸ nlt)).trans hn.symm
  refine decode_of (op := 138) hw hop ?_
  show (.ok (.atomn (.ofNat 3 (fld n 23 21)) (.ofNat 3 (fld n 20 18)) (.ofNat 2 (fld n 17 16)) (.ofNat 8 (fld n 15 8)) (.ofNat 8 (fld n 7 0))) : Decoded) = _
  rw [ofNat_fld p0 f0, ofNat_fld p1 f1, ofNat_fld p2 f2, ofNat_fld p3 f3, ofNat_fld p4 f4]

theorem layout34 {n op x0 x1 x2 x3 : Nat} (ho : op < 0x100) (h0 : x0 < 2 ^ 3) (h1 : x1 < 2 ^ 2) (h2 : x2 < 2 ^ 8) (h3 : x3 < 2 ^ 8) (h : n = op * 0x1000000 + x0 * 0x40000 + x1 * 0x10000 + x2 * 0x100 + x3) :
    n < 2 ^ 32 ∧ fld n 31 24 = op ∧ fld n 20 18 = x0 ∧ fld n 17 16 = x1 ∧ fld n 15 8 = x2 ∧ fld n 7 0 = x3 ∧ fld n 23 21 = 0 := by
  refine ⟨?_, fld_of ?_, fld_of ?_, fld_of ?_, fld_of ?_, fld_of ?_, fld_of ?_⟩ <;> omega

theorem cas (p0 p1 p2 p3) : Statement (.cas p0 p1 p2 p3) := by
  intro w g e
  obtain ⟨n, hn⟩ : ∃ n, n = 0x8B000000 + p0.toNat * 0x40000 + p1.toNat * 0x10000 + p2.toNat * 0x100 + p3.toNat := ⟨_, rfl⟩
  obtain ⟨nlt, hop, f0, f1, f2, f3, z0⟩ := layout34 (op := 139) (by decide) p0.isLt p1.isLt p2.isLt p3.isLt hn
  have hw : w.toNat = n := (word_of (x := 0x8B000000 + p0.toNat * 0x40000 + p1.toNat * 0x10000 + p2.toNat * 0x100 + p3.toNat) e (hn ▸ nlt)).trans hn.symm
  refine decode_of (op := 139) hw hop ?_
  show (unusedZero (fld n 23 21 == 0) (.ok (.cas (.ofNat 3 (fld n 20 18)) (.ofNat 2 (fld n 17 16)) (.ofNat 8 (fld n 15 8)) (.ofNat 8 (fld n 7 0)))) : Decoded) = _
  rw [z0, ofNat_fld p0 f0, ofNat_fld p1 f1, ofNat_fld p2 f2, ofNat_fld p3 f3]
  rfl

theorem layout35 {n op x0 x1 x2 : Nat} (ho : op < 0x100) (h0 : x0 < 2 ^ 3) (h1 : x1 < 2 ^ 8) (h2 : x2 < 2 ^ 8) (h : n = op * 0x1000000 + x0 * 0x200000 + x1 * 0x100 + x2) :
    n < 2 ^ 32 ∧ fld n 31 24 = op ∧ fld n 23 21 = x0 ∧ fld n 15 8 = x1 ∧ fld n 7 0 = x2 ∧ fld n 20 16 = 0 := by
  refine ⟨?_, fld_of ?_, fld_of ?_, fld_of ?_, fld_of ?_, fld_of ?_⟩ <;> omega

theorem atomsc (p0 p1 p2) : Statement (.atomsc p0 p1 p2) := by
  intro w g e
  obtain ⟨n, hn⟩ : ∃ n, n = 0x8C000000 + p0.toNat * 0x200000 + p1.toNat * 0x100 + p2.toNat := ⟨_, rfl⟩
  obtain ⟨nlt, hop, f0, f1, f2, z0⟩ := layout35 (op := 140) (by decide) p0.isLt p1.isLt p2.isLt hn
  have hw : w.toNat = n := (word_of (x := 0x8C000000 + p0.toNat * 0x200000 + p1.toNat * 0x100 + p2.toNat) e (hn ▸ nlt)).trans hn.symm
  refine decode_of (op := 140) hw hop ?_
  show (unusedZero (fld n 20 16 == 0) (.ok (.atomsc (.ofNat 3 (fld n 23 21)) (.ofNat 8 (fld n 15 8)) (.ofNat 8 (fld n 7 0)))) : Decoded) = _
  rw [z0, ofNat_fld p0 f0, ofNat_fld p1 f1, ofNat_fld p2 f2]
  rfl

theorem layout36 {n op x0 x1 x2 x3 : Nat} (ho : op < 0x100) (h0 : x0 < 2 ^ 8) (h1 : x1 < 2 ^ 8) (h2 : x2 < 2 ^ 1) (h3 : x3 < 2 ^ 3) (h : n = op * 0x1000000 + x0 * 0x10000 + x1 * 0x100 + x2 * 0x8 + x3) :
    n < 2 ^ 32 ∧ fld n 31 24 = op ∧ fld n 23 16 = x0 ∧ fld n 15 8 = x1 ∧ fld n 3 3 = x2 ∧ fld n 2 0 = x3 ∧ fld n 7 4 = 0 := by
  refine ⟨?_, fld_of ?_, fld_of ?_, fld_of ?_, fld_of ?_, fld_of ?_, fld_of ?_⟩ <;> omega

theorem lda (p0 p1 p2 p3) : Statement (.lda p0 p1 p2 p3) := by
  intro w g e
  obtain ⟨n, hn⟩ : ∃ n, n = 0x8D000000 + p0.toNat * 0x10000 + p1.toNat * 0x100 + p2.toNat * 0x8 + p3.toNat := ⟨_, rfl⟩
  obtain ⟨nlt, hop, f0, f1, f2, f3, z0⟩ := layout36 (op := 141) (by decide) p0.isLt p1.isLt p2.isLt p3.isLt hn
  have hw : w.toNat = n := (word_of (x := 0x8D000000 + p0.toNat * 0x10000 + p1.toNat * 0x100 + p2.toNat * 0x8 + p3.toNat) e (hn ▸ nlt)).trans hn.symm
  refine decode_of (op := 141) hw hop ?_
  show (unusedZero (fld n 7 4 == 0) (.ok (.lda (.ofNat 8 (fld n 23 16)) (.ofNat 8 (fld n 15 8)) (.ofNat 1 (fld n 3 3)) (.ofNat 3 (fld n 2 0)))) : Decoded) = _
  rw [z0, ofNat_fld p0 f0, ofNat_fld p1 f1, ofNat_fld p2 f2, ofNat_fld p3 f3]
  rfl

theorem layout37 {n op x0 x1 x2 x3 : Nat} (ho : op < 0x100) (h0 : x0 < 2 ^ 1) (h1 : x1 < 2 ^ 3) (h2 : x2 < 2 ^ 8) (h3 : x3 < 2 ^ 8) (h : n = op * 0x1000000 + x0 * 0x80000 + x1 * 0x10000 + x2 * 0x100 + x3) :
    n < 2 ^ 32 ∧ fld n 31 24 = op ∧ fld n 19 19 = x0 ∧ fld n 18 16 = x1 ∧ fld n 15 8 = x2 ∧ fld n 7 0 = x3 ∧ fld n 23 20 = 0 := by
  refine ⟨?_, fld_of ?_, fld_of ?_, fld_of ?_, fld_of ?_, fld_of ?_, fld_of ?_⟩ <;> omega

theorem stl (p0 p1 p2 p3) : Statement (.stl p0 p1 p2 p3) := by
  intro w g e
  obtain ⟨n, hn⟩ : ∃ n, n = 0x8E000000 + p0.toNat * 0x80000 + p1.toNat * 0x10000 + p2.toNat * 0x100 + p3.toNat := ⟨_, rfl⟩
  obtain ⟨nlt, hop, f0, f1, f2, f3, z0⟩ := layout37 (op := 142) (by decide) p0.isLt p1.isLt p2.isLt p3.isLt hn
  have hw : w.toNat = n := (word_of (x := 0x8E000000 + p0.toNat * 0x80000 + p1.toNat * 0x10000 + p2.toNat * 0x100 + p3.toNat) e (hn ▸ nlt)).trans hn.symm
  refine decode_of (op := 142) hw hop ?_
  show (unusedZero (fld n 23 20 == 0) (.ok (.stl (.ofNat 1 (fld n 19 19)) (.ofNat 3 (fld n 18 16)) (.ofNat 8 (fld n 15 8)) (.ofNat 8 (fld n 7 0)))) : Decoded) = _
  rw [z0, ofNat_fld p0 f0, ofNat_fld p1 f1, ofNat_fld p2 f2, ofNat_fld p3 f3]
  rfl

theorem ldar (p0 p1 p2 p3) : Statement (.ldar p0 p1 p2 p3) := by
  intro w g e
  obtain ⟨n, hn⟩ : ∃ n, n = 0x8F000000 + p0.toNat * 0x10000 + p1.toNat * 0x100 + p2.toNat * 0x8 + p3.toNat := ⟨_, rfl⟩
  obtain ⟨nlt, hop, f0, f1, f2, f3, z0⟩ := layout36 (op := 143) (by decide) p0.isLt p1.isLt p2.isLt p3.isLt hn
  have hw : w.toNat = n := (word_of (x := 0x8F000000 + p0.toNat * 0x10000 + p1.toNat * 0x100 + p2.toNat * 0x8 + p3.toNat) e (hn ▸ nlt)).trans hn.symm
  refine decode_of (op := 143) hw hop ?_
  show (unusedZero (fld n 7 4 == 0) (.ok (.ldar (.ofNat 8 (fld n 23 16)) (.ofNat 8 (fld n 15 8)) (.ofNat 1 (fld n 3 3)) (.ofNat 3 (fld n 2 0)))) : Decoded) = _
  rw [z0, ofNat_fld p0 f0, ofNat_fld p1 f1, ofNat_fld p2 f2, ofNat_fld p3 f3]
  rfl

theorem mon (p0) : Statement (.mon p0) := by
  intro w g e
  obtain ⟨n, hn⟩ : ∃ n, n = 0x90000000 + p0.toNat * 0x100 := ⟨_, rfl⟩
  obtain ⟨nlt, hop, f0, z0, z1⟩ := layout6 (op := 144) (by decide) p0.isLt hn
  have hw : w.toNat = n := (word_of (x := 0x90000000 + p0.toNat * 0x100) e (hn ▸ nlt)).trans hn.symm
  refine decode_of (op := 144) hw hop ?_
  show (unusedZero (fld n 23 16 == 0 && fld n 7 0 == 0) (.ok (.mon (.ofNat 8 (fld n 15 8)))) : Decoded) = _
  rw [z0, z1, ofNat_fld p0 f0]
  rfl

theorem mwait (p0) : Statement (.mwait p0) := by
  intro w g e
  obtain ⟨n, hn⟩ : ∃ n, n = 0x91000000 + p0.toNat * 0x100 := ⟨_, rfl⟩
  obtain ⟨nlt, hop, f0, z0, z1⟩ := layout6 (op := 145) (by decide) p0.isLt hn
  have hw : w.toNat = n := (word_of (x := 0x91000000 + p0.toNat * 0x100) e (hn ▸ nlt)).trans hn.symm
  refine decode_of (op := 145) hw hop ?_
  show (unusedZero (fld n 23 16 == 0 && fld n 7 0 == 0) (.ok (.mwait (.ofNat 8 (fld n 15 8)))) : Decoded) = _
  rw [z0, z1, ofNat_fld p0 f0]
  rfl

theorem layout38 {n op x0 x1 x2 : Nat} (ho : op < 0x100) (h0 : x0 < 2 ^ 8) (h1 : x1 < 2 ^ 4) (h2 : x2 < 2 ^ 4) (h : n = op * 0x1000000 + x0 * 0x10000 + x1 * 0x1000 + x2 * 0x100) :
    n < 2 ^ 32 ∧ fld n 31 24 = op ∧ fld n 23 16 = x0 ∧ fld n 15 12 = x1 ∧ fld n 11 8 = x2 ∧ fld n 7 0 = 0 := by
  refine ⟨?_, fld_of ?_, fld_of ?_, fld_of ?_, fld_of ?_, fld_of ?_⟩ <;> omega

theorem cpy (p0 p1 p2) : Statement (.cpy p0 p1 p2) := by
  intro w g e
  obtain ⟨n, hn⟩ : ∃ n, n = 0xA0000000 + p0.toNat * 0x10000 + p1.toNat * 0x1000 + p2.toNat * 0x100 := ⟨_, rfl⟩
  obtain ⟨nlt, hop, f0, f1, f2, z0⟩ := layout38 (op := 160) (by decide) p0.isLt p1.isLt p2.isLt hn
  have hw : w.toNat = n := (word_of (x := 0xA0000000 + p0.toNat * 0x10000 + p1.toNat * 0x1000 + p2.toNat * 0x100) e (hn ▸ nlt)).trans hn.symm
  refine decode_of (op := 160) hw hop ?_
  show (unusedZero (fld n 7 0 == 0) (.ok (.cpy (.ofNat 8 (fld n 23 16)) (.ofNat 4 (fld n 15 12)) (.ofNat 4 (fld n 11 8)))) : Decoded) = _
  rw [z0, ofNat_fld p0 f0, ofNat_fld p1 f1, ofNat_fld p2 f2]
  rfl

theorem layout39 {n op x0 x1 x2 x3 : Nat} (ho : op < 0x100) (h0 : x0 < 2 ^ 8) (h1 : x1 < 2 ^ 4) (h2 : x2 < 2 ^ 4) (h3 : x3 < 2 ^ 8) (h : n = op * 0x1000000 + x0 * 0x10000 + x1 * 0x1000 + x2 * 0x100 + x3) :
    n < 2 ^ 32 ∧ fld n 31 24 = op ∧ fld n 23 16 = x0 ∧ fld n 15 12 = x1 ∧ fld n 11 8 = x2 ∧ fld n 7 0 = x3 := by
  refine ⟨?_, fld_of ?_, fld_of ?_, fld_of ?_, fld_of ?_, fld_of ?_⟩ <;> omega

theorem cpym (p0 p1 p2 p3) : Statement (.cpym p0 p1 p2 p3) := by
  intro w g e
  obtain ⟨n, hn⟩ : ∃ n, n = 0xA1000000 + p0.toNat * 0x10000 + p1.toNat * 0x1000 + p2.toNat * 0x100 + p3.toNat := ⟨_, rfl⟩
  obtain ⟨nlt, hop, f0, f1, f2, f3⟩ := layout39 (op := 161) (by decide) p0.isLt p1.isLt p2.isLt p3.isLt hn
  have hw : w.toNat = n := (word_of (x := 0xA1000000 + p0.toNat * 0x10000 + p1.toNat * 0x1000 + p2.toNat * 0x100 + p3.toNat) e (hn ▸ nlt)).trans hn.symm
  refine decode_of (op := 161) hw hop ?_
  show (.ok (.cpym (.ofNat 8 (fld n 23 16)) (.ofNat 4 (fld n 15 12)) (.ofNat 4 (fld n 11 8)) (.ofNat 8 (fld n 7 0))) : Decoded) = _
  rw [ofNat_fld p0 f0, ofNat_fld p1 f1, ofNat_fld p2 f2, ofNat_fld p3 f3]

theorem cpyq (p0 p1) : Statement (.cpyq p0 p1) := by
  intro w g e
  obtain ⟨n, hn⟩ : ∃ n, n = 0xA2000000 + p0.toNat * 0x10000 + p1.toNat * 0x100 := ⟨_, rfl⟩
  obtain ⟨nlt, hop, f0, f1, z0⟩ := layout8 (op := 162) (by decide) p0.isLt p1.isLt hn
  have hw : w.toNat = n := (word_of (x := 0xA2000000 + p0.toNat * 0x10000 + p1.toNat * 0x100) e (hn ▸ nlt)).trans hn.symm
  refine decode_of (op := 162) hw hop ?_
  show (unusedZero (fld n 7 0 == 0) (.ok (.cpyq (.ofNat 8 (fld n 23 16)) (.ofNat 8 (fld n 15 8)))) : Decoded) = _
  rw [z0, ofNat_fld p0 f0, ofNat_fld p1 f1]
  rfl

theorem layout40 {n op x0 x1 : Nat} (ho : op < 0x100) (h0 : x0 < 2 ^ 8) (h1 : x1 < 2 ^ 1) (h : n = op * 0x1000000 + x0 * 0x100 + x1) :
    n < 2 ^ 32 ∧ fld n 31 24 = op ∧ fld n 15 8 = x0 ∧ fld n 0 0 = x1 ∧ fld n 23 16 = 0 ∧ fld n 7 1 = 0 := by
  refine ⟨?_, fld_of ?_, fld_of ?_, fld_of ?_, fld_of ?_, fld_of ?_⟩ <;> omega

theorem sleepu (p0 p1) : Statement (.sleepu p0 p1) := by
  intro w g e
  obtain ⟨n, hn⟩ : ∃ n, n = 0xA3000000 + p0.toNat * 0x100 + p1.toNat := ⟨_, rfl⟩
  obtain ⟨nlt, hop, f0, f1, z0, z1⟩ := layout40 (op := 163) (by decide) p0.isLt p1.isLt hn
  have hw : w.toNat = n := (word_of (x := 0xA3000000 + p0.toNat * 0x100 + p1.toNat) e (hn ▸ nlt)).trans hn.symm
  refine decode_of (op := 163) hw hop ?_
  show (unusedZero (fld n 23 16 == 0 && fld n 7 1 == 0) (.ok (.sleepu (.ofNat 8 (fld n 15 8)) (.ofNat 1 (fld n 0 0)))) : Decoded) = _
  rw [z0, z1, ofNat_fld p0 f0, ofNat_fld p1 f1]
  rfl

theorem fixqRetry_arm {n : Nat} (h : fld n 16 16 = 0) : decodeOpsA0 164 n = unusedZero (fld n 23 17 == 0) (.ok (.fixqRetry (.ofNat 8 (fld n 15 8)) (.ofNat 8 (fld n 7 0)))) := by
  unfold decodeOpsA0
  rw [h]
  rfl

theorem layout41 {n op x0 x1 : Nat} (ho : op < 0x100) (h0 : x0 < 2 ^ 8) (h1 : x1 < 2 ^ 8) (h : n = op * 0x1000000 + x0 * 0x100 + x1) :
    n < 2 ^ 32 ∧ fld n 31 24 = op ∧ fld n 15 8 = x0 ∧ fld n 7 0 = x1 ∧ fld n 23 17 = 0 ∧ fld n 16 16 = 0 := by
  refine ⟨?_, fld_of ?_, fld_of ?_, fld_of ?_, fld_of ?_, fld_of ?_⟩ <;> omega

theorem fixqRetry (p0 p1) : Statement (.fixqRetry p0 p1) := by
  intro w g e
  obtain ⟨n, hn⟩ : ∃ n, n = 0xA4000000 + p0.toNat * 0x100 + p1.toNat := ⟨_, rfl⟩
  obtain ⟨nlt, hop, f0, f1, z0, y⟩ := layout41 (op := 164) (by decide) p0.isLt p1.isLt hn
  have hw : w.toNat = n := (word_of (x := 0xA4000000 + p0.toNat * 0x100 + p1.toNat) e (hn ▸ nlt)).trans hn.symm
  refine decode_of (op := 164) hw hop ?_
  refine (fixqRetry_arm y).trans ?_
  rw [z0, ofNat_fld p0 f0, ofNat_fld p1 f1]
  rfl

theorem fixqFail_arm {n : Nat} (h : fld n 16 16 = 1) : decodeOpsA0 164 n = unusedZero (fld n 23 17 == 0) (.ok (.fixqFail (.ofNat 8 (fld n 15 8)) (.ofNat 8 (fld n 7 0)))) := by
  unfold decodeOpsA0
  rw [h]
  rfl

theorem layout42 {n op x0 x1 : Nat} (ho : op < 0x100) (h0 : x0 < 2 ^ 8) (h1 : x1 < 2 ^ 8) (h : n = op * 0x1000000 + 0x10000 + x0 * 0x100 + x1) :
    n < 2 ^ 32 ∧ fld n 31 24 = op ∧ fld n 15 8 = x0 ∧ fld n 7 0 = x1 ∧ fld n 23 17 = 0 ∧ fld n 16 16 = 1 := by
  refine ⟨?_, fld_of ?_, fld_of ?_, fld_of ?_, fld_of ?_, fld_of ?_⟩ <;> omega

theorem fixqFail (p0 p1) : Statement (.fixqFail p0 p1) := by
  intro w g e
  obtain ⟨n, hn⟩ : ∃ n, n = 0xA4010000 + p0.toNat * 0x100 + p1.toNat := ⟨_, rfl⟩
  obtain ⟨nlt, hop, f0, f1, z0, y⟩ := layout42 (op := 164) (by decide) p0.isLt p1.isLt hn
  have hw : w.toNat = n := (word_of (x := 0xA4010000 + p0.toNat * 0x100 + p1.toNat) e (hn ▸ nlt)).trans hn.symm
  refine decode_of (op := 164) hw hop ?_
  refine (fixqFail_arm y).trans ?_
  rw [z0, ofNat_fld p0 f0, ofNat_fld p1 f1]
  rfl

theorem shld (p0 p1) : Statement (.shld p0 p1) := by
  intro w g e
  obtain ⟨n, hn⟩ : ∃ n, n = 0xA5000000 + p0.toNat * 0x10000 + p1.toNat * 0x100 := ⟨_, rfl⟩
  obtain ⟨nlt, hop, f0, f1, z0, z1⟩ := layout13 (op := 165) (by decide) p0.isLt p1.isLt hn
  have hw : w.toNat = n := (word_of (x := 0xA5000000 + p0.toNat * 0x10000 + p1.toNat * 0x100) e (hn ▸ nlt)).trans hn.symm
  refine decode_of (op := 165) hw hop ?_
  show (unusedZero (fld n 7 0 == 0) (operandOk (fld n 23 20 == 0) (.ok (.shld (.ofNat 4 (fld n 19 16)) (.ofNat 8 (fld n 15 8))))) : Decoded) = _
  rw [z0, z1, ofNat_fld p0 f0, ofNat_fld p1 f1]
  rfl

theorem layout43 {n op x0 x1 x2 : Nat} (ho : op < 0x100) (h0 : x0 < 2 ^ 4) (h1 : x1 < 2 ^ 4) (h2 : x2 < 2 ^ 8) (h : n = op * 0x1000000 + x0 * 0x100000 + x1 * 0x10000 + x2 * 0x100) :
    n < 2 ^ 32 ∧ fld n 31 24 = op ∧ fld n 23 20 = x0 ∧ fld n 19 16 = x1 ∧ fld n 15 8 = x2 ∧ fld n 7 0 = 0 := by
  refine ⟨?_, fld_of ?_, fld_of ?_, fld_of ?_, fld_of ?_, fld_of ?_⟩ <;> omega

theorem shset (p0 p1 p2) : Statement (.shset p0 p1 p2) := by
  intro w g e
  obtain ⟨n, hn⟩ : ∃ n, n = 0xA6000000 + p0.toNat * 0x100000 + p1.toNat * 0x10000 + p2.toNat * 0x100 := ⟨_, rfl⟩
  obtain ⟨nlt, hop, f0, f1, f2, z0⟩ := layout43 (op := 166) (by decide) p0.isLt p1.isLt p2.isLt hn
  have hw : w.toNat = n := (word_of (x := 0xA6000000 + p0.toNat * 0x100000 + p1.toNat * 0x10000 + p2.toNat * 0x100) e (hn ▸ nlt)).trans hn.symm
  refine decode_of (op := 166) hw hop ?_
  show (unusedZero (fld n 7 0 == 0) (.ok (.shset (.ofNat 4 (fld n 23 20)) (.ofNat 4 (fld n 19 16)) (.ofNat 8 (fld n 15 8)))) : Decoded) = _
  rw [z0, ofNat_fld p0 f0, ofNat_fld p1 f1, ofNat_fld p2 f2]
  rfl

theorem shst (p0 p1) : Statement (.shst p0 p1) := by
  intro w g e
  obtain ⟨n, hn⟩ : ∃ n, n = 0xA7000000 + p0.toNat * 0x10000 + p1.toNat * 0x100 := ⟨_, rfl⟩
  obtain ⟨nlt, hop, f0, f1, z0, z1⟩ := layout13 (op := 167) (by decide) p0.isLt p1.isLt hn
  have hw : w.toNat = n := (word_of (x := 0xA7000000 + p0.toNat * 0x10000 + p1.toNat * 0x100) e (hn ▸ nlt)).trans hn.symm
  refine decode_of (op := 167) hw hop ?_
  show (unusedZero (fld n 7 0 == 0) (operandOk (fld n 23 20 == 0) (.ok (.shst (.ofNat 4 (fld n 19 16)) (.ofNat 8 (fld n 15 8))))) : Decoded) = _
  rw [z0, z1, ofNat_fld p0 f0, ofNat_fld p1 f1]
  rfl

theorem mgo (p0 p1 p2) : Statement (.mgo p0 p1 p2) := by
  intro w g e
  obtain ⟨n, hn⟩ : ∃ n, n = 0xA8000000 + p0.toNat * 0x10000 + p1.toNat * 0x100 + p2.toNat := ⟨_, rfl⟩
  obtain ⟨nlt, hop, f0, f1, f2⟩ := layout9 (op := 168) (by decide) p0.isLt p1.isLt p2.isLt hn
  have hw : w.toNat = n := (word_of (x := 0xA8000000 + p0.toNat * 0x10000 + p1.toNat * 0x100 + p2.toNat) e (hn ▸ nlt)).trans hn.symm
  refine decode_of (op := 168) hw hop ?_
  show (.ok (.mgo (.ofNat 8 (fld n 23 16)) (.ofNat 8 (fld n 15 8)) (.ofNat 8 (fld n 7 0))) : Decoded) = _
  rw [ofNat_fld p0 f0, ofNat_fld p1 f1, ofNat_fld p2 f2]

theorem mq (p0) : Statement (.mq p0) := by
  intro w g e
  obtain ⟨n, hn⟩ : ∃ n, n = 0xA9000000 + p0.toNat * 0x10000 := ⟨_, rfl⟩
  obtain ⟨nlt, hop, f0, z0⟩ := layout1 (op := 169) (by decide) p0.isLt hn
  have hw : w.toNat = n := (word_of (x := 0xA9000000 + p0.toNat * 0x10000) e (hn ▸ nlt)).trans hn.symm
  refine decode_of (op := 169) hw hop ?_
  show (unusedZero (fld n 15 0 == 0) (.ok (.mq (.ofNat 8 (fld n 23 16)))) : Decoded) = _
  rw [z0, ofNat_fld p0 f0]
  rfl

theorem mres (p0 p1) : Statement (.mres p0 p1) := by
  intro w g e
  obtain ⟨n, hn⟩ : ∃ n, n = 0xAA000000 + p0.toNat * 0x10000 + p1.toNat * 0x100 := ⟨_, rfl⟩
  obtain ⟨nlt, hop, f0, f1, z0⟩ := layout8 (op := 170) (by decide) p0.isLt p1.isLt hn
  have hw : w.toNat = n := (word_of (x := 0xAA000000 + p0.toNat * 0x10000 + p1.toNat * 0x100) e (hn ▸ nlt)).trans hn.symm
  refine decode_of (op := 170) hw hop ?_
  show (unusedZero (fld n 7 0 == 0) (.ok (.mres (.ofNat 8 (fld n 23 16)) (.ofNat 8 (fld n 15 8)))) : Decoded) = _
  rw [z0, ofNat_fld p0 f0, ofNat_fld p1 f1]
  rfl

theorem mabort (p0 p1) : Statement (.mabort p0 p1) := by
  intro w g e
  obtain ⟨n, hn⟩ : ∃ n, n = 0xAB000000 + p0.toNat * 0x10000 + p1.toNat * 0x100 := ⟨_, rfl⟩
  obtain ⟨nlt, hop, f0, f1, z0⟩ := layout8 (op := 171) (by decide) p0.isLt p1.isLt hn
  have hw : w.toNat = n := (word_of (x := 0xAB000000 + p0.toNat * 0x10000 + p1.toNat * 0x100) e (hn ▸ nlt)).trans hn.symm
  refine decode_of (op := 171) hw hop ?_
  show (unusedZero (fld n 7 0 == 0) (.ok (.mabort (.ofNat 8 (fld n 23 16)) (.ofNat 8 (fld n 15 8)))) : Decoded) = _
  rw [z0, ofNat_fld p0 f0, ofNat_fld p1 f1]
  rfl

theorem layout44 {n op x0 : Nat} (ho : op < 0x100) (h0 : x0 < 2 ^ 8) (h : n = op * 0x1000000 + x0) :
    n < 2 ^ 32 ∧ fld n 31 24 = op ∧ fld n 7 0 = x0 ∧ fld n 23 8 = 0 := by
  refine ⟨?_, fld_of ?_, fld_of ?_, fld_of ?_⟩ <;> omega

theorem zlen (p0) : Statement (.zlen p0) := by
  intro w g e
  obtain ⟨n, hn⟩ : ∃ n, n = 0xB0000000 + p0.toNat := ⟨_, rfl⟩
  obtain ⟨nlt, hop, f0, z0⟩ := layout44 (op := 176) (by decide) p0.isLt hn
  have hw : w.toNat = n := (word_of (x := 0xB0000000 + p0.toNat) e (hn ▸ nlt)).trans hn.symm
  refine decode_of (op := 176) hw hop ?_
  show (unusedZero (fld n 23 8 == 0) (.ok (.zlen (.ofNat 8 (fld n 7 0)))) : Decoded) = _
  rw [z0, ofNat_fld p0 f0]
  rfl

theorem zseed (p0 p1) : Statement (.zseed p0 p1) := by
  intro w g e
  obtain ⟨n, hn⟩ : ∃ n, n = 0xB1000000 + p0.toNat * 0x10000 + p1.toNat * 0x100 := ⟨_, rfl⟩
  obtain ⟨nlt, hop, f0, f1, z0, z1⟩ := layout13 (op := 177) (by decide) p0.isLt p1.isLt hn
  have hw : w.toNat = n := (word_of (x := 0xB1000000 + p0.toNat * 0x10000 + p1.toNat * 0x100) e (hn ▸ nlt)).trans hn.symm
  refine decode_of (op := 177) hw hop ?_
  show (unusedZero (fld n 7 0 == 0) (operandOk (fld n 23 20 == 0) (.ok (.zseed (.ofNat 4 (fld n 19 16)) (.ofNat 8 (fld n 15 8))))) : Decoded) = _
  rw [z0, z1, ofNat_fld p0 f0, ofNat_fld p1 f1]
  rfl

theorem layout45 {n op x0 x1 x2 x3 : Nat} (ho : op < 0x100) (h0 : x0 < 2 ^ 6) (h1 : x1 < 2 ^ 8) (h2 : x2 < 2 ^ 1) (h3 : x3 < 2 ^ 4) (h : n = op * 0x1000000 + x0 * 0x10000 + x1 * 0x100 + x2 * 0x80 + x3) :
    n < 2 ^ 32 ∧ fld n 31 24 = op ∧ fld n 21 16 = x0 ∧ fld n 15 8 = x1 ∧ fld n 7 7 = x2 ∧ fld n 3 0 = x3 ∧ fld n 6 4 = 0 ∧ fld n 23 22 = 0 := by
  refine ⟨?_, fld_of ?_, fld_of ?_, fld_of ?_, fld_of ?_, fld_of ?_, fld_of ?_, fld_of ?_⟩ <;> omega

theorem zenc (p0 p1 p2 p3) : Statement (.zenc p0 p1 p2 p3) := by
  intro w g e
  obtain ⟨n, hn⟩ : ∃ n, n = 0xB2000000 + p0.toNat * 0x10000 + p1.toNat * 0x100 + p2.toNat * 0x80 + p3.toNat := ⟨_, rfl⟩
  obtain ⟨nlt, hop, f0, f1, f2, f3, z0, z1⟩ := layout45 (op := 178) (by decide) p0.isLt p1.isLt p2.isLt p3.isLt hn
  have hw : w.toNat = n := (word_of (x := 0xB2000000 + p0.toNat * 0x10000 + p1.toNat * 0x100 + p2.toNat * 0x80 + p3.toNat) e (hn ▸ nlt)).trans hn.symm
  refine decode_of (op := 178) hw hop ?_
  show (unusedZero (fld n 6 4 == 0) (operandOk (fld n 23 22 == 0) (.ok (.zenc (.ofNat 6 (fld n 21 16)) (.ofNat 8 (fld n 15 8)) (.ofNat 1 (fld n 7 7)) (.ofNat 4 (fld n 3 0))))) : Decoded) = _
  rw [z0, z1, ofNat_fld p0 f0, ofNat_fld p1 f1, ofNat_fld p2 f2, ofNat_fld p3 f3]
  rfl

theorem layout46 {n op x0 x1 x2 : Nat} (ho : op < 0x100) (h0 : x0 < 2 ^ 8) (h1 : x1 < 2 ^ 6) (h2 : x2 < 2 ^ 1) (h : n = op * 0x1000000 + x0 * 0x10000 + x1 * 0x100 + x2 * 0x80) :
    n < 2 ^ 32 ∧ fld n 31 24 = op ∧ fld n 23 16 = x0 ∧ fld n 13 8 = x1 ∧ fld n 7 7 = x2 ∧ fld n 6 0 = 0 ∧ fld n 15 14 = 0 := by
  refine ⟨?_, fld_of ?_, fld_of ?_, fld_of ?_, fld_of ?_, fld_of ?_, fld_of ?_⟩ <;> omega

theorem zdec (p0 p1 p2) : Statement (.zdec p0 p1 p2) := by
  intro w g e
  obtain ⟨n, hn⟩ : ∃ n, n = 0xB3000000 + p0.toNat * 0x10000 + p1.toNat * 0x100 + p2.toNat * 0x80 := ⟨_, rfl⟩
  obtain ⟨nlt, hop, f0, f1, f2, z0, z1⟩ := layout46 (op := 179) (by decide) p0.isLt p1.isLt p2.isLt hn
  have hw : w.toNat = n := (word_of (x := 0xB3000000 + p0.toNat * 0x10000 + p1.toNat * 0x100 + p2.toNat * 0x80) e (hn ▸ nlt)).trans hn.symm
  refine decode_of (op := 179) hw hop ?_
  show (unusedZero (fld n 6 0 == 0) (operandOk (fld n 15 14 == 0) (.ok (.zdec (.ofNat 8 (fld n 23 16)) (.ofNat 6 (fld n 13 8)) (.ofNat 1 (fld n 7 7))))) : Decoded) = _
  rw [z0, z1, ofNat_fld p0 f0, ofNat_fld p1 f1, ofNat_fld p2 f2]
  rfl

theorem layout47 {n op x0 x1 x2 x3 : Nat} (ho : op < 0x100) (h0 : x0 < 2 ^ 6) (h1 : x1 < 2 ^ 6) (h2 : x2 < 2 ^ 1) (h3 : x3 < 2 ^ 6) (h : n = op * 0x1000000 + x0 * 0x10000 + x1 * 0x100 + x2 * 0x80 + x3) :
    n < 2 ^ 32 ∧ fld n 31 24 = op ∧ fld n 21 16 = x0 ∧ fld n 13 8 = x1 ∧ fld n 7 7 = x2 ∧ fld n 5 0 = x3 ∧ fld n 6 6 = 0 ∧ fld n 23 22 = 0 ∧ fld n 15 14 = 0 := by
  refine ⟨?_, fld_of ?_, fld_of ?_, fld_of ?_, fld_of ?_, fld_of ?_, fld_of ?_, fld_of ?_, fld_of ?_⟩ <;> omega

theorem zand (p0 p1 p2 p3) : Statement (.zand p0 p1 p2 p3) := by
  intro w g e
  obtain ⟨n, hn⟩ : ∃ n, n = 0xB4000000 + p0.toNat * 0x10000 + p1.toNat * 0x100 + p2.toNat * 0x80 + p3.toNat := ⟨_, rfl⟩
  obtain ⟨nlt, hop, f0, f1, f2, f3, z0, z1, z2⟩ := layout47 (op := 180) (by decide) p0.isLt p1.isLt p2.isLt p3.isLt hn
  have hw : w.toNat = n := (word_of (x := 0xB4000000 + p0.toNat * 0x10000 + p1.toNat * 0x100 + p2.toNat * 0x80 + p3.toNat) e (hn ▸ nlt)).trans hn.symm
  refine decode_of (op := 180) hw hop ?_
  show (unusedZero (fld n 6 6 == 0) (operandOk (fld n 23 22 == 0 && fld n 15 14 == 0) (.ok (.zand (.ofNat 6 (fld n 21 16)) (.ofNat 6 (fld n 13 8)) (.ofNat 1 (fld n 7 7)) (.ofNat 6 (fld n 5 0))))) : Decoded) = _
  rw [z0, z1, z2, ofNat_fld p0 f0, ofNat_fld p1 f1, ofNat_fld p2 f2, ofNat_fld p3 f3]
  rfl

theorem zxnor (p0 p1 p2 p3) : Statement (.zxnor p0 p1 p2 p3) := by
  intro w g e
  obtain ⟨n, hn⟩ : ∃ n, n = 0xB5000000 + p0.toNat * 0x10000 + p1.toNat * 0x100 + p2.toNat * 0x80 + p3.toNat := ⟨_, rfl⟩
  obtain ⟨nlt, hop, f0, f1, f2, f3, z0, z1, z2⟩ := layout47 (op := 181) (by decide) p0.isLt p1.isLt p2.isLt p3.isLt hn
  have hw : w.toNat = n := (word_of (x := 0xB5000000 + p0.toNat * 0x10000 + p1.toNat * 0x100 + p2.toNat * 0x80 + p3.toNat) e (hn ▸ nlt)).trans hn.symm
  refine decode_of (op := 181) hw hop ?_
  show (unusedZero (fld n 6 6 == 0) (operandOk (fld n 23 22 == 0 && fld n 15 14 == 0) (.ok (.zxnor (.ofNat 6 (fld n 21 16)) (.ofNat 6 (fld n 13 8)) (.ofNat 1 (fld n 7 7)) (.ofNat 6 (fld n 5 0))))) : Decoded) = _
  rw [z0, z1, z2, ofNat_fld p0 f0, ofNat_fld p1 f1, ofNat_fld p2 f2, ofNat_fld p3 f3]
  rfl

theorem zmin (p0 p1 p2 p3) : Statement (.zmin p0 p1 p2 p3) := by
  intro w g e
  obtain ⟨n, hn⟩ : ∃ n, n = 0xB6000000 + p0.toNat * 0x10000 + p1.toNat * 0x100 + p2.toNat * 0x80 + p3.toNat := ⟨_, rfl⟩
  obtain ⟨nlt, hop, f0, f1, f2, f3, z0, z1, z2⟩ := layout47 (op := 182) (by decide) p0.isLt p1.isLt p2.isLt p3.isLt hn
  have hw : w.toNat = n := (word_of (x := 0xB6000000 + p0.toNat * 0x10000 + p1.toNat * 0x100 + p2.toNat * 0x80 + p3.toNat) e (hn ▸ nlt)).trans hn.symm
  refine decode_of (op := 182) hw hop ?_
  show (unusedZero (fld n 6 6 == 0) (operandOk (fld n 23 22 == 0 && fld n 15 14 == 0) (.ok (.zmin (.ofNat 6 (fld n 21 16)) (.ofNat 6 (fld n 13 8)) (.ofNat 1 (fld n 7 7)) (.ofNat 6 (fld n 5 0))))) : Decoded) = _
  rw [z0, z1, z2, ofNat_fld p0 f0, ofNat_fld p1 f1, ofNat_fld p2 f2, ofNat_fld p3 f3]
  rfl

theorem layout48 {n op x0 x1 x2 x3 : Nat} (ho : op < 0x100) (h0 : x0 < 2 ^ 6) (h1 : x1 < 2 ^ 6) (h2 : x2 < 2 ^ 6) (h3 : x3 < 2 ^ 6) (h : n = op * 0x1000000 + x0 * 0x40000 + x1 * 0x1000 + x2 * 0x40 + x3) :
    n < 2 ^ 32 ∧ fld n 31 24 = op ∧ fld n 23 18 = x0 ∧ fld n 17 12 = x1 ∧ fld n 11 6 = x2 ∧ fld n 5 0 = x3 := by
  refine ⟨?_, fld_of ?_, fld_of ?_, fld_of ?_, fld_of ?_, fld_of ?_⟩ <;> omega

theorem zmux (p0 p1 p2 p3) : Statement (.zmux p0 p1 p2 p3) := by
  intro w g e
  obtain ⟨n, hn⟩ : ∃ n, n = 0xB7000000 + p0.toNat * 0x40000 + p1.toNat * 0x1000 + p2.toNat * 0x40 + p3.toNat := ⟨_, rfl⟩
  obtain ⟨nlt, hop, f0, f1, f2, f3⟩ := layout48 (op := 183) (by decide) p0.isLt p1.isLt p2.isLt p3.isLt hn
  have hw : w.toNat = n := (word_of (x := 0xB7000000 + p0.toNat * 0x40000 + p1.toNat * 0x1000 + p2.toNat * 0x40 + p3.toNat) e (hn ▸ nlt)).trans hn.symm
  refine decode_of (op := 183) hw hop ?_
  show (.ok (.zmux (.ofNat 6 (fld n 23 18)) (.ofNat 6 (fld n 17 12)) (.ofNat 6 (fld n 11 6)) (.ofNat 6 (fld n 5 0))) : Decoded) = _
  rw [ofNat_fld p0 f0, ofNat_fld p1 f1, ofNat_fld p2 f2, ofNat_fld p3 f3]

theorem layout49 {n op x0 x1 : Nat} (ho : op < 0x100) (h0 : x0 < 2 ^ 8) (h1 : x1 < 2 ^ 6) (h : n = op * 0x1000000 + x0 * 0x10000 + x1 * 0x100) :
    n < 2 ^ 32 ∧ fld n 31 24 = op ∧ fld n 23 16 = x0 ∧ fld n 13 8 = x1 ∧ fld n 7 0 = 0 ∧ fld n 15 14 = 0 := by
  refine ⟨?_, fld_of ?_, fld_of ?_, fld_of ?_, fld_of ?_, fld_of ?_⟩ <;> omega

theorem zcnt (p0 p1) : Statement (.zcnt p0 p1) := by
  intro w g e
  obtain ⟨n, hn⟩ : ∃ n, n = 0xB8000000 + p0.toNat * 0x10000 + p1.toNat * 0x100 := ⟨_, rfl⟩
  obtain ⟨nlt, hop, f0, f1, z0, z1⟩ := layout49 (op := 184) (by decide) p0.isLt p1.isLt hn
  have hw : w.toNat = n := (word_of (x := 0xB8000000 + p0.toNat * 0x10000 + p1.toNat * 0x100) e (hn ▸ nlt)).trans hn.symm
  refine decode_of (op := 184) hw hop ?_
  show (unusedZero (fld n 7 0 == 0) (operandOk (fld n 15 14 == 0) (.ok (.zcnt (.ofNat 8 (fld n 23 16)) (.ofNat 6 (fld n 13 8))))) : Decoded) = _
  rw [z0, z1, ofNat_fld p0 f0, ofNat_fld p1 f1]
  rfl

theorem layout50 {n op x0 x1 x2 x3 : Nat} (ho : op < 0x100) (h0 : x0 < 2 ^ 8) (h1 : x1 < 2 ^ 1) (h2 : x2 < 2 ^ 6) (h3 : x3 < 2 ^ 6) (h : n = op * 0x1000000 + x0 * 0x10000 + x1 * 0x8000 + x2 * 0x100 + x3) :
    n < 2 ^ 32 ∧ fld n 31 24 = op ∧ fld n 23 16 = x0 ∧ fld n 15 15 = x1 ∧ fld n 13 8 = x2 ∧ fld n 5 0 = x3 ∧ fld n 14 14 = 0 ∧ fld n 7 6 = 0 := by
  refine ⟨?_, fld_of ?_, fld_of ?_, fld_of ?_, fld_of ?_, fld_of ?_, fld_of ?_, fld_of ?_⟩ <;> omega

theorem zdot (p0 p1 p2 p3) : Statement (.zdot p0 p1 p2 p3) := by
  intro w g e
  obtain ⟨n, hn⟩ : ∃ n, n = 0xB9000000 + p0.toNat * 0x10000 + p1.toNat * 0x8000 + p2.toNat * 0x100 + p3.toNat := ⟨_, rfl⟩
  obtain ⟨nlt, hop, f0, f1, f2, f3, z0, z1⟩ := layout50 (op := 185) (by decide) p0.isLt p1.isLt p2.isLt p3.isLt hn
  have hw : w.toNat = n := (word_of (x := 0xB9000000 + p0.toNat * 0x10000 + p1.toNat * 0x8000 + p2.toNat * 0x100 + p3.toNat) e (hn ▸ nlt)).trans hn.symm
  refine decode_of (op := 185) hw hop ?_
  show (unusedZero (fld n 14 14 == 0 && fld n 7 6 == 0) (.ok (.zdot (.ofNat 8 (fld n 23 16)) (.ofNat 1 (fld n 15 15)) (.ofNat 6 (fld n 13 8)) (.ofNat 6 (fld n 5 0)))) : Decoded) = _
  rw [z0, z1, ofNat_fld p0 f0, ofNat_fld p1 f1, ofNat_fld p2 f2, ofNat_fld p3 f3]
  rfl

theorem layout51 {n op x0 x1 x2 : Nat} (ho : op < 0x100) (h0 : x0 < 2 ^ 6) (h1 : x1 < 2 ^ 6) (h2 : x2 < 2 ^ 4) (h : n = op * 0x1000000 + x0 * 0x10000 + x1 * 0x100 + x2) :
    n < 2 ^ 32 ∧ fld n 31 24 = op ∧ fld n 21 16 = x0 ∧ fld n 13 8 = x1 ∧ fld n 3 0 = x2 ∧ fld n 7 4 = 0 ∧ fld n 23 22 = 0 ∧ fld n 15 14 = 0 := by
  refine ⟨?_, fld_of ?_, fld_of ?_, fld_of ?_, fld_of ?_, fld_of ?_, fld_of ?_, fld_of ?_⟩ <;> omega

theorem zregen (p0 p1 p2) : Statement (.zregen p0 p1 p2) := by
  intro w g e
  obtain ⟨n, hn⟩ : ∃ n, n = 0xBA000000 + p0.toNat * 0x10000 + p1.toNat * 0x100 + p2.toNat := ⟨_, rfl⟩
  obtain ⟨nlt, hop, f0, f1, f2, z0, z1, z2⟩ := layout51 (op := 186) (by decide) p0.isLt p1.isLt p2.isLt hn
  have hw : w.toNat = n := (word_of (x := 0xBA000000 + p0.toNat * 0x10000 + p1.toNat * 0x100 + p2.toNat) e (hn ▸ nlt)).trans hn.symm
  refine decode_of (op := 186) hw hop ?_
  show (unusedZero (fld n 7 4 == 0) (operandOk (fld n 23 22 == 0 && fld n 15 14 == 0) (.ok (.zregen (.ofNat 6 (fld n 21 16)) (.ofNat 6 (fld n 13 8)) (.ofNat 4 (fld n 3 0))))) : Decoded) = _
  rw [z0, z1, z2, ofNat_fld p0 f0, ofNat_fld p1 f1, ofNat_fld p2 f2]
  rfl

theorem zcls (p0 p1) : Statement (.zcls p0 p1) := by
  intro w g e
  obtain ⟨n, hn⟩ : ∃ n, n = 0xBB000000 + p0.toNat * 0x10000 + p1.toNat * 0x100 := ⟨_, rfl⟩
  obtain ⟨nlt, hop, f0, f1, z0, z1⟩ := layout49 (op := 187) (by decide) p0.isLt p1.isLt hn
  have hw : w.toNat = n := (word_of (x := 0xBB000000 + p0.toNat * 0x10000 + p1.toNat * 0x100) e (hn ▸ nlt)).trans hn.symm
  refine decode_of (op := 187) hw hop ?_
  show (unusedZero (fld n 7 0 == 0) (operandOk (fld n 15 14 == 0) (.ok (.zcls (.ofNat 8 (fld n 23 16)) (.ofNat 6 (fld n 13 8))))) : Decoded) = _
  rw [z0, z1, ofNat_fld p0 f0, ofNat_fld p1 f1]
  rfl

theorem layout52 {n op x0 x1 x2 : Nat} (ho : op < 0x100) (h0 : x0 < 2 ^ 8) (h1 : x1 < 2 ^ 8) (h2 : x2 < 2 ^ 5) (h : n = op * 0x1000000 + x0 * 0x10000 + x1 * 0x100 + x2) :
    n < 2 ^ 32 ∧ fld n 31 24 = op ∧ fld n 23 16 = x0 ∧ fld n 15 8 = x1 ∧ fld n 4 0 = x2 ∧ fld n 7 5 = 0 := by
  refine ⟨?_, fld_of ?_, fld_of ?_, fld_of ?_, fld_of ?_, fld_of ?_⟩ <;> omega

theorem ztop (p0 p1 p2) : Statement (.ztop p0 p1 p2) := by
  intro w g e
  obtain ⟨n, hn⟩ : ∃ n, n = 0xBC000000 + p0.toNat * 0x10000 + p1.toNat * 0x100 + p2.toNat := ⟨_, rfl⟩
  obtain ⟨nlt, hop, f0, f1, f2, z0⟩ := layout52 (op := 188) (by decide) p0.isLt p1.isLt p2.isLt hn
  have hw : w.toNat = n := (word_of (x := 0xBC000000 + p0.toNat * 0x10000 + p1.toNat * 0x100 + p2.toNat) e (hn ▸ nlt)).trans hn.symm
  refine decode_of (op := 188) hw hop ?_
  show (unusedZero (fld n 7 5 == 0) (.ok (.ztop (.ofNat 8 (fld n 23 16)) (.ofNat 8 (fld n 15 8)) (.ofNat 5 (fld n 4 0)))) : Decoded) = _
  rw [z0, ofNat_fld p0 f0, ofNat_fld p1 f1, ofNat_fld p2 f2]
  rfl

theorem gcall (p0) : Statement (.gcall p0) := by
  intro w g e
  obtain ⟨n, hn⟩ : ∃ n, n = 0xC0000000 + p0.toNat * 0x100 := ⟨_, rfl⟩
  obtain ⟨nlt, hop, f0, z0, z1⟩ := layout6 (op := 192) (by decide) p0.isLt hn
  have hw : w.toNat = n := (word_of (x := 0xC0000000 + p0.toNat * 0x100) e (hn ▸ nlt)).trans hn.symm
  refine decode_of (op := 192) hw hop ?_
  show (unusedZero (fld n 23 16 == 0 && fld n 7 0 == 0) (.ok (.gcall (.ofNat 8 (fld n 15 8)))) : Decoded) = _
  rw [z0, z1, ofNat_fld p0 f0]
  rfl

theorem gret : Statement .gret := by
  intro w g e
  obtain ⟨n, hn⟩ : ∃ n, n = 0xC1000000 := ⟨_, rfl⟩
  obtain ⟨nlt, hop, z0⟩ := layout7 (op := 193) (by decide) hn
  have hw : w.toNat = n := (word_of (x := 0xC1000000) e (hn ▸ nlt)).trans hn.symm
  refine decode_of (op := 193) hw hop ?_
  show (unusedZero (fld n 23 0 == 0) (.ok .gret) : Decoded) = _
  rw [z0]
  rfl

theorem didqSelf_arm {n : Nat} (h : fld n 7 0 = 0) : decodeOpsC0 194 n = unusedZero (fld n 15 8 == 0) (.ok (.didqSelf (.ofNat 8 (fld n 23 16)))) := by
  unfold decodeOpsC0
  rw [h]
  rfl

theorem layout53 {n op x0 : Nat} (ho : op < 0x100) (h0 : x0 < 2 ^ 8) (h : n = op * 0x1000000 + x0 * 0x10000) :
    n < 2 ^ 32 ∧ fld n 31 24 = op ∧ fld n 23 16 = x0 ∧ fld n 15 8 = 0 ∧ fld n 7 0 = 0 := by
  refine ⟨?_, fld_of ?_, fld_of ?_, fld_of ?_, fld_of ?_⟩ <;> omega

theorem didqSelf (p0) : Statement (.didqSelf p0) := by
  intro w g e
  obtain ⟨n, hn⟩ : ∃ n, n = 0xC2000000 + p0.toNat * 0x10000 := ⟨_, rfl⟩
  obtain ⟨nlt, hop, f0, z0, y⟩ := layout53 (op := 194) (by decide) p0.isLt hn
  have hw : w.toNat = n := (word_of (x := 0xC2000000 + p0.toNat * 0x10000) e (hn ▸ nlt)).trans hn.symm
  refine decode_of (op := 194) hw hop ?_
  refine (didqSelf_arm y).trans ?_
  rw [z0, ofNat_fld p0 f0]
  rfl

theorem didqDpr_arm {n : Nat} (h : fld n 7 0 = 1) : decodeOpsC0 194 n = .ok (.didqDpr (.ofNat 8 (fld n 23 16)) (.ofNat 8 (fld n 15 8))) := by
  unfold decodeOpsC0
  rw [h]
  rfl

theorem layout54 {n op x0 x1 : Nat} (ho : op < 0x100) (h0 : x0 < 2 ^ 8) (h1 : x1 < 2 ^ 8) (h : n = op * 0x1000000 + 0x1 + x0 * 0x10000 + x1 * 0x100) :
    n < 2 ^ 32 ∧ fld n 31 24 = op ∧ fld n 23 16 = x0 ∧ fld n 15 8 = x1 ∧ fld n 7 0 = 1 := by
  refine ⟨?_, fld_of ?_, fld_of ?_, fld_of ?_, fld_of ?_⟩ <;> omega

theorem didqDpr (p0 p1) : Statement (.didqDpr p0 p1) := by
  intro w g e
  obtain ⟨n, hn⟩ : ∃ n, n = 0xC2000001 + p0.toNat * 0x10000 + p1.toNat * 0x100 := ⟨_, rfl⟩
  obtain ⟨nlt, hop, f0, f1, y⟩ := layout54 (op := 194) (by decide) p0.isLt p1.isLt hn
  have hw : w.toNat = n := (word_of (x := 0xC2000001 + p0.toNat * 0x10000 + p1.toNat * 0x100) e (hn ▸ nlt)).trans hn.symm
  refine decode_of (op := 194) hw hop ?_
  refine (didqDpr_arm y).trans ?_
  rw [ofNat_fld p0 f0, ofNat_fld p1 f1]

theorem didqGate_arm {n : Nat} (h : fld n 7 0 = 2) : decodeOpsC0 194 n = unusedZero (fld n 15 8 == 0) (.ok (.didqGate (.ofNat 8 (fld n 23 16)))) := by
  unfold decodeOpsC0
  rw [h]
  rfl

theorem layout55 {n op x0 : Nat} (ho : op < 0x100) (h0 : x0 < 2 ^ 8) (h : n = op * 0x1000000 + 0x2 + x0 * 0x10000) :
    n < 2 ^ 32 ∧ fld n 31 24 = op ∧ fld n 23 16 = x0 ∧ fld n 15 8 = 0 ∧ fld n 7 0 = 2 := by
  refine ⟨?_, fld_of ?_, fld_of ?_, fld_of ?_, fld_of ?_⟩ <;> omega

theorem didqGate (p0) : Statement (.didqGate p0) := by
  intro w g e
  obtain ⟨n, hn⟩ : ∃ n, n = 0xC2000002 + p0.toNat * 0x10000 := ⟨_, rfl⟩
  obtain ⟨nlt, hop, f0, z0, y⟩ := layout55 (op := 194) (by decide) p0.isLt hn
  have hw : w.toNat = n := (word_of (x := 0xC2000002 + p0.toNat * 0x10000) e (hn ▸ nlt)).trans hn.symm
  refine decode_of (op := 194) hw hop ?_
  refine (didqGate_arm y).trans ?_
  rw [z0, ofNat_fld p0 f0]
  rfl

theorem dpsetDpr_arm {n : Nat} (h : fld n 7 6 = 0) : decodeOpsC0 195 n = operandOk (fld n 5 4 == 0) (.ok (.dpsetDpr (.ofNat 8 (fld n 23 16)) (.ofNat 8 (fld n 15 8)) (.ofNat 4 (fld n 3 0)))) := by
  unfold decodeOpsC0
  rw [h]
  rfl

theorem layout56 {n op x0 x1 x2 : Nat} (ho : op < 0x100) (h0 : x0 < 2 ^ 8) (h1 : x1 < 2 ^ 8) (h2 : x2 < 2 ^ 4) (h : n = op * 0x1000000 + x0 * 0x10000 + x1 * 0x100 + x2) :
    n < 2 ^ 32 ∧ fld n 31 24 = op ∧ fld n 23 16 = x0 ∧ fld n 15 8 = x1 ∧ fld n 3 0 = x2 ∧ fld n 5 4 = 0 ∧ fld n 7 6 = 0 := by
  refine ⟨?_, fld_of ?_, fld_of ?_, fld_of ?_, fld_of ?_, fld_of ?_, fld_of ?_⟩ <;> omega

theorem dpsetDpr (p0 p1 p2) : Statement (.dpsetDpr p0 p1 p2) := by
  intro w g e
  obtain ⟨n, hn⟩ : ∃ n, n = 0xC3000000 + p0.toNat * 0x10000 + p1.toNat * 0x100 + p2.toNat := ⟨_, rfl⟩
  obtain ⟨nlt, hop, f0, f1, f2, z0, y⟩ := layout56 (op := 195) (by decide) p0.isLt p1.isLt p2.isLt hn
  have hw : w.toNat = n := (word_of (x := 0xC3000000 + p0.toNat * 0x10000 + p1.toNat * 0x100 + p2.toNat) e (hn ▸ nlt)).trans hn.symm
  refine decode_of (op := 195) hw hop ?_
  refine (dpsetDpr_arm y).trans ?_
  rw [z0, ofNat_fld p0 f0, ofNat_fld p1 f1, ofNat_fld p2 f2]
  rfl

theorem dpsetSub_arm {n : Nat} (h : fld n 7 6 = 1) : decodeOpsC0 195 n = operandOk (fld n 5 4 == 0) (.ok (.dpsetSub (.ofNat 8 (fld n 23 16)) (.ofNat 8 (fld n 15 8)) (.ofNat 4 (fld n 3 0)))) := by
  unfold decodeOpsC0
  rw [h]
  rfl

theorem layout57 {n op x0 x1 x2 : Nat} (ho : op < 0x100) (h0 : x0 < 2 ^ 8) (h1 : x1 < 2 ^ 8) (h2 : x2 < 2 ^ 4) (h : n = op * 0x1000000 + 0x40 + x0 * 0x10000 + x1 * 0x100 + x2) :
    n < 2 ^ 32 ∧ fld n 31 24 = op ∧ fld n 23 16 = x0 ∧ fld n 15 8 = x1 ∧ fld n 3 0 = x2 ∧ fld n 5 4 = 0 ∧ fld n 7 6 = 1 := by
  refine ⟨?_, fld_of ?_, fld_of ?_, fld_of ?_, fld_of ?_, fld_of ?_, fld_of ?_⟩ <;> omega

theorem dpsetSub (p0 p1 p2) : Statement (.dpsetSub p0 p1 p2) := by
  intro w g e
  obtain ⟨n, hn⟩ : ∃ n, n = 0xC3000040 + p0.toNat * 0x10000 + p1.toNat * 0x100 + p2.toNat := ⟨_, rfl⟩
  obtain ⟨nlt, hop, f0, f1, f2, z0, y⟩ := layout57 (op := 195) (by decide) p0.isLt p1.isLt p2.isLt hn
  have hw : w.toNat = n := (word_of (x := 0xC3000040 + p0.toNat * 0x10000 + p1.toNat * 0x100 + p2.toNat) e (hn ▸ nlt)).trans hn.symm
  refine decode_of (op := 195) hw hop ?_
  refine (dpsetSub_arm y).trans ?_
  rw [z0, ofNat_fld p0 f0, ofNat_fld p1 f1, ofNat_fld p2 f2]
  rfl

theorem dpsetSeal_arm {n : Nat} (h : fld n 7 6 = 2) : decodeOpsC0 195 n = operandOk (fld n 5 4 == 0) (.ok (.dpsetSeal (.ofNat 8 (fld n 23 16)) (.ofNat 8 (fld n 15 8)) (.ofNat 4 (fld n 3 0)))) := by
  unfold decodeOpsC0
  rw [h]
  rfl

theorem layout58 {n op x0 x1 x2 : Nat} (ho : op < 0x100) (h0 : x0 < 2 ^ 8) (h1 : x1 < 2 ^ 8) (h2 : x2 < 2 ^ 4) (h : n = op * 0x1000000 + 0x80 + x0 * 0x10000 + x1 * 0x100 + x2) :
    n < 2 ^ 32 ∧ fld n 31 24 = op ∧ fld n 23 16 = x0 ∧ fld n 15 8 = x1 ∧ fld n 3 0 = x2 ∧ fld n 5 4 = 0 ∧ fld n 7 6 = 2 := by
  refine ⟨?_, fld_of ?_, fld_of ?_, fld_of ?_, fld_of ?_, fld_of ?_, fld_of ?_⟩ <;> omega

theorem dpsetSeal (p0 p1 p2) : Statement (.dpsetSeal p0 p1 p2) := by
  intro w g e
  obtain ⟨n, hn⟩ : ∃ n, n = 0xC3000080 + p0.toNat * 0x10000 + p1.toNat * 0x100 + p2.toNat := ⟨_, rfl⟩
  obtain ⟨nlt, hop, f0, f1, f2, z0, y⟩ := layout58 (op := 195) (by decide) p0.isLt p1.isLt p2.isLt hn
  have hw : w.toNat = n := (word_of (x := 0xC3000080 + p0.toNat * 0x10000 + p1.toNat * 0x100 + p2.toNat) e (hn ▸ nlt)).trans hn.symm
  refine decode_of (op := 195) hw hop ?_
  refine (dpsetSeal_arm y).trans ?_
  rw [z0, ofNat_fld p0 f0, ofNat_fld p1 f1, ofNat_fld p2 f2]
  rfl

theorem syscall (p0 p1) : Statement (.syscall p0 p1) := by
  intro w g e
  obtain ⟨n, hn⟩ : ∃ n, n = 0xC8000000 + p0.toNat * 0x10000 + p1.toNat * 0x100 := ⟨_, rfl⟩
  obtain ⟨nlt, hop, f0, f1, z0⟩ := layout8 (op := 200) (by decide) p0.isLt p1.isLt hn
  have hw : w.toNat = n := (word_of (x := 0xC8000000 + p0.toNat * 0x10000 + p1.toNat * 0x100) e (hn ▸ nlt)).trans hn.symm
  refine decode_of (op := 200) hw hop ?_
  show (unusedZero (fld n 7 0 == 0) (.ok (.syscall (.ofNat 8 (fld n 23 16)) (.ofNat 8 (fld n 15 8)))) : Decoded) = _
  rw [z0, ofNat_fld p0 f0, ofNat_fld p1 f1]
  rfl

theorem trap (p0) : Statement (.trap p0) := by
  intro w g e
  obtain ⟨n, hn⟩ : ∃ n, n = 0xC9000000 + p0.toNat := ⟨_, rfl⟩
  obtain ⟨nlt, hop, f0, z0⟩ := layout0 (op := 201) (by decide) p0.isLt hn
  have hw : w.toNat = n := (word_of (x := 0xC9000000 + p0.toNat) e (hn ▸ nlt)).trans hn.symm
  refine decode_of (op := 201) hw hop ?_
  show (unusedZero (fld n 23 16 == 0) (.ok (.trap (.ofNat 16 (fld n 15 0)))) : Decoded) = _
  rw [z0, ofNat_fld p0 f0]
  rfl

theorem layout59 {n op x0 : Nat} (ho : op < 0x100) (h0 : x0 < 2 ^ 1) (h : n = op * 0x1000000 + x0) :
    n < 2 ^ 32 ∧ fld n 31 24 = op ∧ fld n 0 0 = x0 ∧ fld n 23 1 = 0 := by
  refine ⟨?_, fld_of ?_, fld_of ?_, fld_of ?_⟩ <;> omega

theorem tret (p0) : Statement (.tret p0) := by
  intro w g e
  obtain ⟨n, hn⟩ : ∃ n, n = 0xCA000000 + p0.toNat := ⟨_, rfl⟩
  obtain ⟨nlt, hop, f0, z0⟩ := layout59 (op := 202) (by decide) p0.isLt hn
  have hw : w.toNat = n := (word_of (x := 0xCA000000 + p0.toNat) e (hn ▸ nlt)).trans hn.symm
  refine decode_of (op := 202) hw hop ?_
  show (unusedZero (fld n 23 1 == 0) (.ok (.tret (.ofNat 1 (fld n 0 0)))) : Decoded) = _
  rw [z0, ofNat_fld p0 f0]
  rfl

theorem brk (p0) : Statement (.brk p0) := by
  intro w g e
  obtain ⟨n, hn⟩ : ∃ n, n = 0xCB000000 + p0.toNat := ⟨_, rfl⟩
  obtain ⟨nlt, hop, f0, z0⟩ := layout44 (op := 203) (by decide) p0.isLt hn
  have hw : w.toNat = n := (word_of (x := 0xCB000000 + p0.toNat) e (hn ▸ nlt)).trans hn.symm
  refine decode_of (op := 203) hw hop ?_
  show (unusedZero (fld n 23 8 == 0) (.ok (.brk (.ofNat 8 (fld n 7 0)))) : Decoded) = _
  rw [z0, ofNat_fld p0 f0]
  rfl

theorem ctxsv (p0 p1) : Statement (.ctxsv p0 p1) := by
  intro w g e
  obtain ⟨n, hn⟩ : ∃ n, n = 0xCC000000 + p0.toNat * 0x10000 + p1.toNat * 0x100 := ⟨_, rfl⟩
  obtain ⟨nlt, hop, f0, f1, z0⟩ := layout8 (op := 204) (by decide) p0.isLt p1.isLt hn
  have hw : w.toNat = n := (word_of (x := 0xCC000000 + p0.toNat * 0x10000 + p1.toNat * 0x100) e (hn ▸ nlt)).trans hn.symm
  refine decode_of (op := 204) hw hop ?_
  show (unusedZero (fld n 7 0 == 0) (.ok (.ctxsv (.ofNat 8 (fld n 23 16)) (.ofNat 8 (fld n 15 8)))) : Decoded) = _
  rw [z0, ofNat_fld p0 f0, ofNat_fld p1 f1]
  rfl

theorem ctxld (p0) : Statement (.ctxld p0) := by
  intro w g e
  obtain ⟨n, hn⟩ : ∃ n, n = 0xCD000000 + p0.toNat * 0x100 := ⟨_, rfl⟩
  obtain ⟨nlt, hop, f0, z0, z1⟩ := layout6 (op := 205) (by decide) p0.isLt hn
  have hw : w.toNat = n := (word_of (x := 0xCD000000 + p0.toNat * 0x100) e (hn ▸ nlt)).trans hn.symm
  refine decode_of (op := 205) hw hop ?_
  show (unusedZero (fld n 23 16 == 0 && fld n 7 0 == 0) (.ok (.ctxld (.ofNat 8 (fld n 15 8)))) : Decoded) = _
  rw [z0, z1, ofNat_fld p0 f0]
  rfl

theorem sigchk (p0) : Statement (.sigchk p0) := by
  intro w g e
  obtain ⟨n, hn⟩ : ∃ n, n = 0xD0000000 + p0.toNat := ⟨_, rfl⟩
  obtain ⟨nlt, hop, f0, z0⟩ := layout0 (op := 208) (by decide) p0.isLt hn
  have hw : w.toNat = n := (word_of (x := 0xD0000000 + p0.toNat) e (hn ▸ nlt)).trans hn.symm
  refine decode_of (op := 208) hw hop ?_
  show (unusedZero (fld n 23 16 == 0) (.ok (.sigchk (.ofNat 16 (fld n 15 0)))) : Decoded) = _
  rw [z0, ofNat_fld p0 f0]
  rfl

theorem sigrd (p0) : Statement (.sigrd p0) := by
  intro w g e
  obtain ⟨n, hn⟩ : ∃ n, n = 0xD1000000 + p0.toNat * 0x10000 := ⟨_, rfl⟩
  obtain ⟨nlt, hop, f0, z0⟩ := layout1 (op := 209) (by decide) p0.isLt hn
  have hw : w.toNat = n := (word_of (x := 0xD1000000 + p0.toNat * 0x10000) e (hn ▸ nlt)).trans hn.symm
  refine decode_of (op := 209) hw hop ?_
  show (unusedZero (fld n 15 0 == 0) (.ok (.sigrd (.ofNat 8 (fld n 23 16)))) : Decoded) = _
  rw [z0, ofNat_fld p0 f0]
  rfl

theorem sigset (p0) : Statement (.sigset p0) := by
  intro w g e
  obtain ⟨n, hn⟩ : ∃ n, n = 0xD2000000 + p0.toNat * 0x100 := ⟨_, rfl⟩
  obtain ⟨nlt, hop, f0, z0, z1⟩ := layout6 (op := 210) (by decide) p0.isLt hn
  have hw : w.toNat = n := (word_of (x := 0xD2000000 + p0.toNat * 0x100) e (hn ▸ nlt)).trans hn.symm
  refine decode_of (op := 210) hw hop ?_
  show (unusedZero (fld n 23 16 == 0 && fld n 7 0 == 0) (.ok (.sigset (.ofNat 8 (fld n 15 8)))) : Decoded) = _
  rw [z0, z1, ofNat_fld p0 f0]
  rfl

theorem layout60 {n op x0 x1 x2 : Nat} (ho : op < 0x100) (h0 : x0 < 2 ^ 8) (h1 : x1 < 2 ^ 8) (h2 : x2 < 2 ^ 1) (h : n = op * 0x1000000 + x0 * 0x10000 + x1 * 0x100 + x2) :
    n < 2 ^ 32 ∧ fld n 31 24 = op ∧ fld n 23 16 = x0 ∧ fld n 15 8 = x1 ∧ fld n 0 0 = x2 ∧ fld n 7 1 = 0 := by
  refine ⟨?_, fld_of ?_, fld_of ?_, fld_of ?_, fld_of ?_, fld_of ?_⟩ <;> omega

theorem errq (p0 p1 p2) : Statement (.errq p0 p1 p2) := by
  intro w g e
  obtain ⟨n, hn⟩ : ∃ n, n = 0xD3000000 + p0.toNat * 0x10000 + p1.toNat * 0x100 + p2.toNat := ⟨_, rfl⟩
  obtain ⟨nlt, hop, f0, f1, f2, z0⟩ := layout60 (op := 211) (by decide) p0.isLt p1.isLt p2.isLt hn
  have hw : w.toNat = n := (word_of (x := 0xD3000000 + p0.toNat * 0x10000 + p1.toNat * 0x100 + p2.toNat) e (hn ▸ nlt)).trans hn.symm
  refine decode_of (op := 211) hw hop ?_
  show (unusedZero (fld n 7 1 == 0) (.ok (.errq (.ofNat 8 (fld n 23 16)) (.ofNat 8 (fld n 15 8)) (.ofNat 1 (fld n 0 0)))) : Decoded) = _
  rw [z0, ofNat_fld p0 f0, ofNat_fld p1 f1, ofNat_fld p2 f2]
  rfl

theorem layout61 {n op x0 x1 : Nat} (ho : op < 0x100) (h0 : x0 < 2 ^ 4) (h1 : x1 < 2 ^ 4) (h : n = op * 0x1000000 + x0 * 0x100000 + x1 * 0x10000) :
    n < 2 ^ 32 ∧ fld n 31 24 = op ∧ fld n 23 20 = x0 ∧ fld n 19 16 = x1 ∧ fld n 15 0 = 0 := by
  refine ⟨?_, fld_of ?_, fld_of ?_, fld_of ?_, fld_of ?_⟩ <;> omega

theorem mta (p0 p1) : Statement (.mta p0 p1) := by
  intro w g e
  obtain ⟨n, hn⟩ : ∃ n, n = 0x01000000 + p0.toNat * 0x100000 + p1.toNat * 0x10000 := ⟨_, rfl⟩
  obtain ⟨nlt, hop, f0, f1, z0⟩ := layout61 (op := 1) (by decide) p0.isLt p1.isLt hn
  have hw : w.toNat = n := (word_of (x := 0x01000000 + p0.toNat * 0x100000 + p1.toNat * 0x10000) e (hn ▸ nlt)).trans hn.symm
  show decodeSeqNat w.toNat = _
  rw [hw, decodeSeqNat, hop]
  show (seqZero (fld n 15 0 == 0) (.ok (.mta (.ofNat 4 (fld n 23 20)) (.ofNat 4 (fld n 19 16)))) : Decoded) = _
  rw [z0, ofNat_fld p0 f0, ofNat_fld p1 f1]
  rfl

theorem layout62 {n op x0 x1 : Nat} (ho : op < 0x100) (h0 : x0 < 2 ^ 3) (h1 : x1 < 2 ^ 16) (h : n = op * 0x1000000 + x0 * 0x200000 + x1) :
    n < 2 ^ 32 ∧ fld n 31 24 = op ∧ fld n 23 21 = x0 ∧ fld n 15 0 = x1 ∧ fld n 20 16 = 0 := by
  refine ⟨?_, fld_of ?_, fld_of ?_, fld_of ?_, fld_of ?_⟩ <;> omega

theorem mbind (p0 p1) : Statement (.mbind p0 p1) := by
  intro w g e
  obtain ⟨n, hn⟩ : ∃ n, n = 0x02000000 + p0.toNat * 0x200000 + p1.toNat := ⟨_, rfl⟩
  obtain ⟨nlt, hop, f0, f1, z0⟩ := layout62 (op := 2) (by decide) p0.isLt p1.isLt hn
  have hw : w.toNat = n := (word_of (x := 0x02000000 + p0.toNat * 0x200000 + p1.toNat) e (hn ▸ nlt)).trans hn.symm
  show decodeSeqNat w.toNat = _
  rw [hw, decodeSeqNat, hop]
  show (seqZero (fld n 20 16 == 0) (.ok (.mbind (.ofNat 3 (fld n 23 21)) (.ofNat 16 (fld n 15 0)))) : Decoded) = _
  rw [z0, ofNat_fld p0 f0, ofNat_fld p1 f1]
  rfl

theorem layout63 {n op x0 x1 x2 x3 : Nat} (ho : op < 0x100) (h0 : x0 < 2 ^ 1) (h1 : x1 < 2 ^ 4) (h2 : x2 < 2 ^ 3) (h3 : x3 < 2 ^ 16) (h : n = op * 0x1000000 + x0 * 0x800000 + x1 * 0x80000 + x2 * 0x10000 + x3) :
    n < 2 ^ 32 ∧ fld n 31 24 = op ∧ fld n 23 23 = x0 ∧ fld n 22 19 = x1 ∧ fld n 18 16 = x2 ∧ fld n 15 0 = x3 := by
  refine ⟨?_, fld_of ?_, fld_of ?_, fld_of ?_, fld_of ?_, fld_of ?_⟩ <;> omega

theorem mmul (p0 p1 p2 p3) : Statement (.mmul p0 p1 p2 p3) := by
  intro w g e
  obtain ⟨n, hn⟩ : ∃ n, n = 0x03000000 + p0.toNat * 0x800000 + p1.toNat * 0x80000 + p2.toNat * 0x10000 + p3.toNat := ⟨_, rfl⟩
  obtain ⟨nlt, hop, f0, f1, f2, f3⟩ := layout63 (op := 3) (by decide) p0.isLt p1.isLt p2.isLt p3.isLt hn
  have hw : w.toNat = n := (word_of (x := 0x03000000 + p0.toNat * 0x800000 + p1.toNat * 0x80000 + p2.toNat * 0x10000 + p3.toNat) e (hn ▸ nlt)).trans hn.symm
  show decodeSeqNat w.toNat = _
  rw [hw, decodeSeqNat, hop]
  show (.ok (.mmul (.ofNat 1 (fld n 23 23)) (.ofNat 4 (fld n 22 19)) (.ofNat 3 (fld n 18 16)) (.ofNat 16 (fld n 15 0))) : Decoded) = _
  rw [ofNat_fld p0 f0, ofNat_fld p1 f1, ofNat_fld p2 f2, ofNat_fld p3 f3]

theorem layout64 {n op x0 x1 x2 : Nat} (ho : op < 0x100) (h0 : x0 < 2 ^ 1) (h1 : x1 < 2 ^ 4) (h2 : x2 < 2 ^ 3) (h : n = op * 0x1000000 + x0 * 0x800000 + x1 * 0x80000 + x2 * 0x10000) :
    n < 2 ^ 32 ∧ fld n 31 24 = op ∧ fld n 23 23 = x0 ∧ fld n 22 19 = x1 ∧ fld n 18 16 = x2 ∧ fld n 15 0 = 0 := by
  refine ⟨?_, fld_of ?_, fld_of ?_, fld_of ?_, fld_of ?_, fld_of ?_⟩ <;> omega

theorem mzero (p0 p1 p2) : Statement (.mzero p0 p1 p2) := by
  intro w g e
  obtain ⟨n, hn⟩ : ∃ n, n = 0x04000000 + p0.toNat * 0x800000 + p1.toNat * 0x80000 + p2.toNat * 0x10000 := ⟨_, rfl⟩
  obtain ⟨nlt, hop, f0, f1, f2, z0⟩ := layout64 (op := 4) (by decide) p0.isLt p1.isLt p2.isLt hn
  have hw : w.toNat = n := (word_of (x := 0x04000000 + p0.toNat * 0x800000 + p1.toNat * 0x80000 + p2.toNat * 0x10000) e (hn ▸ nlt)).trans hn.symm
  show decodeSeqNat w.toNat = _
  rw [hw, decodeSeqNat, hop]
  show (seqZero (fld n 15 0 == 0) (.ok (.mzero (.ofNat 1 (fld n 23 23)) (.ofNat 4 (fld n 22 19)) (.ofNat 3 (fld n 18 16)))) : Decoded) = _
  rw [z0, ofNat_fld p0 f0, ofNat_fld p1 f1, ofNat_fld p2 f2]
  rfl

theorem layout65 {n op x0 x1 x2 x3 x4 x5 : Nat} (ho : op < 0x100) (h0 : x0 < 2 ^ 1) (h1 : x1 < 2 ^ 4) (h2 : x2 < 2 ^ 3) (h3 : x3 < 2 ^ 3) (h4 : x4 < 2 ^ 3) (h5 : x5 < 2 ^ 10) (h : n = op * 0x1000000 + x0 * 0x800000 + x1 * 0x80000 + x2 * 0x10000 + x3 * 0x2000 + x4 * 0x400 + x5) :
    n < 2 ^ 32 ∧ fld n 31 24 = op ∧ fld n 23 23 = x0 ∧ fld n 22 19 = x1 ∧ fld n 18 16 = x2 ∧ fld n 15 13 = x3 ∧ fld n 12 10 = x4 ∧ fld n 9 0 = x5 := by
  refine ⟨?_, fld_of ?_, fld_of ?_, fld_of ?_, fld_of ?_, fld_of ?_, fld_of ?_, fld_of ?_⟩ <;> omega

theorem mout (p0 p1 p2 p3 p4 p5) : Statement (.mout p0 p1 p2 p3 p4 p5) := by
  intro w g e
  obtain ⟨n, hn⟩ : ∃ n, n = 0x05000000 + p0.toNat * 0x800000 + p1.toNat * 0x80000 + p2.toNat * 0x10000 + p3.toNat * 0x2000 + p4.toNat * 0x400 + p5.toNat := ⟨_, rfl⟩
  obtain ⟨nlt, hop, f0, f1, f2, f3, f4, f5⟩ := layout65 (op := 5) (by decide) p0.isLt p1.isLt p2.isLt p3.isLt p4.isLt p5.isLt hn
  have hw : w.toNat = n := (word_of (x := 0x05000000 + p0.toNat * 0x800000 + p1.toNat * 0x80000 + p2.toNat * 0x10000 + p3.toNat * 0x2000 + p4.toNat * 0x400 + p5.toNat) e (hn ▸ nlt)).trans hn.symm
  show decodeSeqNat w.toNat = _
  rw [hw, decodeSeqNat, hop]
  show (.ok (.mout (.ofNat 1 (fld n 23 23)) (.ofNat 4 (fld n 22 19)) (.ofNat 3 (fld n 18 16)) (.ofNat 3 (fld n 15 13)) (.ofNat 3 (fld n 12 10)) (.ofNat 10 (fld n 9 0))) : Decoded) = _
  rw [ofNat_fld p0 f0, ofNat_fld p1 f1, ofNat_fld p2 f2, ofNat_fld p3 f3, ofNat_fld p4 f4, ofNat_fld p5 f5]

theorem layout66 {n op x0 x1 x2 : Nat} (ho : op < 0x100) (h0 : x0 < 2 ^ 2) (h1 : x1 < 2 ^ 4) (h2 : x2 < 2 ^ 3) (h : n = op * 0x1000000 + x0 * 0x400000 + x1 * 0x40000 + x2 * 0x8000) :
    n < 2 ^ 32 ∧ fld n 31 24 = op ∧ fld n 23 22 = x0 ∧ fld n 21 18 = x1 ∧ fld n 17 15 = x2 ∧ fld n 14 0 = 0 := by
  refine ⟨?_, fld_of ?_, fld_of ?_, fld_of ?_, fld_of ?_, fld_of ?_⟩ <;> omega

theorem mscl (p0 p1 p2) : Statement (.mscl p0 p1 p2) := by
  intro w g e
  obtain ⟨n, hn⟩ : ∃ n, n = 0x06000000 + p0.toNat * 0x400000 + p1.toNat * 0x40000 + p2.toNat * 0x8000 := ⟨_, rfl⟩
  obtain ⟨nlt, hop, f0, f1, f2, z0⟩ := layout66 (op := 6) (by decide) p0.isLt p1.isLt p2.isLt hn
  have hw : w.toNat = n := (word_of (x := 0x06000000 + p0.toNat * 0x400000 + p1.toNat * 0x40000 + p2.toNat * 0x8000) e (hn ▸ nlt)).trans hn.symm
  show decodeSeqNat w.toNat = _
  rw [hw, decodeSeqNat, hop]
  show (seqZero (fld n 14 0 == 0) (.ok (.mscl (.ofNat 2 (fld n 23 22)) (.ofNat 4 (fld n 21 18)) (.ofNat 3 (fld n 17 15)))) : Decoded) = _
  rw [z0, ofNat_fld p0 f0, ofNat_fld p1 f1, ofNat_fld p2 f2]
  rfl

theorem layout67 {n op x0 x1 x2 x3 : Nat} (ho : op < 0x100) (h0 : x0 < 2 ^ 3) (h1 : x1 < 2 ^ 3) (h2 : x2 < 2 ^ 3) (h3 : x3 < 2 ^ 1) (h : n = op * 0x1000000 + x0 * 0x200000 + x1 * 0x40000 + x2 * 0x8000 + x3 * 0x4000) :
    n < 2 ^ 32 ∧ fld n 31 24 = op ∧ fld n 23 21 = x0 ∧ fld n 20 18 = x1 ∧ fld n 17 15 = x2 ∧ fld n 14 14 = x3 ∧ fld n 13 0 = 0 := by
  refine ⟨?_, fld_of ?_, fld_of ?_, fld_of ?_, fld_of ?_, fld_of ?_, fld_of ?_⟩ <;> omega

theorem mfmt (p0 p1 p2 p3) : Statement (.mfmt p0 p1 p2 p3) := by
  intro w g e
  obtain ⟨n, hn⟩ : ∃ n, n = 0x07000000 + p0.toNat * 0x200000 + p1.toNat * 0x40000 + p2.toNat * 0x8000 + p3.toNat * 0x4000 := ⟨_, rfl⟩
  obtain ⟨nlt, hop, f0, f1, f2, f3, z0⟩ := layout67 (op := 7) (by decide) p0.isLt p1.isLt p2.isLt p3.isLt hn
  have hw : w.toNat = n := (word_of (x := 0x07000000 + p0.toNat * 0x200000 + p1.toNat * 0x40000 + p2.toNat * 0x8000 + p3.toNat * 0x4000) e (hn ▸ nlt)).trans hn.symm
  show decodeSeqNat w.toNat = _
  rw [hw, decodeSeqNat, hop]
  show (seqZero (fld n 13 0 == 0) (.ok (.mfmt (.ofNat 3 (fld n 23 21)) (.ofNat 3 (fld n 20 18)) (.ofNat 3 (fld n 17 15)) (.ofNat 1 (fld n 14 14)))) : Decoded) = _
  rw [z0, ofNat_fld p0 f0, ofNat_fld p1 f1, ofNat_fld p2 f2, ofNat_fld p3 f3]
  rfl

theorem layout68 {n op x0 x1 x2 : Nat} (ho : op < 0x100) (h0 : x0 < 2 ^ 1) (h1 : x1 < 2 ^ 3) (h2 : x2 < 2 ^ 16) (h : n = op * 0x1000000 + x0 * 0x800000 + x1 * 0x100000 + x2) :
    n < 2 ^ 32 ∧ fld n 31 24 = op ∧ fld n 23 23 = x0 ∧ fld n 22 20 = x1 ∧ fld n 15 0 = x2 ∧ fld n 19 16 = 0 := by
  refine ⟨?_, fld_of ?_, fld_of ?_, fld_of ?_, fld_of ?_, fld_of ?_⟩ <;> omega

theorem mloop (p0 p1 p2) : Statement (.mloop p0 p1 p2) := by
  intro w g e
  obtain ⟨n, hn⟩ : ∃ n, n = 0x08000000 + p0.toNat * 0x800000 + p1.toNat * 0x100000 + p2.toNat := ⟨_, rfl⟩
  obtain ⟨nlt, hop, f0, f1, f2, z0⟩ := layout68 (op := 8) (by decide) p0.isLt p1.isLt p2.isLt hn
  have hw : w.toNat = n := (word_of (x := 0x08000000 + p0.toNat * 0x800000 + p1.toNat * 0x100000 + p2.toNat) e (hn ▸ nlt)).trans hn.symm
  show decodeSeqNat w.toNat = _
  rw [hw, decodeSeqNat, hop]
  show (seqZero (fld n 19 16 == 0) (.ok (.mloop (.ofNat 1 (fld n 23 23)) (.ofNat 3 (fld n 22 20)) (.ofNat 16 (fld n 15 0)))) : Decoded) = _
  rw [z0, ofNat_fld p0 f0, ofNat_fld p1 f1, ofNat_fld p2 f2]
  rfl

theorem mendl : Statement .mendl := by
  intro w g e
  obtain ⟨n, hn⟩ : ∃ n, n = 0x09000000 := ⟨_, rfl⟩
  obtain ⟨nlt, hop, z0⟩ := layout7 (op := 9) (by decide) hn
  have hw : w.toNat = n := (word_of (x := 0x09000000) e (hn ▸ nlt)).trans hn.symm
  show decodeSeqNat w.toNat = _
  rw [hw, decodeSeqNat, hop]
  show (seqZero (fld n 23 0 == 0) (.ok .mendl) : Decoded) = _
  rw [z0]
  rfl

theorem layout69 {n op x0 : Nat} (ho : op < 0x100) (h0 : x0 < 2 ^ 4) (h : n = op * 0x1000000 + x0 * 0x100000) :
    n < 2 ^ 32 ∧ fld n 31 24 = op ∧ fld n 23 20 = x0 ∧ fld n 19 0 = 0 := by
  refine ⟨?_, fld_of ?_, fld_of ?_, fld_of ?_⟩ <;> omega

theorem marr (p0) : Statement (.marr p0) := by
  intro w g e
  obtain ⟨n, hn⟩ : ∃ n, n = 0x0A000000 + p0.toNat * 0x100000 := ⟨_, rfl⟩
  obtain ⟨nlt, hop, f0, z0⟩ := layout69 (op := 10) (by decide) p0.isLt hn
  have hw : w.toNat = n := (word_of (x := 0x0A000000 + p0.toNat * 0x100000) e (hn ▸ nlt)).trans hn.symm
  show decodeSeqNat w.toNat = _
  rw [hw, decodeSeqNat, hop]
  show (seqZero (fld n 19 0 == 0) (.ok (.marr (.ofNat 4 (fld n 23 20)))) : Decoded) = _
  rw [z0, ofNat_fld p0 f0]
  rfl

theorem mwb (p0) : Statement (.mwb p0) := by
  intro w g e
  obtain ⟨n, hn⟩ : ∃ n, n = 0x0B000000 + p0.toNat * 0x100000 := ⟨_, rfl⟩
  obtain ⟨nlt, hop, f0, z0⟩ := layout69 (op := 11) (by decide) p0.isLt hn
  have hw : w.toNat = n := (word_of (x := 0x0B000000 + p0.toNat * 0x100000) e (hn ▸ nlt)).trans hn.symm
  show decodeSeqNat w.toNat = _
  rw [hw, decodeSeqNat, hop]
  show (seqZero (fld n 19 0 == 0) (.ok (.mwb (.ofNat 4 (fld n 23 20)))) : Decoded) = _
  rw [z0, ofNat_fld p0 f0]
  rfl

theorem layout70 {n op x0 : Nat} (ho : op < 0x100) (h0 : x0 < 2 ^ 24) (h : n = op * 0x1000000 + x0) :
    n < 2 ^ 32 ∧ fld n 31 24 = op ∧ fld n 23 0 = x0 := by
  refine ⟨?_, fld_of ?_, fld_of ?_⟩ <;> omega

theorem mjmp (p0) : Statement (.mjmp p0) := by
  intro w g e
  obtain ⟨n, hn⟩ : ∃ n, n = 0x0C000000 + p0.toNat := ⟨_, rfl⟩
  obtain ⟨nlt, hop, f0⟩ := layout70 (op := 12) (by decide) p0.isLt hn
  have hw : w.toNat = n := (word_of (x := 0x0C000000 + p0.toNat) e (hn ▸ nlt)).trans hn.symm
  show decodeSeqNat w.toNat = _
  rw [hw, decodeSeqNat, hop]
  show (.ok (.mjmp (.ofNat 24 (fld n 23 0))) : Decoded) = _
  rw [ofNat_fld p0 f0]

theorem mstop : Statement .mstop := by
  intro w g e
  obtain ⟨n, hn⟩ : ∃ n, n = 0x0D000000 := ⟨_, rfl⟩
  obtain ⟨nlt, hop, z0⟩ := layout7 (op := 13) (by decide) hn
  have hw : w.toNat = n := (word_of (x := 0x0D000000) e (hn ▸ nlt)).trans hn.symm
  show decodeSeqNat w.toNat = _
  rw [hw, decodeSeqNat, hop]
  show (seqZero (fld n 23 0 == 0) (.ok .mstop) : Decoded) = _
  rw [z0]
  rfl

theorem layout71 {n op x0 x1 x2 x3 : Nat} (ho : op < 0x100) (h0 : x0 < 2 ^ 1) (h1 : x1 < 2 ^ 4) (h2 : x2 < 2 ^ 4) (h3 : x3 < 2 ^ 3) (h : n = op * 0x1000000 + x0 * 0x800000 + x1 * 0x80000 + x2 * 0x8000 + x3 * 0x1000) :
    n < 2 ^ 32 ∧ fld n 31 24 = op ∧ fld n 23 23 = x0 ∧ fld n 22 19 = x1 ∧ fld n 18 15 = x2 ∧ fld n 14 12 = x3 ∧ fld n 11 0 = 0 := by
  refine ⟨?_, fld_of ?_, fld_of ?_, fld_of ?_, fld_of ?_, fld_of ?_, fld_of ?_⟩ <;> omega

theorem mtrn (p0 p1 p2 p3) : Statement (.mtrn p0 p1 p2 p3) := by
  intro w g e
  obtain ⟨n, hn⟩ : ∃ n, n = 0x0E000000 + p0.toNat * 0x800000 + p1.toNat * 0x80000 + p2.toNat * 0x8000 + p3.toNat * 0x1000 := ⟨_, rfl⟩
  obtain ⟨nlt, hop, f0, f1, f2, f3, z0⟩ := layout71 (op := 14) (by decide) p0.isLt p1.isLt p2.isLt p3.isLt hn
  have hw : w.toNat = n := (word_of (x := 0x0E000000 + p0.toNat * 0x800000 + p1.toNat * 0x80000 + p2.toNat * 0x8000 + p3.toNat * 0x1000) e (hn ▸ nlt)).trans hn.symm
  show decodeSeqNat w.toNat = _
  rw [hw, decodeSeqNat, hop]
  show (seqZero (fld n 11 0 == 0) (.ok (.mtrn (.ofNat 1 (fld n 23 23)) (.ofNat 4 (fld n 22 19)) (.ofNat 4 (fld n 18 15)) (.ofNat 3 (fld n 14 12)))) : Decoded) = _
  rw [z0, ofNat_fld p0 f0, ofNat_fld p1 f1, ofNat_fld p2 f2, ofNat_fld p3 f3]
  rfl

theorem layout72 {n op x0 x1 x2 x3 : Nat} (ho : op < 0x100) (h0 : x0 < 2 ^ 1) (h1 : x1 < 2 ^ 4) (h2 : x2 < 2 ^ 3) (h3 : x3 < 2 ^ 4) (h : n = op * 0x1000000 + x0 * 0x800000 + x1 * 0x80000 + x2 * 0x10000 + x3 * 0x1000) :
    n < 2 ^ 32 ∧ fld n 31 24 = op ∧ fld n 23 23 = x0 ∧ fld n 22 19 = x1 ∧ fld n 18 16 = x2 ∧ fld n 15 12 = x3 ∧ fld n 11 0 = 0 := by
  refine ⟨?_, fld_of ?_, fld_of ?_, fld_of ?_, fld_of ?_, fld_of ?_, fld_of ?_⟩ <;> omega

theorem maddt (p0 p1 p2 p3) : Statement (.maddt p0 p1 p2 p3) := by
  intro w g e
  obtain ⟨n, hn⟩ : ∃ n, n = 0x0F000000 + p0.toNat * 0x800000 + p1.toNat * 0x80000 + p2.toNat * 0x10000 + p3.toNat * 0x1000 := ⟨_, rfl⟩
  obtain ⟨nlt, hop, f0, f1, f2, f3, z0⟩ := layout72 (op := 15) (by decide) p0.isLt p1.isLt p2.isLt p3.isLt hn
  have hw : w.toNat = n := (word_of (x := 0x0F000000 + p0.toNat * 0x800000 + p1.toNat * 0x80000 + p2.toNat * 0x10000 + p3.toNat * 0x1000) e (hn ▸ nlt)).trans hn.symm
  show decodeSeqNat w.toNat = _
  rw [hw, decodeSeqNat, hop]
  show (seqZero (fld n 11 0 == 0) (.ok (.maddt (.ofNat 1 (fld n 23 23)) (.ofNat 4 (fld n 22 19)) (.ofNat 3 (fld n 18 16)) (.ofNat 4 (fld n 15 12)))) : Decoded) = _
  rw [z0, ofNat_fld p0 f0, ofNat_fld p1 f1, ofNat_fld p2 f2, ofNat_fld p3 f3]
  rfl

theorem layout73 {n op x0 x1 x2 x3 : Nat} (ho : op < 0x100) (h0 : x0 < 2 ^ 1) (h1 : x1 < 2 ^ 4) (h2 : x2 < 2 ^ 3) (h3 : x3 < 2 ^ 3) (h : n = op * 0x1000000 + x0 * 0x800000 + x1 * 0x80000 + x2 * 0x10000 + x3 * 0x2000) :
    n < 2 ^ 32 ∧ fld n 31 24 = op ∧ fld n 23 23 = x0 ∧ fld n 22 19 = x1 ∧ fld n 18 16 = x2 ∧ fld n 15 13 = x3 ∧ fld n 12 0 = 0 := by
  refine ⟨?_, fld_of ?_, fld_of ?_, fld_of ?_, fld_of ?_, fld_of ?_, fld_of ?_⟩ <;> omega

theorem mmax (p0 p1 p2 p3) : Statement (.mmax p0 p1 p2 p3) := by
  intro w g e
  obtain ⟨n, hn⟩ : ∃ n, n = 0x10000000 + p0.toNat * 0x800000 + p1.toNat * 0x80000 + p2.toNat * 0x10000 + p3.toNat * 0x2000 := ⟨_, rfl⟩
  obtain ⟨nlt, hop, f0, f1, f2, f3, z0⟩ := layout73 (op := 16) (by decide) p0.isLt p1.isLt p2.isLt p3.isLt hn
  have hw : w.toNat = n := (word_of (x := 0x10000000 + p0.toNat * 0x800000 + p1.toNat * 0x80000 + p2.toNat * 0x10000 + p3.toNat * 0x2000) e (hn ▸ nlt)).trans hn.symm
  show decodeSeqNat w.toNat = _
  rw [hw, decodeSeqNat, hop]
  show (seqZero (fld n 12 0 == 0) (.ok (.mmax (.ofNat 1 (fld n 23 23)) (.ofNat 4 (fld n 22 19)) (.ofNat 3 (fld n 18 16)) (.ofNat 3 (fld n 15 13)))) : Decoded) = _
  rw [z0, ofNat_fld p0 f0, ofNat_fld p1 f1, ofNat_fld p2 f2, ofNat_fld p3 f3]
  rfl

theorem layout74 {n op x0 x1 x2 : Nat} (ho : op < 0x100) (h0 : x0 < 2 ^ 3) (h1 : x1 < 2 ^ 2) (h2 : x2 < 2 ^ 19) (h : n = op * 0x1000000 + x0 * 0x200000 + x1 * 0x80000 + x2) :
    n < 2 ^ 32 ∧ fld n 31 24 = op ∧ fld n 23 21 = x0 ∧ fld n 20 19 = x1 ∧ fld n 18 0 = x2 := by
  refine ⟨?_, fld_of ?_, fld_of ?_, fld_of ?_, fld_of ?_⟩ <;> omega

theorem mset (p0 p1 p2) : Statement (.mset p0 p1 p2) := by
  intro w g e
  obtain ⟨n, hn⟩ : ∃ n, n = 0x11000000 + p0.toNat * 0x200000 + p1.toNat * 0x80000 + p2.toNat := ⟨_, rfl⟩
  obtain ⟨nlt, hop, f0, f1, f2⟩ := layout74 (op := 17) (by decide) p0.isLt p1.isLt p2.isLt hn
  have hw : w.toNat = n := (word_of (x := 0x11000000 + p0.toNat * 0x200000 + p1.toNat * 0x80000 + p2.toNat) e (hn ▸ nlt)).trans hn.symm
  show decodeSeqNat w.toNat = _
  rw [hw, decodeSeqNat, hop]
  show (.ok (.mset (.ofNat 3 (fld n 23 21)) (.ofNat 2 (fld n 20 19)) (.ofNat 19 (fld n 18 0))) : Decoded) = _
  rw [ofNat_fld p0 f0, ofNat_fld p1 f1, ofNat_fld p2 f2]

theorem clauseFetch : Statement .clauseFetch := by
  intro w _ e
  cases e

theorem fragmentRefill (p0) : Statement (.fragmentRefill p0) := by
  intro w _ e
  cases e

theorem fragmentExchange (p0) : Statement (.fragmentExchange p0) := by
  intro w _ e
  cases e

theorem yieldRelease (p0) : Statement (.yieldRelease p0) := by
  intro w _ e
  cases e

theorem strandReclaim (p0) : Statement (.strandReclaim p0) := by
  intro w _ e
  cases e

theorem blockEnd (p0) : Statement (.blockEnd p0) := by
  intro w _ e
  cases e

theorem allotmentClear (p0) : Statement (.allotmentClear p0) := by
  intro w _ e
  cases e

theorem growthGrant (p0 p1) : Statement (.growthGrant p0 p1) := by
  intro w _ e
  cases e

theorem growthRelief (p0 p1) : Statement (.growthRelief p0 p1) := by
  intro w _ e
  cases e

theorem spilledStrandRefill (p0) : Statement (.spilledStrandRefill p0) := by
  intro w _ e
  cases e

theorem transcendentalComplete (p0) : Statement (.transcendentalComplete p0) := by
  intro w _ e
  cases e

theorem localAccessComplete (p0) : Statement (.localAccessComplete p0) := by
  intro w _ e
  cases e

theorem gangWindowArrival (p0) : Statement (.gangWindowArrival p0) := by
  intro w _ e
  cases e

theorem xsendAccept (p0) : Statement (.xsendAccept p0) := by
  intro w _ e
  cases e

theorem edgeEntryArrival (p0) : Statement (.edgeEntryArrival p0) := by
  intro w _ e
  cases e

theorem tagSlot (p0 p1) : Statement (.tagSlot p0 p1) := by
  intro w _ e
  cases e

theorem lotMotionEnd (p0 p1) : Statement (.lotMotionEnd p0 p1) := by
  intro w _ e
  cases e

theorem frontLanding (p0 p1 p2) : Statement (.frontLanding p0 p1 p2) := by
  intro w _ e
  cases e

theorem gateLanding (p0 p1 p2) : Statement (.gateLanding p0 p1 p2) := by
  intro w _ e
  cases e

theorem missFillArrival (p0 p1) : Statement (.missFillArrival p0 p1) := by
  intro w _ e
  cases e

theorem missRetry (p0 p1) : Statement (.missRetry p0 p1) := by
  intro w _ e
  cases e

theorem writeAcknowledge (p0 p1) : Statement (.writeAcknowledge p0 p1) := by
  intro w _ e
  cases e

theorem remoteReplyArrival (p0 p1) : Statement (.remoteReplyArrival p0 p1) := by
  intro w _ e
  cases e

theorem lotRecall (p0 p1) : Statement (.lotRecall p0 p1) := by
  intro w _ e
  cases e

theorem tlbWalkComplete (p0) : Statement (.tlbWalkComplete p0) := by
  intro w _ e
  cases e

theorem tlbinvComplete (p0) : Statement (.tlbinvComplete p0) := by
  intro w _ e
  cases e

theorem scannerJob (p0) : Statement (.scannerJob p0) := by
  intro w _ e
  cases e

theorem scannerFlashDone (p0) : Statement (.scannerFlashDone p0) := by
  intro w _ e
  cases e

theorem scannerFlashFail (p0) : Statement (.scannerFlashFail p0) := by
  intro w _ e
  cases e

theorem peerGone (p0 p1) : Statement (.peerGone p0 p1) := by
  intro w _ e
  cases e

theorem peerStoreAck (p0) : Statement (.peerStoreAck p0) := by
  intro w _ e
  cases e

theorem peerAccess (p0 p1 p2 p3) : Statement (.peerAccess p0 p1 p2 p3) := by
  intro w _ e
  cases e

theorem logicalClockTick (p0) : Statement (.logicalClockTick p0) := by
  intro w _ e
  cases e

theorem leaseSweep (p0) : Statement (.leaseSweep p0) := by
  intro w _ e
  cases e

theorem promotionRequest (p0 p1) : Statement (.promotionRequest p0 p1) := by
  intro w _ e
  cases e

theorem promotionAnswer (p0) : Statement (.promotionAnswer p0) := by
  intro w _ e
  cases e

theorem atomscTicket (p0) : Statement (.atomscTicket p0) := by
  intro w _ e
  cases e

theorem barrierWatchdogExpiry (p0 p1) : Statement (.barrierWatchdogExpiry p0 p1) := by
  intro w _ e
  cases e

theorem twaitTimeout (p0 p1) : Statement (.twaitTimeout p0 p1) := by
  intro w _ e
  cases e

theorem mwaitExpiry (p0 p1) : Statement (.mwaitExpiry p0 p1) := by
  intro w _ e
  cases e

theorem mwbTimeout (p0) : Statement (.mwbTimeout p0) := by
  intro w _ e
  cases e

theorem copySegment (p0 p1 p2) : Statement (.copySegment p0 p1 p2) := by
  intro w _ e
  cases e

theorem fixupReplay (p0 p1) : Statement (.fixupReplay p0 p1) := by
  intro w _ e
  cases e

theorem scannerHoldRetry (p0 p1 p2) : Statement (.scannerHoldRetry p0 p1 p2) := by
  intro w _ e
  cases e

theorem multicastDeposit (p0) : Statement (.multicastDeposit p0) := by
  intro w _ e
  cases e

theorem promiseDue (p0 p1) : Statement (.promiseDue p0 p1) := by
  intro w _ e
  cases e

theorem arraySlotGrant (p0) : Statement (.arraySlotGrant p0) := by
  intro w _ e
  cases e

theorem seqStreamStart (p0) : Statement (.seqStreamStart p0) := by
  intro w _ e
  cases e

theorem seqFetch (p0) : Statement (.seqFetch p0) := by
  intro w _ e
  cases e

theorem stochasticSlotGrant (p0) : Statement (.stochasticSlotGrant p0) := by
  intro w _ e
  cases e

theorem stochasticRequestComplete (p0) : Statement (.stochasticRequestComplete p0) := by
  intro w _ e
  cases e

theorem dpsetEffect (p0) : Statement (.dpsetEffect p0) := by
  intro w _ e
  cases e

theorem trapTaken (p0) : Statement (.trapTaken p0) := by
  intro w _ e
  cases e

theorem gangRelaunch (p0) : Statement (.gangRelaunch p0) := by
  intro w _ e
  cases e

theorem sliceExpiry (p0 p1) : Statement (.sliceExpiry p0 p1) := by
  intro w _ e
  cases e

theorem preemptionDone (p0 p1) : Statement (.preemptionDone p0 p1) := by
  intro w _ e
  cases e

theorem syscallAppend (p0 p1) : Statement (.syscallAppend p0 p1) := by
  intro w _ e
  cases e

theorem serviceReply (p0 p1) : Statement (.serviceReply p0 p1) := by
  intro w _ e
  cases e

theorem collectiveComplete (p0 p1 p2) : Statement (.collectiveComplete p0 p1 p2) := by
  intro w _ e
  cases e

theorem notifyWrite (p0 p1) : Statement (.notifyWrite p0 p1) := by
  intro w _ e
  cases e

theorem packetAccept (p0) : Statement (.packetAccept p0) := by
  intro w _ e
  cases e

theorem launchStart (p0) : Statement (.launchStart p0) := by
  intro w _ e
  cases e

theorem placementReserve (p0 p1 p2) : Statement (.placementReserve p0 p1 p2) := by
  intro w _ e
  cases e

theorem placementCommit (p0 p1) : Statement (.placementCommit p0 p1) := by
  intro w _ e
  cases e

theorem placementRetry (p0) : Statement (.placementRetry p0) := by
  intro w _ e
  cases e

theorem pinRelease (p0) : Statement (.pinRelease p0) := by
  intro w _ e
  cases e

theorem launchComplete (p0) : Statement (.launchComplete p0) := by
  intro w _ e
  cases e

theorem heldEventWrite : Statement .heldEventWrite := by
  intro w _ e
  cases e

theorem haltStrand (p0) : Statement (.haltStrand p0) := by
  intro w _ e
  cases e

theorem releaseStrand (p0) : Statement (.releaseStrand p0) := by
  intro w _ e
  cases e

theorem resumeStrand (p0) : Statement (.resumeStrand p0) := by
  intro w _ e
  cases e

theorem killGang (p0) : Statement (.killGang p0) := by
  intro w _ e
  cases e

theorem preemptSlot (p0) : Statement (.preemptSlot p0) := by
  intro w _ e
  cases e

theorem resumeSavedGang (p0 p1) : Statement (.resumeSavedGang p0 p1) := by
  intro w _ e
  cases e

theorem takeCoreOutOfService (p0) : Statement (.takeCoreOutOfService p0) := by
  intro w _ e
  cases e

theorem abortQueue (p0) : Statement (.abortQueue p0) := by
  intro w _ e
  cases e

theorem checkpoint (p0) : Statement (.checkpoint p0) := by
  intro w _ e
  cases e

theorem attest (p0) : Statement (.attest p0) := by
  intro w _ e
  cases e

theorem refusedCommand (p0 p1) : Statement (.refusedCommand p0 p1) := by
  intro w _ e
  cases e

theorem controlRegisterWrite (p0 p1) : Statement (.controlRegisterWrite p0 p1) := by
  intro w _ e
  cases e

theorem hostAccess (p0 p1) : Statement (.hostAccess p0 p1) := by
  intro w _ e
  cases e

theorem hartAccess (p0 p1 p2 p3 p4) : Statement (.hartAccess p0 p1 p2 p3 p4) := by
  intro w _ e
  cases e

theorem tractTeardown (p0) : Statement (.tractTeardown p0) := by
  intro w _ e
  cases e

theorem teardownReport (p0) : Statement (.teardownReport p0) := by
  intro w _ e
  cases e

theorem patrolScrub (p0 p1) : Statement (.patrolScrub p0 p1) := by
  intro w _ e
  cases e

theorem busBeatError (p0 p1 p2 p3) : Statement (.busBeatError p0 p1 p2 p3) := by
  intro w _ e
  cases e

theorem sensorSample (p0 p1 p2 p3 p4) : Statement (.sensorSample p0 p1 p2 p3 p4) := by
  intro w _ e
  cases e

theorem powerHoldStep (p0 p1) : Statement (.powerHoldStep p0 p1) := by
  intro w _ e
  cases e

theorem thermalStop (p0 p1) : Statement (.thermalStop p0 p1) := by
  intro w _ e
  cases e

theorem packageReset : Statement .packageReset := by
  intro w _ e
  cases e

theorem packageBoot (p0 p1) : Statement (.packageBoot p0 p1) := by
  intro w _ e
  cases e

theorem recoveryImageWrite (p0) : Statement (.recoveryImageWrite p0) := by
  intro w _ e
  cases e

theorem bypassLoadDelivery (p0 p1) : Statement (.bypassLoadDelivery p0 p1) := by
  intro w _ e
  cases e

theorem checkpointWritesComplete : Statement .checkpointWritesComplete := by
  intro w _ e
  cases e

end Sys2Proof.Laws.RoundTrip
end

