-- ==== Sys2Proof/Tests/Slice0.lean ====
section
/-!
SUPPORT. Tests: terms that the checks refuse, words written out from the spec's encoding tables, one-step tests, and for every
statement states that meet the hypotheses of its clauses.
-/
namespace Sys2Proof.Tests
set_option Elab.async false
open Sys2Proof Sys2Proof.Machine

/-! ### States that tests start from -/

/-- A block of 4,096 bytes of scratchpad and 64 KiB of column, with a tile, an accumulator and four stream registers. -/
def tBlock : Block :=
  Fit.block ⟨0, 0, 0, 0, 0, 0, 0, [0]⟩ ⟨0, [(0, 24)], 4096, 65536, 1, 1, 4⟩ 5 0 0 64 0 0
/-- Strand 0 at the word of `i`, in MODE `m`, its strand and its block edited. -/
def at_ (i : Instr) (m : Word) (g : Strand → Strand) (h : Block → Block) : State :=
  let s := State.reset.placeStrand ((encode i).getD 0).toNat
  let mode (st : Strand) : Strand := { st with fragA := st.fragA.map (fun f => { f with mode := m }) }
  match s.strand 0 with
  | some st => (s.setStrand 0 (g (mode st))).setBlock 0 (h tBlock)
  | none => s
/-- The same with nothing edited. -/
def on (m : Word) (i : Instr) : State := at_ i m id id
/-- The same with the strand edited. -/
def onS (m : Word) (g : Strand → Strand) (i : Instr) : State := at_ i m g id
/-- A register that holds one value in every lane. -/
def fill (n : Nat) (x : Word) (st : Strand) : Strand := { st with v := Tbl.put st.v n (Lanes.gen (fun _ => x)) }

def meets (i : Instr) (s : State) (p : Ctx → Bool) : Bool :=
  match s.ctx i with
  | some c => codesOk c.st c.f i && typeOk i c.type && p c
  | none => false
theorem of_meets {i : Instr} {s : State} {p : Ctx → Bool} (h : meets i s p = true) : ∃ c, Issued i s c ∧ p c = true := by
  unfold meets at h
  split at h
  · rename_i c hc
    simp only [Bool.and_eq_true] at h
    exact ⟨c, ⟨hc, h.1.1, h.1.2⟩, h.2⟩
  · cases h
theorem all_meet {l : List Instr} {s : Instr → State} {p : Ctx → Bool} (h : l.all (fun i => meets i (s i) p) = true) :
    ∀ i ∈ l, ∃ c, Issued i (s i) c ∧ p c = true :=
  fun i hi => of_meets (List.all_eq_true.mp h i hi)
/-- An event's hypotheses, at a state and the data that a test gives. -/
theorem of_some {α : Type} {o : Option α} {p : α → Bool} (h : (o.any p) = true) : ∃ x, o = some x ∧ p x = true := by
  cases o with
  | none => cases h
  | some x => exact ⟨x, rfl, h⟩
theorem each_meets {α : Type} {ms : List α} {l : List Instr} {s : α → Instr → State} {p : α → Ctx → Bool}
    (h : ms.all (fun m => l.all (fun i => meets i (s m i) (p m))) = true) : ∀ m ∈ ms, ∀ i ∈ l, ∃ c, Issued i (s m i) c ∧ p m c = true :=
  fun m hm => all_meet (List.all_eq_true.mp h m hm)
theorem each_meets_one {α : Type} {ms : List α} {i : α → Instr} {s : α → State} {p : α → Ctx → Bool}
    (h : ms.all (fun m => meets (i m) (s m) (p m)) = true) : ∀ m ∈ ms, ∃ c, Issued (i m) (s m) c ∧ p m c = true :=
  fun m hm => of_meets (List.all_eq_true.mp h m hm)

/-- A package that has booted, whose memory holds a first-stage table at 0x100000 that maps the first 2 GiB onto themselves,
a queue table at 0x300000 whose queue 0 has that root, and a tract table at 0x400000 whose frame table starts at 0x500000. -/
def mapped (s : State) : State :=
  let s := { s with control := { s.control with qdBase := 0x300000, tractBase := 0x400000 }, board := { s.board with stage := 2 } }
  let s := (((s.writeN 0x100000 8 0x200001).writeN 0x200000 8 0x7F).writeN 0x300010 8 0x100000).writeN 0x400048 8 0x500000
  { s with strands := s.strands.map (fun p => (p.1, { p.2 with space := s.queueSpace 0 })) }
/-- Bytes of a block of memory, as (address, length, value). -/
def withBytes (l : List (Nat × Nat × Nat)) (s : State) : State := l.foldl (fun s x => s.writeN x.1 x.2.1 x.2.2) s
/-- `mapped`, with a private table that maps the region of strand 0's fragment stack onto the last of the first 2 GiB. -/
def stacked (s : State) : State :=
  let s := withBytes [(0x110FF8, 8, 0x210001), (0x21FFF8, 8, 0x7F)] (mapped s)
  (s.strand 0).elim s (fun st => s.setStrand 0 { st with proot := 0x110000 })
/-- The state after a step that goes on. -/
def after (o : Host.Outcome State Fault Refusal) : State :=
  match o with
  | .next s => s
  | _ => State.reset
def bare : State := on 0 .nop
/-- Edits strand `k`, block `k`, core `k`. -/
def modS (k : Nat) (g : Strand → Strand) (s : State) : State := (s.strand k).elim s (fun st => s.setStrand k (g st))
def modB (k : Nat) (g : Block → Block) (s : State) : State := (s.block k).elim s (fun b => s.setBlock k (g b))
def modC (k : Nat) (g : Core → Core) (s : State) : State := s.setCore k (g (s.core k))
/-- The gang of block 0 and of block 8, on core 1: neighbours, with the gang-relative indices 0 and 1. -/
def mates (s : State) : State :=
  let s := modS 0 (fun st => { st with gangInfo := 0x2000 }) s
  { s with gangs := [⟨5, 0, 0, 0, 0, [0, 8], false, [], 0, none, false⟩] }.setBlock 8 { tBlock with index := 1 }
def passes {α β : Type} (x : Except α β) : Bool :=
  match x with
  | .ok _ => true
  | .error _ => false
/-- The state after the word of `i` has been issued in `s`. -/
def issued (i : Instr) (s : State) : State := after (exec i s)
/-- The lanes at which `p` holds. -/
def lanesAll (m : Mask) (p : Nat → Bool) : Bool := (List.range 32).all (fun L => !Mask.has m L || p L)
def tLot (p : Place) : Lot := ⟨p, 0, false, false, none, 0, 0, 0, 0⟩
def inChain (k lot : Nat) (l : Lot) (s : State) : State := s.setCluster k { s.cluster k with lots := Tbl.put (s.cluster k).lots lot l }
/-- The word of `i`, issued in `mapped` memory, whose pages have been translated. -/
def walked (i : Instr) (m : Word) (g : Strand → Strand) : State :=
  after (exec (.tlbWalkComplete 0) (issued i (mapped (onS m (fun st => g { st with groot := 0x100000 }) i))))
/-- Edits every word in flight. -/
def modF (g : Flight → Flight) (s : State) : State := { s with flights := s.flights.map g }
/-- Edits every request of every word in flight. -/
def modR (g : Req → Req) (s : State) : State := modF (fun f => { f with reqs := f.reqs.map g }) s
def lastReqB (f : Flight) (r : Req) : Bool :=
  f.reqs == [r] && f.localL == 0 && f.gangL == 0 && f.xlatL == 0 && f.bad.isEmpty && f.first == 0
theorem lastReqB_iff {f : Flight} {r : Req} : lastReqB f r = true ↔ f.lastReq r := by
  simp [lastReqB, Flight.lastReq, and_assoc]
def writableB (st : Strand) (f : Flight) : Bool := f.dests.all (fun n => 192 ≤ n || st.granules.getLsbD (n / 8))
theorem writableB_iff {st : Strand} {f : Flight} : writableB st f = true ↔ st.writable f := by
  simp only [writableB, Strand.writable, List.all_eq_true, Bool.or_eq_true, decide_eq_true_eq]
  exact forall₂_congr fun n _ => ⟨fun h h' => h.resolve_left (by omega), fun h => Decidable.or_iff_not_imp_left.mpr fun h' => h (by omega)⟩
/-- A launch that has started, whose group 3 names one block and whose group 255 names another. -/
def tLaunch : Launch :=
  { id := 0, queue := 0, tower := 0, seq := 0, index := 0, packet := 0, desc := 0, acceptDclk := 0, started := true, groups := [(3, [0]), (255, [9])],
    groupPhase := [], groupArrived := [], groupBroken := [], groupStamp := [], groupFirst := [], nextGang := 0, relaunch := [], ended := 0, relaunches := 0,
    relaunchCount := [], reserved := [], outcome := none, unplaceable := false, startStamp := none, endStamp := none }
def holding (h : Hold) (st : Strand) : Strand := { st with fragA := st.fragA.map (fun f => { f with hold := h }) }
def tAsk (i : Instr) (t : Nat) (p : Ask → Bool) : Bool := (askOf i t).any p
/-- Bytes that `consume` takes with no change of the state. -/
def soundB (s : State) (as : List Nat) : Bool := s.scrubbed.isEmpty && s.ecc.isEmpty && (as.find? s.poisoned).isNone
theorem consume_of_soundB {s : State} {as : List Nat} (h : soundB s as = true) (core : Nat) (slot : Option Nat) :
    s.consume core slot as = (s, true) := by
  simp only [soundB, Bool.and_eq_true, List.isEmpty_iff, Option.isNone_iff_eq_none] at h
  exact State.consume_of_sound core slot as h.1.1 h.1.2 h.2
/-! ### Words of the spec's example columns (02 R12 to R23, R34) -/

theorem test_decode_control :
    ∀ p ∈ [(0x07C00A00#32, Instr.brx 3 10), (0x0A000000, .exit), (0x03030000, .getmode 3), (0x0F000000, .nop), (0x09000A00, .ret 10), (0x01000308,
      .setmode 0x308), (0x02000007, .setmodeh 7), (0x0B000000, .yield)], decode p.1 = .ok p.2 := by
  decide +kernel
theorem test_decode_integer :
    ∀ p ∈ [(0x1B010200#32, Instr.abs 1 2), (0x1401D3F1, .add 1 211 241), (0x15020304, .addc 2 3 4), (0x20010203, .and 1 2 3), (0x23010203, .andn 1 2
      3), (0x2A010203, .bfi 1 2 3), (0x29010203, .bfx 1 2 3), (0x2E010200, .brev 1 2), (0x2B010200, .clz 1 2), (0x2C010200, .ctz 1 2),
      (0x1F0A0C0E, .lea 10 12 14), (0x12043FC0, .lih 4 0x3FC0), (0x11040000, .lil 4 0), (0x1A010203, .mad 1 2 3), (0x1E010203, .max 1 2 3),
      (0x1D010203, .min 1 2 3), (0x1005D200, .mov 5 210), (0x18151414, .mul 21 20 20), (0x19010203, .mulh 1 2 3), (0x1C010200, .neg 1 2),
      (0x24010200, .not 1 2), (0x21010203, .or 1 2 3), (0x2D010200, .popc 1 2), (0x28010203, .rotl 1 2 3), (0x270201F4, .sar 2 1 244),
      (0x13030102, .sel 3 1 2), (0x250201F4, .shl 2 1 244), (0x260201F4, .shr 2 1 244), (0x1606D2D3, .sub 6 210 211), (0x17020304, .subb 2 3 4),
      (0x22010203, .xor 1 2 3)], decode p.1 = .ok p.2 := by
  decide +kernel
theorem test_decode_float :
    ∀ p ∈ [(0x38010200#32, Instr.fabs 1 2), (0x30050404, .fadd 5 4 4), (0x42010200, .fcls 1 2), (0x40010200, .fcos 1 2), (0x44010203, .fdot4 1 2 3),
      (0x3D010200, .fex2 1 2), (0x33010203, .ffma 1 2 3), (0x3E010200, .flg2 1 2), (0x35010203, .fmax 1 2 3), (0x37010203, .fmaxp 1 2 3),
      (0x34010203, .fmin 1 2 3), (0x36010203, .fminp 1 2 3), (0x32010203, .fmul 1 2 3), (0x39010200, .fneg 1 2), (0x3A010200, .frcp 1 2),
      (0x41010200, .frnd 1 2), (0x3B010200, .frsq 1 2), (0x43010203, .fscl 1 2 3), (0x3F010200, .fsin 1 2), (0x3C010200, .fsqrt 1 2), (0x31010203,
      .fsub 1 2 3)], decode p.1 = .ok p.2 := by
  decide +kernel
theorem test_decode_predicates_and_lanes :
    ∀ p ∈ [(0x51720101#32, Instr.fcmp 7 2 1 1), (0x50010D03, .icmp 0 1 13 3), (0x5D040001, .lanes 4 1), (0x55070300, .p2v 7 3), (0x52040102, .pand 4 1
      2), (0x53040102, .por 4 1 2), (0x540F0F0F, .pxor 15 15 15), (0x5E060200, .rdsr 6 2), (0x5B0E0CE0, .rot 14 12 224), (0x5A020103, .shfl 2 1
      3), (0x56030700, .v2p 3 7), (0x5800407F, .vgrow 64 127), (0x5C111001, .vote 17 16 1), (0x5900407F, .vshrink 64 127), (0x5F0B0800, .wrsr 11
      8)], decode p.1 = .ok p.2 := by
  decide +kernel
theorem test_decode_scratchpad :
    ∀ p ∈ [(0x68282900#32, Instr.lds 40 41 0 0), (0x6A04D203, .ldsm 4 210 3), (0x69000F0C, .sts 0 15 12)], decode p.1 = .ok p.2 := by
  decide +kernel
theorem test_decode_memory :
    ∀ p ∈ [(0x77090A00#32, Instr.chain 9 10), (0x700D0A00, .ld 13 10 0 0), (0x71040A01, .ldb 4 10 0 1), (0x7C040A01, .pgq 4 10 1), (0x72000A03, .st 0
      10 3), (0x73020A03, .stb 2 10 3), (0x7D000A0C, .tlbinv 0 10 12), (0x7E000000, .tlbsync)], decode p.1 = .ok p.2 := by
  decide +kernel
theorem test_decode_synchronisation :
    ∀ p ∈ [(0x89100A04#32, Instr.atom 0 4 0 10 4), (0x8A100A04, .atomn 0 4 0 10 4), (0x8CC00A04, .atomsc 6 10 4), (0x80000000, .bar 0), (0x81020501,
      .bararArm 2 5), (0x83120200, .barst 18 2), (0x82020000, .barw 2), (0x8B130A04, .cas 4 3 10 4), (0x88040000, .fence 4), (0x8500000A, .fwait
      10), (0x84070000, .gbar 7), (0x8D050A01, .lda 5 10 0 1), (0x8F040A0C, .ldar 4 10 1 4), (0x90000A00, .mon 10), (0x91000300, .mwait 3),
      (0x8E010A03, .stl 0 1 10 3), (0x87060002, .tget 6 2), (0x86000800, .twait 0 8)], decode p.1 = .ok p.2 := by
  decide +kernel
theorem test_decode_engines :
    ∀ p ∈ [(0xA0041000#32, Instr.cpy 4 1 0), (0xA1041007, .cpym 4 1 0 7), (0xA2080400, .cpyq 8 4), (0xA4000A0C, .fixqRetry 10 12), (0xAB040A00, .mabort
      4 10), (0xA8100CD2, .mgo 16 12 210), (0xA9060000, .mq 6), (0xAA040A00, .mres 4 10), (0xA5010A00, .shld 1 10), (0xA6210800, .shset 2 1 8),
      (0xA7010A00, .shst 1 10), (0xA3000401, .sleepu 4 1)], decode p.1 = .ok p.2 := by
  decide +kernel
theorem test_decode_stochastic :
    ∀ p ∈ [(0xB4100800#32, Instr.zand 16 8 0 0), (0xBB070800, .zcls 7 8), (0xB80A1000, .zcnt 10 16), (0xB3050800, .zdec 5 8 0), (0xB90C0800, .zdot 12 0
      8 0), (0xB2000480, .zenc 0 4 1 0), (0xB0000001, .zlen 1), (0xB60A0809, .zmin 10 8 0 9), (0xB7408628, .zmux 16 8 24 40), (0xBA200805, .zregen
      32 8 5), (0xB1030600, .zseed 3 6), (0xBC0E0C01, .ztop 14 12 1), (0xB5100898, .zxnor 16 8 1 24)], decode p.1 = .ok p.2 := by
  decide +kernel
theorem test_decode_domains_traps_signatures :
    ∀ p ∈ [(0xCB000007#32, Instr.brk 7), (0xCD000A00, .ctxld 10), (0xCC050A00, .ctxsv 5 10), (0xC2050000, .didqSelf 5), (0xC3280800, .dpsetDpr 40 8 0),
      (0xD3040201, .errq 4 2 1), (0xC0000300, .gcall 3), (0xC1000000, .gret), (0xD0001A2B, .sigchk 0x1A2B), (0xD1050000, .sigrd 5), (0xD2000600,
      .sigset 6), (0xC808F300, .syscall 8 243), (0xC9000042, .trap 66), (0xCA000001, .tret 1)], decode p.1 = .ok p.2 := by
  decide +kernel
theorem test_decode_sequencer :
    ∀ p ∈ [(0x02200000#32, Instr.mbind 1 0), (0x07000000, .mfmt 0 0 0 0), (0x10980000, .mmax 1 3 0 0), (0x030000FF, .mmul 0 0 0 255), (0x05904804,
      .mout 1 2 0 2 2 4), (0x06818000, .mscl 2 0 3), (0x11300800, .mset 1 2 0x800), (0x0D000000, .mstop), (0x01000000, .mta 0 0), (0x0E009000,
      .mtrn 0 0 1 1), (0x04000000, .mzero 0 0 0)], decodeSeq p.1 = .ok p.2 := by
  decide +kernel
/-- Rows with no example of their own, or with one elsewhere: the headers and branches of 01 and 02, the conversions of 03 R62 to R67, and
words set out from the tables of 06, 07, 11, 13, 14 and 18. -/
theorem test_decode_other_rows :
    ∀ p ∈ [(0xFA0007F8#32, Instr.clauseStart 4 0 15 15), (0xF88000F8, .clauseStart 1 0 1 15), (0xF80017F8, .clauseStart 0 2 15 15), (0x04000006, .rcv 6),
      (0x05000003, .bra 0 3), (0x05C0FFFF, .bra 3 0xFFFF), (0x060C0003, .brc 0 3 0 3), (0x06D00002, .brc 3 4 0 2), (0x06020001, .brc 0 0 1 1), (0x083C0005, .call 60 5),
      (0x60010200, .setfmt 1 2), (0x61040300, .getfmt 4 3), (0x620302C8, .cvt 3 2 12 8), (0x63080A01, .nfpk 8 10 1), (0x64080A01, .nfupk 8 10 1),
      (0x65000400, .srseed 4), (0x6B070A10, .stsm 7 10 16), (0x6C050A00, .spt 5 10), (0x6D060A00, .spc 6 10), (0x6E0B0500, .xsend 2 3 5),
      (0x6F050B00, .xrecv 5 2 3), (0x74100A07, .ldm 16 10 7), (0x75070A10, .stm 7 10 16), (0x76000A00, .pref 10), (0x78000A00, .pin 10),
      (0x79000A00, .unpin 10), (0x7A000A00, .lotwb 10), (0x7B000A00, .lotdrop 10), (0x81020000, .barar 2), (0xA4010A0C, .fixqFail 10 12),
      (0xC2050801, .didqDpr 5 8), (0xC2050002, .didqGate 5), (0xC3280843, .dpsetSub 40 8 3), (0xC3280881, .dpsetSeal 40 8 1)], decode p.1 = .ok p.2 := by
  decide +kernel
theorem test_decode_other_sequencer_rows :
    ∀ p ∈ [(0x08000063#32, Instr.mloop 0 0 99), (0x08A00000, .mloop 1 2 0), (0x09000000, .mendl), (0x0AF00000, .marr 15), (0x0B200000, .mwb 2),
      (0x0CFFFFFE, .mjmp 0xFFFFFE), (0x0F9C5000, .maddt 1 3 4 5)], decodeSeq p.1 = .ok p.2 := by
  decide +kernel
/-- R35, R14, R15, R41: opcodes that are not assigned, unused bits, and index fields and conditions out of range. -/
theorem test_decode_refuses :
    decode 0x00000000 = .bad .illegalWord ∧ decode 0x0F000001 = .bad .illegalWord ∧ (Instr.icmp 6 0 1 2).wf = false ∧ decode 0x55074300 = .bad .illegalOperand ∧
    decodeSeq 0x00000000 = .bad .seqIllegal ∧ decodeSeq 0x09000001 = .bad .seqIllegal := by
  decide +kernel

/-! ### Ill-formed terms -/

/-- R24, R15, R21, R58, R16: a term refused by each check, beside a term that it admits. -/
theorem test_wf_refuses :
    (Instr.clauseStart 1 0 12 15).wf = false ∧ (Instr.clauseStart 1 0 3 3).wf = false ∧ (Instr.clauseStart 1 0 15 15).wf = true ∧
    (Instr.ld 8 10 1 1).wf = false ∧ (Instr.ld 8 10 1 2).wf = true ∧ (Instr.lds 8 10 1 0).wf = false ∧ (Instr.ldb 8 10 1 1).wf = false ∧
    (Instr.add 210 1 1).wf = false ∧ (Instr.st 0 11 8).wf = false ∧ (Instr.st 0 10 8).wf = true ∧
    (Instr.mmul 0 3 0 0).wf = false ∧ (Instr.mmul 1 3 0 0).wf = true ∧ (Instr.mloop 1 0 5).wf = false ∧ (Instr.mscl 0 1 2).wf = false := by
  decide +kernel

/-! ### One-step tests on the spec's own values -/

/-- What lane `L` of register `d` holds after `i` has run once in MODE `m`, the registers `vs` holding their values in every lane. -/
def gives (m : Word) (i : Instr) (vs : List (Nat × Word)) (d : BitVec 8) (L : Nat) : Option Nat :=
  (issued i (onS m (fun st => vs.foldl (fun st p => fill p.1 p.2 st) st) i)).laneOf 0 false d L

/-- R136, its example under i8x4: the sum wraps with SAT 0 and saturates with SAT 1. -/
theorem test_add_i8x4 :
    gives 0x84 (.add 1 2 3) [(2, 0x7F1080F0), (3, 0x0110FF20)] 1 31 = some 0x7F208010 ∧
    gives 0x04 (.add 1 2 3) [(2, 0x7F1080F0), (3, 0x0110FF20)] 1 0 = some 0x80207F10 := by
  decide +kernel
/-- R136: `mulh` is the floor of the exact product over 2^w, by the signedness of TYPE. -/
theorem test_mulh_sign :
    gives 0x00 (.mulh 1 2 3) [(2, 0xFFFFFFFF), (3, 1)] 1 5 = some 0xFFFFFFFF ∧ gives 0x01 (.mulh 1 2 3) [(2, 0xFFFFFFFF), (3, 1)] 1 5 = some 0 := by
  decide +kernel
/-- R136: `abs` of the most negative value. -/
theorem test_abs_least :
    gives 0x00 (.abs 2 2) [(2, 0x80000000)] 2 0 = some 0x80000000 ∧ gives 0x80 (.abs 2 2) [(2, 0x80000000)] 2 0 = some 0x7FFFFFFF := by
  decide +kernel
/-- R139: `shl v2, v1, #4` under i8x4 shifts each byte; a count of w is 0; `sar` copies the top bit under an unsigned TYPE. -/
theorem test_shift_counts :
    gives 0x04 (.shl 2 1 0xF4) [(1, 0x12345678)] 2 7 = some 0x20406080 ∧ gives 0x00 (.shl 2 1 3) [(1, 5), (3, 32)] 2 7 = some 5 ∧
    gives 0x01 (.sar 2 1 0xF4) [(1, 0x80000000)] 2 7 = some 0xF8000000 := by
  decide +kernel
/-- R140: a signed field is extended from its top bit; a length of 0 means 32; `bfi` keeps the rest of D, which is also a source. -/
theorem test_fields :
    gives 0x00 (.bfx 1 2 3) [(2, 0x00000F80), (3, 0x0507)] 1 0 = some 0xFFFFFFFF ∧ gives 0x01 (.bfx 1 2 3) [(2, 0xABCD1234), (3, 4)] 1 0 = some 0x0ABCD123 ∧
    gives 0x00 (.bfi 1 2 3) [(1, 0xFFFFFFFF), (2, 0), (3, 0x0808)] 1 0 = some 0xFFFF00FF := by
  decide +kernel
/-- R141. -/
theorem test_counts :
    gives 0x00 (.clz 1 2) [(2, 0)] 1 0 = some 32 ∧ gives 0x04 (.ctz 1 2) [(2, 0x80000100)] 1 0 = some 0x07080008 ∧
    gives 0x02 (.brev 1 2) [(2, 0x00018000)] 1 0 = some 0x80000001 := by
  decide +kernel
/-- R142: the index is extended by the signedness of TYPE and shifted; `lid` differs by lane. -/
theorem test_lea_extends :
    gives 0x02000000 (.lea 10 12 14) [(12, 16), (13, 0), (14, 0xFFFFFFFF)] 10 3 = some 12 ∧
    gives 0x02000001 (.lea 10 12 14) [(12, 16), (13, 0), (14, 0xFFFFFFFF)] 11 3 = some 4 ∧
    gives 0x02000000 (.lea 14 10 0xD3) [(10, 0x100), (11, 7)] 14 31 = some 0x17C := by
  decide +kernel
/-- R46, R144, R145: the lesser of the zeros, and a NaN beside a number; the class of a quiet NaN. -/
theorem test_float_selections :
    gives 0x08 (.fmin 1 2 3) [(2, 0), (3, 0x80000000)] 1 0 = some 0x80000000 ∧ gives 0x08 (.fmax 1 2 3) [(2, 0x7FC00001), (3, 0x3F800000)] 1 0 = some 0x3F800000 ∧
    gives 0x08 (.fmaxp 1 2 3) [(2, 0x7F800001), (3, 0x3F800000)] 1 0 = some 0x7FC00000 ∧ gives 0x08 (.fcls 1 2) [(2, 0x7FC00001)] 1 0 = some 0x200 := by
  decide +kernel
/-- R47, R48: ties go to even, one unit in the last place is kept by `ffma`, and the largest number plus half an ulp overflows. -/
theorem test_float_rounding :
    gives 0x08 (.fadd 1 2 3) [(2, 0x3F800000), (3, 0x33800000)] 1 0 = some 0x3F800000 ∧ gives 0x08 (.fadd 1 2 3) [(2, 0x3F800001), (3, 0x33800000)] 1 0 = some 0x3F800002 ∧
    gives 0x08 (.fadd 1 2 3) [(2, 0x7F7FFFFF), (3, 0x73000000)] 1 0 = some 0x7F800000 ∧
    gives 0x08 (.ffma 1 2 3) [(1, 0xBF800000), (2, 0x3F800001), (3, 0x3F800000)] 1 0 = some 0x34000000 := by
  decide +kernel
/-- R137: the carry of `addc` goes in and out by p15. -/
theorem test_addc_carry :
    (issued (.addc 2 3 4) (onS 1 (fun st => { fill 3 0xFFFFFFFF (fill 4 0 st) with p := [(15, 0xFFFFFFFF)] }) (.addc 2 3 4))).laneOf 0 false 2 9 = some 0 ∧
    ((issued (.addc 2 3 4) (onS 1 (fun st => { fill 3 0xFFFFFFFF (fill 4 0 st) with p := [(15, 0xFFFFFFFF)] }) (.addc 2 3 4))).strand 0).map (fun st => st.pred 15) = some 0xFFFFFFFF := by
  decide +kernel
/-- 05 R130 and R20: `icmp.lt p3, lid, #8` sets the bits of lanes 0 to 7; `sub v6, zr, lid` and `mad v5, lid, v6` use the lane number. -/
theorem test_lane_operands :
    ((issued (.icmp 2 3 0xD3 0xF8) (on 0 (.icmp 2 3 0xD3 0xF8))).strand 0).map (fun st => st.pred 3) = some 0xFF ∧
    gives 0x00 (.sub 6 0xD2 0xD3) [] 6 5 = some 0xFFFFFFFB ∧ gives 0x00 (.mad 5 0xD3 6) [(5, 1000), (6, 4)] 5 31 = some 1124 := by
  decide +kernel



/-! ### States that meet the hypotheses of the statements -/

/-- O1: lane 31 and the last element, of 8, 32 and 64 bits, with and without saturation; and the carry words. -/
theorem test_meets_IntegerWordsAndCarryChains :
    (∀ m ∈ [0x5#32, 0x84#32, 0x80#32, 0x6#32, 0x7#32],
      ∀ i ∈ [Instr.add 8 10 12, .sub 8 10 12, .mul 8 10 12, .mad 8 10 12, .mulh 8 10 12, .abs 8 10, .neg 8 10, .min 8 10 12, .max 8 10 12],
        ∃ c, Issued i (on m i) c ∧ (Mask.has c.act 31 && decide (typeCount c.type - 1 < typeCount c.type)) = true) ∧
    (∀ m ∈ [0x0#32, 0x6#32], ∀ i ∈ [Instr.addc 8 10 12, .subb 8 10 12], ∃ c, Issued i (on m i) c ∧ Mask.has c.act 31 = true) := by
  exact ⟨each_meets (by decide +kernel), each_meets (by decide +kernel)⟩

/-- O2: a pair, an absent lane kept, p0 and p15; the float TYPEs of `fcmp`. -/
theorem test_meets_LogicComparesAndPredicates :
    (∀ m ∈ [0x0#32, 0x6#32], ∀ i ∈ [Instr.and 8 10 12, .or 8 10 12, .xor 8 10 12, .andn 8 10 12, .not 8 10],
      ∃ c, Issued i (on m i) c ∧ Mask.has c.act 31 = true) ∧
    (∀ m ∈ [0x0#32, 0x6#32], ∀ i ∈ [Instr.icmp 0 0 10 12, .icmp 5 15 10 12], ∃ c, Issued i (on m i) c ∧ (icmpCond 5 0 0).isSome = true) ∧
    (∀ m ∈ [0x8#32, 0xB#32], ∀ i ∈ [Instr.fcmp 0 1 10 12, .fcmp 7 15 10 12],
      ∃ c, Issued i (on m i) c ∧ (fcmpCond 7 .nan (.zero false)).isSome = true) ∧
    ∀ i ∈ [Instr.pand 0 1 2, .por 15 15 1, .pxor 1 1 1, .v2p 15 10], ∃ c, Issued i (on 0 i) c ∧ decide (31 < 32) = true := by
  exact ⟨each_meets (by decide +kernel), each_meets (by decide +kernel), each_meets (by decide +kernel), all_meet (by decide +kernel)⟩

/-- O3. -/
theorem test_meets_ShiftsActOnEachElement :
    ∀ m ∈ [0x4#32, 0x0#32, 0x7#32], ∀ i ∈ [Instr.shl 8 10 12, .shr 8 10 12, .sar 8 10 12, .rotl 8 10 12],
      ∃ c, Issued i (on m i) c ∧ (Mask.has c.act 31 && decide (0 < typeCount c.type)) = true := by
  exact each_meets (by decide +kernel)

/-- O4. -/
theorem test_meets_BitFieldAndCountingWords :
    (∀ m ∈ [0x0#32, 0x5#32, 0x7#32], ∀ i ∈ [Instr.bfx 8 10 12, .bfi 8 10 12], ∃ c, Issued i (on m i) c ∧ Mask.has c.act 31 = true) ∧
    ∀ m ∈ [0x0#32, 0x5#32, 0x7#32], ∀ i ∈ [Instr.clz 8 10, .ctz 8 10, .popc 8 10, .brev 8 10],
      ∃ c, Issued i (on m i) c ∧ (Mask.has c.act 31 && decide (typeCount c.type - 1 < typeCount c.type)) = true := by
  exact ⟨each_meets (by decide +kernel), each_meets (by decide +kernel)⟩

/-- O5: an index of 32 bits, signed and not, and one of 64. -/
theorem test_meets_LeaAddsTheScaledIndex :
    ∀ m ∈ [0x0#32, 0x7000005#32, 0x6#32], ∃ c, Issued (.lea 8 10 12) (on m (.lea 8 10 12)) c ∧ Mask.has c.act 31 = true := by
  exact each_meets_one (by decide +kernel)

/-- O6: the moves, and each exchange of each kind. -/
theorem test_meets_MovesAndLaneExchange :
    (∀ m ∈ [0x0#32, 0x6#32], ∀ i ∈ [Instr.mov 8 10, .lil 8 0xFFFF, .lih 8 0xFFFF, .sel 8 10 12, .shfl 8 10 12, .rot 8 10 12],
      ∃ c, Issued i (on m i) c ∧ (Mask.has c.act 31 && Mask.has c.f.mask 31 && c.f.only.isNone && c.act.lowest == some 0) = true) ∧
    ∀ i ∈ [Instr.vote 8 10 0, .vote 8 10 1, .vote 8 10 2, .vote 8 10 3, .lanes 8 0, .lanes 8 1, .lanes 8 2, .lanes 8 3, .p2v 8 15],
      ∃ c, Issued i (on 0 i) c ∧ (Mask.has c.act 31 && c.act.lowest == some 0) = true :=
  ⟨each_meets (by decide +kernel), all_meet (by decide +kernel)⟩

/-- O7: images that are legal, and one for each reserved value. -/
theorem test_meets_ModeWordsActOnTheirFragment :
    (∀ i ∈ [Instr.setmode 0x0FCB, .setmodeh 0x0101, .getmode 8, .nop], ∃ c, Issued i (on 0x12345078 i) c ∧ Mask.has c.f.mask 31 = true) ∧
    ([0x0FCB#16, 0xF, 0xC, 0x60, 0x7000, 0x6000, 0x8000].all (fun x => ((on 0x12345078 (.setmode x)).ctx (.setmode x)).isSome &&
      (decide (12 ≤ bits x.toNat 3 0 ∨ 6 ≤ bits x.toNat 6 4 ∨ bits x.toNat 14 13 = 3)) == [0xF#16, 0xC, 0x60, 0x7000, 0x6000].contains x) &&
     [0x0101#16, 0x40, 0x80, 0x800, 0x8000].all (fun x => ((on 0x12345078 (.setmodeh x)).ctx (.setmodeh x)).isSome &&
      (decide (bits x.toNat 7 6 ≠ 0 ∨ bits x.toNat 15 11 ≠ 0)) == (x != 0x0101))) = true :=
  ⟨all_meet (by decide +kernel), by decide +kernel⟩

/-- O8: every float TYPE, lane 31 and the last element, with and without stochastic rounding. -/
theorem test_meets_FloatWordsRoundTheExactResultOnce :
    ∀ m ∈ [0x8#32, 0x19#32, 0x2A#32, 0x4B#32, 0x58#32, 0x5A#32],
      ∀ i ∈ [Instr.fadd 8 10 12, .fsub 8 10 12, .fmul 8 10 12, .ffma 8 10 12, .frnd 8 10, .fscl 8 10 12],
        ∃ c, Issued i (on m i) c ∧ (Mask.has c.act 31 && decide (typeCount c.type - 1 < typeCount c.type) && decide (c.rnd ≤ 5) && (c.rnd == 5) == (m == 0x58 || m == 0x5A)) = true :=
  each_meets (by decide +kernel)

/-- O9: with operands that are NaN, a zero of each sign, and ordered. -/
theorem test_meets_FloatSelectionKeepsBitPatterns :
    (∀ m ∈ [0x8#32, 0x9#32, 0xB#32],
      ∀ i ∈ [Instr.fmin 8 10 12, .fmax 8 10 12, .fminp 8 10 12, .fmaxp 8 10 12, .fabs 8 10, .fneg 8 10, .fcls 8 10],
        ∃ c, Issued i (on m i) c ∧ (Mask.has c.act 31 && decide (typeCount c.type - 1 < typeCount c.type)) = true) ∧
    (∀ p ∈ [(0x7FC00000#32, 0x7FC00000#32), (0x7FC00000#32, 0#32), (0#32, 0x7FC00000#32)],
      ∃ c, Issued (.fmin 8 10 12) (onS 8 (fun st => fill 10 p.1 (fill 12 p.2 st)) (.fmin 8 10 12)) c ∧
        (Mask.has c.act 31 && (Fmt.f32.decode (elem 32 ((c.source 1 c.wide 10).at 31) 0) == .nan ||
          Fmt.f32.decode (elem 32 ((c.source 2 c.wide 12).at 31) 0) == .nan)) = true) ∧
    ∀ p ∈ [(0#32, 0x3F800000#32), (0x3F800000#32, 0x80000000#32)],
      ∃ c, Issued (.fmin 8 10 12) (onS 8 (fun st => fill 10 p.1 (fill 12 p.2 st)) (.fmin 8 10 12)) c ∧
        (Exact.lt (Fmt.f32.decode (elem 32 ((c.source 2 c.wide 12).at 31) 0)) (Fmt.f32.decode (elem 32 ((c.source 1 c.wide 10).at 31) 0))
          == (p.1 == 0x3F800000#32)) = true :=
  ⟨each_meets (by decide +kernel), each_meets_one (by decide +kernel), each_meets_one (by decide +kernel)⟩

/-- O10: `fdot4` with a sum that is not zero, a zero sum of each sign, and terms that are all -0; `cvt` in pairings of each width and
one that R65 does not list; the packing of the reset format; with and without stochastic rounding. -/
theorem test_meets_ConversionsRoundEachLane :
    ([0x8#32, 0x58].all (fun m =>
      [(0x38383838#32, 0x38383838#32, 0#32, 0), (0, 0, 0, 1), (0x80808080, 0, 0x80000000, 2)].all (fun (p : Word × Word × Word × Nat) =>
        meets (.fdot4 8 10 12) (onS m (fun st => fill 10 p.1 (fill 12 p.2.1 (fill 8 p.2.2.1 st))) (.fdot4 8 10 12)) (fun c =>
          let product (j : Nat) : Exact := (narrowValue (c.f.q.getD 0 0) (elem 8 ((c.source 1 false 10).at 31) j)).mul
            (narrowValue (c.f.q.getD 1 0) (elem 8 ((c.source 2 false 12).at 31) j))
          let addend := Fmt.f32.decode ((c.st.regs false 8).at 31)
          let d := c.rnd == 3
          let sum := ((((product 0).add d (product 1)).add d (product 2)).add d (product 3)).add d addend
          let zero (neg : Bool) (x : Exact) : Bool := match x with
            | .fin n 0 _ _ => n == neg
            | _ => false
          let all := (List.range 4).all (fun j => zero true (product j)) && zero true addend
          Mask.has c.act 31 && c.rnd == (if m = 0x58 then 5 else 0) && (match p.2.2.2 with
            | 0 => !zero true sum && !zero false sum
            | 1 => zero false sum && !all
            | _ => all))))) = true ∧
    (∀ p ∈ [(0#4, 8#4), (8#4, 0#4), (0#4, 1#4), (11#4, 8#4), (8#4, 11#4), (12#4, 8#4), (8#4, 15#4)],
      ∃ c, Issued (.cvt 8 10 p.1 p.2) (on 0x50 (.cvt 8 10 p.1 p.2)) c ∧
        (Mask.has c.act 31 && c.rnd == 5 && (let s := c.f.cvtFmt p.2
          let d := c.f.cvtFmt p.1
          s.count == d.count || (s.count == 1 && d.count == 2 && !s.is64) || (s.count == 2 && d.count == 1 && !d.is64))) = true) ∧
    (((on 0 (.cvt 8 10 4 8)).ctx (.cvt 8 10 4 8)).any (fun c => (c.f.cvtFmt 8).count == 1 && (c.f.cvtFmt 4).count == 4 && Mask.has c.act 31)) = true ∧
    ∀ i ∈ [Instr.nfpk 8 10 0, .nfpk 8 10 3, .nfupk 8 10 3],
      ∃ c, Issued i (on 0x50 i) c ∧ (Mask.has c.act 31 && c.rnd == 5 && decide (packCount (c.f.q.getD 3 0) - 1 < packCount (c.f.q.getD 3 0))) = true :=
  ⟨by decide +kernel, each_meets_one (by decide +kernel), by decide +kernel, all_meet (by decide +kernel)⟩

/-- O11: a legal and an illegal format, each special register, with and without the kernel right. -/
theorem test_meets_FormatSeedAndSpecialRegisters :
    (∀ p ∈ [(0x00010739#32, true), (0xFFFFFFFF#32, false)],
      ∃ c, Issued (.setfmt 3 10) (onS 0 (fill 10 p.1) (.setfmt 3 10)) c ∧
        (c.act.lowest == some 0 && qValid (BitVec.ofNat 32 ((c.source 1 false 10).at 0)) == p.2) = true) ∧
    (∀ i ∈ [Instr.getfmt 8 3, .srseed 10, .rdsr 8 0, .rdsr 8 1, .rdsr 8 2, .rdsr 8 6, .rdsr 8 7, .rdsr 8 3, .rdsr 8 4, .rdsr 8 5, .rdsr 8 8,
        .rdsr 8 9, .rdsr 8 10, .rdsr 8 11, .rdsr 8 12, .wrsr 11 10, .wrsr 12 10],
      ∃ c, Issued i (on 0 i) c ∧ (Mask.has c.act 31 && c.act.lowest == some 0) = true) ∧
    ∀ k ∈ [true, false], ∀ i ∈ [Instr.wrsr 9 10, .wrsr 10 10],
      ∃ c, Issued i (onS 0 (fun st => { st with rightKernel := k }) i) c ∧ (c.act.lowest == some 0 && c.st.rightKernel == k) = true :=
  ⟨each_meets_one (by decide +kernel), all_meet (by decide +kernel), each_meets (by decide +kernel)⟩



/-- O12: the words at issue, and a word in flight whose completion writes. -/
theorem test_meets_TranscendentalWordsWriteAtCompletion :
    (∀ i ∈ [Instr.frcp 8 10, .frsq 8 10, .fsqrt 8 10, .fex2 8 10, .flg2 8 10, .fsin 8 10, .fcos 8 10],
      ∃ c, Issued i (on 8 i) c ∧ (c.act != 0) = true) ∧
    (let s := after (exec (.frcp 8 10) (on 8 (.frcp 8 10)))
     s.flights.any (fun fl => s.flight fl.id == some fl && fl.op == .func && Mask.has fl.mask 31 && (fl.got.getD 0 []).length == 32 &&
       (s.strand fl.strand).any (fun st => (List.range (if fl.wide then 2 else 1)).all (fun n =>
         st.granules.getLsbD ((fl.dst.toNat + n) / 8) || 192 ≤ fl.dst.toNat + n)))) = true :=
  ⟨all_meet (by decide +kernel), by decide +kernel⟩

/-- Two strands of one partition of core 0, the first of which asks for a granule. -/
def tGrow (need : BitVec 24) (refill : Bool) (g h : Strand → Strand) : State :=
  let s := modS 0 g (mapped bare)
  let s := (s.strand 0).elim s (fun st => s.setStrand 1 (h { st with startTime := 1 }))
  modC 0 (fun c => { c with growth := [(0, [⟨0, false, need, 0, refill⟩])] }) s

/-- O13: a set held whole, one that grows to the share, one beyond it; the last granule removed; a grant, a relief, a refill. -/
theorem test_meets_AllotmentGrowsAndShrinks :
    (∃ c, Issued (.vgrow 0 191) (on 0 (.vgrow 0 191)) c ∧ ((granSet 0 191 &&& ~~~c.st.granules) == 0 &&
      decide (granCount c.st.granules + 0 ≤ c.s.share (coreOf c.s.cur) c.st)) = true) ∧
    (∃ c, Issued (.vgrow 8 191) (onS 0 (fun st => { st with granules := 1 }) (.vgrow 8 191)) c ∧
      ((granSet 8 191 &&& ~~~c.st.granules) != 0 && decide (granCount c.st.granules + 23 ≤ c.s.share (coreOf c.s.cur) c.st)) = true) ∧
    (∃ c, Issued (.vgrow 8 15) (modC 0 (fun k => { k with dpr := [0, 0, 0, 0] }) (onS 0 (fun st => { st with granules := 1 }) (.vgrow 8 15))) c ∧
      decide (c.s.share (coreOf c.s.cur) c.st < granCount c.st.granules + granCount (granSet 8 15 &&& ~~~c.st.granules)) = true) ∧
    (∃ c, Issued (.vshrink 184 191) (on 0 (.vshrink 184 191)) c ∧ (granSet 184 191).getLsbD 23 = true) ∧
    (let s := tGrow 3 false (fun st => holding .grow { st with granules := 1 }) (fun st => { st with granules := 1 })
     (oldestReq (s.growQueue 0 0)).any (fun r => !r.refill && s.growWaits r && !s.writesDue r && decide (granCount r.need ≤ s.freeGranules 0 0) && (s.strand r.strand).any (fun st => !st.stopped && st.openFault.isNone))) = true ∧
    (let s := tGrow 2 false (fun st => holding .grow { st with granules := 1 }) (fun st => holding .grow { st with granules := 0xFFFFFF })
     let s := modC 0 (fun c => { c with dpr := [BitVec.ofNat 1024 (25 * 2 ^ 40), 0, 0, 0] }) s
     (oldestReq (s.growQueue 0 0)).any (fun r => s.reliefDue 0 0 r && (s.victim 0 0 r).any (fun p => p.1 == 1 && s.strand p.1 == some p.2 &&
       !(s.flightsOf p.1).any (fun f => f.dests.any (· < 192)) && s.granuleFault p.2 p.2.granules .write == none))) = true ∧
    (let s := tGrow 1 true (fun st => { st with granules := 1, spilled := true }) (fun st => { st with granules := 1 })
     (oldestReq (s.growQueue 0 0)).any (fun r => r.refill && r.strand == 0 && decide (granCount r.need ≤ s.freeGranules 0 0) &&
       (s.strand 0).any (fun st => s.granuleFault st r.need .read == none))) = true :=
  ⟨of_meets (by decide +kernel), of_meets (by decide +kernel), of_meets (by decide +kernel), of_meets (by decide +kernel), by decide +kernel,
    by decide +kernel, by decide +kernel⟩



/-- R29 holds for the target of each lane of `m`, and the fragment does not stand at its join there. -/
def tGoes (c : Ctx) (m : Mask) (t : Nat → DWord) (u : DWord) : Bool :=
  let r := c.s.checkTargets (c.st.agent c.s c.sid) m t
  r.2 == [] && r.1.strand c.sid == some c.st && !c.st.atJoin (c.f.went u) && c.f.mask != 0

/-- R29 holds for the target of each lane of `m`. -/
def tPass (c : Ctx) (m : Mask) (t : Nat → DWord) : Bool :=
  let r := c.s.checkTargets (c.st.agent c.s c.sid) m t
  r.2 == [] && r.1.strand c.sid == some c.st

/-- O14: a target one word back; a branch of all lanes, of none, of lane 31 alone; a register target. -/
theorem test_meets_ControlWordsMoveFragments :
    (∀ i ∈ [Instr.bra 3 0xFFFF, .call 8 0xFFFF, .brc 0 0 0 0xFFFF],
      ∃ c, Issued i (on 0 i) c ∧ tGoes c c.f.mask (fun _ => target c.f.pc 0xFFFF) (target c.f.pc 0xFFFF) = true) ∧
    (∃ c, Issued (.brc 0 0 1 5) (on 0 (.brc 0 0 1 5)) c ∧ (c.f.mask &&& ~~~c.st.pred 0) == 0) ∧
    ∀ i ∈ [Instr.brx 0 10, .ret 10], ∃ c, Issued i (onS 0 (fill 10 0x10000#32) i) c ∧ c.f.mask.lowest = some 0 ∧
      (tGoes c c.f.mask (fun L => BitVec.ofNat 64 ((c.plain true 10).at L)) 0x10000#64 && BitVec.ofNat 64 ((c.plain true 10).at 31) == 0x10000#64) = true :=
  ⟨all_meet (by decide +kernel), of_meets (by decide +kernel), fun i hi => by
    obtain ⟨c, h, p⟩ := all_meet (l := [Instr.brx 0 10, .ret 10]) (s := fun i => onS 0 (fill 10 0x10000#32) i) (p := fun c =>
      c.f.mask.lowest == some 0 && (tGoes c c.f.mask (fun L => BitVec.ofNat 64 ((c.plain true 10).at L)) 0x10000#64 &&
        BitVec.ofNat 64 ((c.plain true 10).at 31) == 0x10000#64)) (by decide +kernel) i hi
    rw [Bool.and_eq_true] at p
    exact ⟨c, h, by simpa using p.1, p.2⟩⟩

/-- Lane 31 alone, which has one record for the word one back, where `arr` waits. -/
def tJoin (arr : Mask) (st : Strand) : Strand :=
  fill 10 0x10000#32 { st with
    fragA := st.fragA.map (fun f => { f with mask := 0x80000000#32, join := some 0 })
    stack := [(0, .join 0x10000 Mask.all arr 0 [] none)] }

/-- O14, of an arrival that is not the last, and of the last. -/
theorem test_meets_ControlWordsMoveFragments_arrivals :
    ∀ arr ∈ [0#32, 0x7FFFFFFF#32], ∀ i ∈ [Instr.bra 3 0xFFFF, .call 8 0xFFFF, .brc 0 0 0 0xFFFF, .brx 0 10, .ret 10],
      ∃ c, Issued i (onS 0 (tJoin arr) i) c ∧ (tPass c c.f.mask (fun _ => 0x10000) && c.f.join == some 0 &&
        Tbl.find c.st.stack 0 == some (.join 0x10000 Mask.all arr 0 [] none) && (arr ||| c.f.mask == Mask.all) == (arr != 0) &&
        !Strand.atJoin { c.st with stack := Tbl.del c.st.stack 0 } { c.f.went 0x10000 with mask := Mask.all, mode := 0, q := [], join := none }) = true :=
  each_meets (by decide +kernel)

/-- Lanes 0 to 30 and lane 31 with different targets, beside a fragment `g` and `n` entries of the stack. -/
def tSplit (q : Bool) (n : Nat) (g : Option Frag) (i : Instr) : State :=
  let s := onS 0 (fun st => { fill 11 0 st with
    v := Tbl.put (fill 11 0 st).v 10 (Lanes.gen (fun L => if L = 31 then 0x10100#32 else 0x10000#32)), p := [(1, 0x80000000#32)], fragB := g
    stack := (List.range n).map (fun e => (e, .join 0 0 0 0 [] none)) }) i
  (if q then stacked s else mapped s).writeN 0x10100 4 0xF80007F8

/-- O14, of the lanes that go another way: beside an empty slot, beside a fragment that is spilled, one that holds, one that is younger,
with no entry, and with one whose access faults. -/
theorem test_meets_ControlWordsMoveFragments_splits :
    ([(true, 0, none, 0), (true, 0, some (Frag.start 0x10000), 1), (true, 0, some { Frag.start 0x10000 with hold := .grow }, 1),
      (true, 254, some { Frag.start 0x10000 with age := 9 }, 1), (true, 255, some (Frag.start 0x10000), 2),
      (false, 0, some (Frag.start 0x10000), 3)].all (fun (q, n, g, k) =>
      (if n = 0 then [Instr.brc 0 1 0 0xFFFF, .brx 0 10, .ret 10] else [.brc 0 1 0 0xFFFF]).all (fun i => meets i (tSplit q n g i) (fun c =>
        let cond := i == .brc 0 1 0 0xFFFF
        let m := if cond then c.f.mask &&& c.st.pred 1 else c.f.mask
        let goal (L : Nat) : DWord := if cond then 0x10000 else BitVec.ofNat 64 ((c.plain true 10).at L)
        let s1 := (c.s.checkTargets (c.st.agent c.s c.sid) m goal).1
        let e := Tbl.freeKey c.st.stack 0 255
        tPass c m goal && !c.st.atJoin (c.f.went 0x10000) && !c.st.atJoin (c.f.next.went 0x10000) && c.st.frag true == g &&
          (!cond || (m == 0x80000000#32)) && (cond || (goal 0 == 0x10000 && goal 31 == 0x10100)) &&
          (k == 0 || (k == 2) == e.isNone) && (k != 1 && k != 3 || e.any (fun e => match s1.stackAccess c.s.cur c.st .write e with
            | (s2, .ok) => k == 1 && s2.strand c.s.cur == some c.st
            | (_, .bad ..) => k == 3
            | _ => false)))))) = true := by
  decide +kernel

/-- O15: a stack with room, its first and its last entry, whose access is made or fails, and a full one; a fragment without a join; a
strand that `yield` holds, to go on and not. -/
theorem test_meets_JoinExitAndYield :
    ([(0, true), (0, false), (254, true)].all (fun (n, q) =>
      let s := onS 0 (fun st => { st with stack := (List.range n).map (fun e => (e, .join 0 0 0 0 [] none)) }) (.rcv 0xFFFF)
      meets (.rcv 0xFFFF) (if q then stacked s else mapped s) (fun c =>
        let s1 := (c.s.checkTargets (c.st.agent c.s c.sid) c.f.mask (fun _ => target c.f.pc 0xFFFF)).1
        tGoes c c.f.mask (fun _ => target c.f.pc 0xFFFF) 0 && Tbl.freeKey c.st.stack 0 255 == some n &&
          (match s1.stackAccess c.s.cur c.st .write n with
           | (s2, .ok) => q && s2.strand c.s.cur == some c.st
           | (_, .bad ..) => !q
           | _ => false)))) = true ∧
    (∃ c, Issued (.rcv 0xFFFF) (onS 0 (fun st => { st with stack := (List.range 255).map (fun e => (e, .join 0 0 0 0 [] none)) }) (.rcv 0xFFFF)) c ∧
      (tGoes c c.f.mask (fun _ => target c.f.pc 0xFFFF) 0 && Tbl.freeKey c.st.stack 0 255 == none) = true) ∧
    (∀ i ∈ [Instr.exit, .yield], ∃ c, Issued i (on 0 i) c ∧ c.f.join.isNone = true) ∧
    ([([2], 32#64), ([2], 0), ([], 32)].all (fun y => ((modS 0 (fun st => { st with yielding := some y }) bare).strand 0).any (fun st =>
      st.yielding == some y))) = true :=
  ⟨by decide +kernel, of_meets (by decide +kernel), all_meet (by decide +kernel), by decide +kernel⟩

/-- A strand at a header, before its fetch. -/
def tHead (h : DWord) (g : Frag → Frag) (s : State) : State := modS 0 (fun st => { st with fragA := some (g (Frag.start h)) }) s

/-- The flags that the other fragment's started clause claims: 0x800, of its one word in flight to come, or none. -/
def tClaims (q : Bool) (s : State) : State :=
  let ws := [(encode (.clauseStart 0 0 11 15)).getD 0, (encode (.ld 8 10 0 1)).getD 0]
  modS 0 (fun st => { st with fragB := if q then some { Frag.start 0x10000 with clause := ws, started := true, claims := 0x800 } else none }) s

/-- O16: a fetch that is served and one that is not; a clause that is refused, one that waits for a flag or for the other fragment, one
that starts. -/
theorem test_meets_ClausesAreFetchedAndStarted :
    (let s := tHead 0x10000 id bare
     (s.strand 0).any (fun st => match s.fetchClause (st.agent s 0) 0x10000 with
       | (s1, .ok l) => l.length == 2 && s1.strand 0 == some st
       | _ => false)) = true ∧
    (let s := tHead 0x20000 id bare
     (s.strand 0).any (fun st => match s.fetchClause (st.agent s 0) 0x20000 with
       | (_, .error _) => true
       | _ => false)) = true ∧
    (let head := (encode (.clauseStart 0 0x800 15 11)).getD 0
     [true, false].all (fun q => ((tClaims q bare).strand 0).any (fun st => ((st.frag true).map Frag.claimed).getD 0 == if q then 0x800#12 else 0)) &&
      (encode (.clauseStart 0 0x800 15 11)).isSome && clauseOk [head, 0x09000000#32] && !clauseOk [head, head] && clauseFlags head == 0x800#12 &&
      (tHead 0x10000 id bare).strands.all (fun p => p.2.fragA.all (fun f => !f.started && !p.2.atJoin f && !f.resumed)) &&
      (0xFFF#12 &&& clauseFlags head) != 0 && (0x7FF#12 &&& clauseFlags head) == 0) = true := by
  decide +kernel

/-- O17: a spilled fragment beside one slot that is free, whose stack is mapped or not; an ended strand; a block without strands. -/
theorem test_meets_FragmentsAndBlocksAreMovedByTheDevice :
    ([true, false].all (fun q =>
      let s := modS 0 (fun st => { st with stack := [(0, .frag (Frag.start 0x10000) 7)], nextExchange := 0 }) (if q then stacked bare else mapped bare)
      (s.strand 0).any (fun st => st.movable && st.fragB.isNone && st.fragA.any (fun f => f.hold == .none) && !st.spilledFrags.isEmpty &&
        !decide (s.dclk < st.nextExchange) && st.spilledFrags.all (fun p =>
          let (s1, a) := s.stackAccess 0 st .read p.1
          let (s2, a2) := s1.stackAccess 0 st .write ((Tbl.freeKey st.stack 0 255).getD p.1)
          s1.strand 0 == some st && (a == .ok) == q && (!q || (a2 == .ok && s2.strand 0 == some st && s2.dclk == s.dclk)))))) = true ∧
    (let s := modS 0 (fun st => { st with ended := true, fragA := none }) bare
     (s.strand 0).any (fun st => st.ended && st.opLog.isEmpty && (s.flightsOf 0).isEmpty)) = true ∧
    (let s := { bare with strands := [] }
     (s.block 0).any (fun b => b.idle && (s.strandsOf 0).isEmpty)) = true := by
  decide +kernel

/-- Lanes 31 and 30, lane 31 alone in the fragment in hand, under two records; `arr` waits at the inner one, whose mask is `m`. -/
def tExit (m arr : Mask) (st : Strand) : Strand :=
  { st with
    fragA := st.fragA.map (fun f => { f with mask := 0x80000000#32, join := some 1 })
    fragB := if arr = 0 then some { Frag.start 0x10000 with mask := 0x40000000#32, join := some 1 } else none
    stack := [(0, .join 0x20000 0xC0000000#32 0 0 [] none), (1, .join 0x10000 m arr 0 [] (some 0))] }

/-- O15, of an `exit` under records that it does not complete, one of which is left empty or not, and of one that fuses. -/
theorem test_meets_JoinExitAndYield_records :
    (∀ m ∈ [0xC0000000#32, 0x80000000#32], ∃ c, Issued .exit (onS 0 (tExit m 0) .exit) c ∧
      ((c.st.chain 256 c.f.join == [1, 0]) && [(0, 0xC0000000#32), (1, m)].all (fun (j, x) =>
        (match Tbl.find c.st.stack j with
          | some (.join _ y arr _ _ _) => y == x && arr == 0
          | _ => false))) = true) ∧
    (∃ c, Issued .exit (onS 0 (tExit 0xC0000000#32 0x40000000#32) .exit) c ∧ (c.f.join == some 1 &&
      Tbl.find c.st.stack 1 == some (.join 0x10000 0xC0000000#32 0x40000000#32 0 [] (some 0)) && 0x40000000#32 == (0xC0000000#32 &&& ~~~c.f.mask) &&
      !c.st.atJoin { c.f.went 0x10000 with join := some 0 }) = true) :=
  ⟨each_meets_one (i := fun _ => .exit) (by decide +kernel), of_meets (by decide +kernel)⟩



/-- The words of O18. -/
def accessWords : List Instr :=
  [.lds 8 10 1 3, .sts 2 10 12, .ldsm 8 10 15, .stsm 15 10 12, .ld 8 10 1 3, .ldb 8 10 1 3, .st 2 10 12, .stb 2 10 12, .ldm 8 10 15, .stm 15 10 12, .pref 10,
   .chain 8 10, .pin 10, .unpin 10, .lotwb 10, .lotdrop 10, .atom 0 5 3 10 12, .atomn 7 0 0 10 12, .atomsc 2 10 12, .cas 5 3 10 12, .lda 8 10 1 5,
   .stl 1 5 10 12]

/-- O18: every word at an address that passes, in lane 31 and the last register; and with no active lane. -/
theorem test_meets_AccessWordsGoIntoFlight :
    (∀ i ∈ accessWords, ∃ c, Issued i (onS 0 (fill 10 0x400) i) c ∧ (c.act == Mask.all && (askOf c.i c.type).any (fun ask =>
      (List.range 32).all (fun L => (List.range ask.op.runLen).all (fun j =>
        (c.source 1 true 10).at L == 0x400 && (c.source 1 false 10).at L == 0x400 &&
          passes (c.s.laneTarget c.st ask (0x400 + ask.op.stride * j)))))) = true) ∧
    ∀ i ∈ accessWords, ∃ c, Issued i (on 0x100 i) c ∧ (c.act == 0) = true := by
  exact ⟨all_meet (by decide +kernel), all_meet (by decide +kernel)⟩

/-- O19: addresses at the ends of each row of the table, for a load and for a load that needs no alignment; `spt` and `spc`. -/
theorem test_meets_WindowsAreCheckedAndClassified :
    (let s := mates bare
     (s.strand 0).any (fun st => (s.block st.block).any (fun b => st.block == 0 && decide (st.block < 1536) && b.sa == 4096 && b.ca == 65536 &&
       (askOf (.ld 8 10 0 0) 0).any (fun x => x.aligned && x.size == 4 && x.windows == .all && x.access == .read) &&
       (2 ^ 64 - 1) % 4 != 0 && addrKind 0 == 0 && addrKind (2 ^ 57 - 4) == 0 && addrKind 0xFE00000000000000 == 1 && addrKind 0xFE00FFFFFFFFFFFC == 1 &&
       addrKind 0x0200000000000000 == 4 && addrKind (2 ^ 64 - 4) == 4 && addrKind 0xFF00C00000000000 == 2 && bits 0xFF00C00000000000 47 40 == 192 &&
       bits 0xFF00000100000000 36 32 == 1 && bits 0xFF00BFE000000000 47 40 * 8 + bits 0xFF00BFE000000000 39 37 == 1535 &&
       addrKind 0xFF00000000000FFC == 2 && addrKind 0xFF01000000000000 == 3 && bits 0xFF01000000000000 47 35 != b.tag.toNat &&
       bits 0xFF01002A00000000 47 35 == b.tag.toNat && bits 0xFF01002A00000000 34 32 == st.gangBlocks))) = true ∧
    ∀ a ∈ [0#32, 0xFE000000#32, 0xFF000000#32, 0xFF010028#32, 0xFF010029#32],
      ∀ i ∈ [Instr.spt 8 10, .spc 8 10], ∃ c, Issued i (mates (onS 0 (fun st => fill 10 0xFFC (fill 11 a st)) i)) c ∧
        (Mask.has c.act 31 && lanesAll c.act (fun L => passes (c.s.window c.st ((c.plain true 10).at L)))) = true := by
  exact ⟨by decide +kernel, each_meets (by decide +kernel)⟩

/-- The hypotheses of O20 at the first word in flight, when lane `L` goes to `off L`. -/
def localHyps (s : State) (gang : Bool) (k : Nat) (off : Nat → Nat) : Bool :=
  s.flights.any (fun f => (s.strand f.strand).any (fun st => f.ask.any (fun x => (s.block k).isSome && (
    let m := if gang then f.gangL else f.localL
    s.flight f.id == some f && (gang || k == st.block) && s.flights.all (fun g => f.pos ≤ g.pos) && s.mayPerform f &&
      m != 0 && (if gang then f.localL else f.gangL) == 0 && f.xlatL == 0 && f.reqs.isEmpty && f.bad.isEmpty && f.first == 0 && f.stop == 1 &&
      f.got.isEmpty && f.mask == m && Mask.has m 31 && (s.block k).any (fun b => b.poison.isEmpty && b.ecc.isEmpty) &&
      lanesAll m (fun L => match s.laneTarget st x (f.at_ 0 L) with
        | .ok (.own o) => !gang && o == off L
        | .ok (.other j o) => gang && j == k && o == off L
        | _ => false) &&
      (match f.op with
       | .load .. => f.regs == 1 && f.dests.all (fun n => 192 ≤ n || st.granules.getLsbD (n / 8))
       | .store .. => f.regs == 0
       | _ => false)))))

/-- O20: a load and a store of each kind, at the own block and at a mate, at the end of the scratchpad and of the column. -/
theorem test_meets_LocalAccessesReadAndWriteTheBlock :
    ([Instr.lds 8 10 1 2, .sts 2 10 12].all (fun i => localHyps (issued i (onS 0 (fill 10 0x1FFFC#32) i)) false 0 (fun _ => 0x1FFFC) == false &&
      localHyps (issued i (onS 0 (fill 10 0x100FFFE#32) i)) false 0 (fun _ => 0x100FFFE))) = true ∧
    ([Instr.ld 8 10 0 1, .st 1 10 12].all (fun i =>
      localHyps (issued i (mates (onS 0 (fun st => fill 10 0xF00 (fill 11 0xFF000000 st)) i))) false 0 (fun _ => 0xF00) &&
      localHyps (issued i (mates (onS 0 (fun st => fill 10 0x100FFF8 (fill 11 0xFF010029 st)) i))) true 8 (fun _ => 0x100FFF8))) = true := by
  decide +kernel



/-- O21: a link with a partner and one without, also with no lane; a queue with room for one more entry; an entry that waits. -/
theorem test_meets_EdgeEntriesTravelInOrder :
    (∀ i ∈ [Instr.xsend 3 1 10, .xrecv 8 3 1], ∃ c, Issued i (mates (on 0 i)) c ∧ (c.s.partner c.st.block 1 matches .ok 8) = true) ∧
    ([Instr.xsend 0 0 10, .xrecv 8 0 0].all (fun i => [0x0#32, 0x100].all (fun m => meets i (mates (on m i)) (fun c =>
      (c.s.partner c.st.block 0 matches .error .badWindow) && (c.act != 0) == (m == 0))))) = true ∧
    (let s := modB 8 (fun b => { b with edges := [(4 * 3 + 3, List.replicate 7 ⟨[], 0⟩)] }) (issued (.xsend 3 1 10) (mates (on 0 (.xsend 3 1 10))))
     s.flights.any (fun f => s.flight f.id == some f && f.op == .xsend 1 3 && f.bad.isEmpty && s.flights.all (fun g => f.pos ≤ g.pos) && (s.partner f.agent.block 1 matches .ok 8) &&
       (s.block 8).any (fun b => (Tbl.get [] b.edges (4 * ((1 + 2) % 4) + 3)).length == 7))) = true ∧
    (let s := modB 0 (fun b => { b with edges := [(4 * 1 + 3, [⟨Lanes.zero, 0xFF#32⟩])] }) (issued (.xrecv 8 3 1) (mates (on 0 (.xrecv 8 3 1))))
     s.flights.any (fun f => s.flight f.id == some f && f.op == .xrecv 1 3 && !f.wide && s.flights.all (fun g => f.pos ≤ g.pos) && f.regs == 1 && (s.strand f.strand).any (fun st => writableB st f) &&
       (s.block f.agent.block).any (fun b => Tbl.get [] b.edges (4 * 1 + 3) == [⟨Lanes.zero, 0xFF#32⟩]))) = true :=
  ⟨all_meet (by decide +kernel), by decide +kernel, by decide +kernel, by decide +kernel⟩

/-- The hypotheses of O22, under a page of class `cls`. -/
def chainHyps (cls : Nat) (s : State) : Bool :=
  s.flights.any (fun f => (s.strand f.strand).any (fun st => f.reqs.any (fun r => lastReqB f r &&
    s.flight f.id == some f && f.mask == r.lanes && Mask.has f.mask 31 && f.got.isEmpty && r.reg == 0 && r.phase == .tag && !r.away &&
    r.chain == clusterOf f.agent.core && s.slotReady f r && !inPeer (256 * r.lot) &&
    (match Tbl.find f.pages r.page with
     | some (.ok x) => x.cls == cls && (cls == 0 || (s.homeOf f.agent.tract (256 * r.lot) 256 == r.chain && Tbl.find (s.cluster r.chain).lent r.lot == none))
     | _ => false) &&
    ((s.cluster r.chain).lot r.lot).any (fun l => l.place == .station 16383) &&
    lanesAll r.lanes (fun L => !f.inStack 0 L && (f.lotBytes 0 L r.lot).length != 0 && decide (f.lotBytes 0 L r.lot).Nodup &&
      (f.lotBytes 0 L r.lot).all (fun a => !s.poisoned a && Tbl.find s.ecc (a / 32) != some true)) &&
    (match f.op with
     | .load .. => f.regs == 1 && writableB st f
     | .store .. => f.regs == 0
     | _ => false))))
/-- The leaf of `mapped` with the class coherent. -/
def coherent (s : State) : State := s.writeN 0x200000 8 0x27F

/-- O22: a load and a store at the last bytes of a lot, under a private page and at the home of a coherent lot. -/
theorem test_meets_ChainAccessesReadAndWriteMemory :
    ([Instr.ld 8 10 0 1, .st 1 10 12].all (fun i =>
      chainHyps 0 (inChain 0 1536 (tLot (.station 16383)) (walked i 0 (fill 10 0x600F8))) &&
      chainHyps 2 (inChain 0 1536 (tLot (.station 16383))
        (after (exec (.tlbWalkComplete 0) (issued i (coherent (mapped (onS 0 (fun st => fill 10 0x600F8 { st with groot := 0x100000 }) i))))))))) = true := by
  decide +kernel

/-- The hypotheses that the clauses of O23 share. -/
def requestHyps (s : State) (p : Flight → Req → Bool) : Bool :=
  s.flights.any (fun f => (s.strand f.strand).any (fun st => f.reqs.any (fun r => lastReqB f r && s.flight f.id == some f && writableB st f &&
    (f.op matches .load ..) && f.regs == 1 && f.mask == r.lanes && r.reg == 0 && p f r)))
def tLoad : State := walked (.ld 8 10 0 1) 0 (fill 10 0x600F8)

/-- O23: a reply, a delivery, a reply of a peer, a retry, a fill, and the two acknowledgements of a write. -/
theorem test_meets_RequestsAreAnswered :
    requestHyps (modR (fun r => { r with phase := .reply }) tLoad) (fun _ r => r.phase == .reply && !inPeer (256 * r.lot)) = true ∧
    requestHyps (modR (fun r => { r with phase := .deliver }) tLoad) (fun _ r => r.phase == .deliver) = true ∧
    requestHyps (modR (fun r => { r with phase := .reply, lot := 2 ^ 43 }) tLoad) (fun f r => r.phase == .reply && inPeer (256 * r.lot) && f.got.isEmpty) = true ∧
    requestHyps (modR (fun r => { r with phase := .retry }) tLoad) (fun _ r => r.phase == .retry) = true ∧
    (let s := inChain 0 1536 (tLot (.miss true 3 0 5 false)) (modR (fun r => { r with phase := .fill }) tLoad)
     requestHyps s (fun f r => s.waiting r.chain r.lot .fill == [(f.id, r)] && r.chain == clusterOf f.agent.core &&
       ((s.cluster r.chain).lot r.lot).any (fun l => l.copy.isNone && (l.place matches .miss ..)))) = true ∧
    ([true, false].all (fun b =>
      let s := modR (fun r => { r with phase := .reply }) tLoad
      let s := s.setCluster 0 { s.cluster 0 with wbs := [⟨1536, 0, b, true, true, 0⟩] }
      requestHyps s (fun _ r => ((s.cluster r.chain).wbs.find? (fun w => w.lot == r.lot)).any (fun w => w.started == b) &&
        (s.waiting r.chain r.lot .ack).isEmpty))) = true := by
  decide +kernel

/-- A cluster with lot 7 in motion to its gate from hole 40, lot 8 at station 0 and lot 9 pinned at station 1. -/
def tChain (p : Place) : State :=
  let s := inChain 0 9 (tLot (.station 1)) (inChain 0 8 (tLot (.station 0)) (inChain 0 7 (tLot p) (mapped bare)))
  { s.setCluster 0 { s.cluster 0 with pins := [⟨9, 5, 0, 1⟩] } with dclk := 1024 }

/-- O24: a lot that lands before a pinned station; landings by a front port and at each gate; a motion that ends; a recall, a
release of pins, a tick, a sweep. -/
theorem test_meets_LotsLandAndClocksAdvance :
    (let s := tChain (.moving 1 (some 40) false 0 0 0 0 true)
     let c := s.cluster 0
     (c.lot 7).any (fun l => l.sub == 0 && (l.place matches .moving _ (some 40) ..)) && (c.lot 8).any (fun m => m.sub == 0 && m.place == .station 0) &&
       c.pinnedAt 0 == [1] && c.subValid 0 && decide (Tbl.get 0 c.landed 0 ≤ s.sclk false) && c.candidates 0 0 0 (s.sclk false) == [7] &&
       decide (0 < c.ports 0 (s.sclk false)) && (c.land 7 0).isSome && decide (c.ticks < s.dclk.toNat / 1024)) = true ∧
    ([true, false].all (fun cap =>
      let s := tChain (if cap then .moving 1 (some 300) true 0 0 0 0 true else .arrived true 0 0 0 0)
      let c := s.cluster 0
      c.subValid 0 && (c.candidates 0 0 (if cap then 1 else 2) (s.sclk true)).head? == some 7 && (c.land 7 (if cap then c.cap 0 else c.insertion 0)).isSome)) = true ∧
    (let s := tChain (.moving 1 (some 40) true 2049 0 0 0 false)
     ((s.cluster 0).lot 7).any (fun l => l.place == .moving 1 (some 40) true 2049 0 0 0 false) && decide (2049 ≤ s.sclk true)) = true ∧
    (let i := Instr.ld 8 10 0 1
     let u := after (exec (.tlbWalkComplete 0) (issued i (coherent (mapped (onS 0 (fun st => fill 10 0x600F8 { st with groot := 0x100000 }) i)))))
     let s := { u.setCluster 0 { u.cluster 0 with lent := [(1536, 3)] } with pinRelease := [5#13] }
     Tbl.find (s.cluster 0).lent 1536 == some 3 && s.pinRelease.contains (BitVec.ofNat 13 5) &&
       s.flights.any (fun f => (s.cluster 0).borrower 1536 != some f.agent.core && f.op != .chain && f.op != .mon &&
         s.homeOf f.agent.tract (256 * 1536) 256 == 0 && f.reqs.any (fun r => r.lot == 1536 && r.phase == .tag &&
           (f.pageOf r).any (fun x => x.cls == 2)))) = true := by
  decide +kernel

/-- O25: a first reference, a second to the last that is counted, where the lot has landed and where it stands pinned, and one taken
away. -/
theorem test_meets_PinsCountReferences :
    ([(Instr.pin 10, ([] : List Pin), true), (.pin 10, [⟨1536, 5, 0, 1⟩], true), (.pin 10, [⟨1536, 5, 0, 254⟩], false), (.pin 10, [⟨1536, 9, 0, 1⟩], false),
      (.unpin 10, [], false), (.unpin 10, [⟨1536, 5, 0, 1⟩], false)].all (fun (p : Instr × List Pin × Bool) =>
      let s := inChain 0 1536 (tLot (.station 0)) (walked p.1 0 (fill 10 0x600F8))
      let s := s.setCluster 0 { s.cluster 0 with pins := p.2.1 }
      let s := if p.2.2 then modR (fun r => { r with phase := .land }) s else s
      s.flights.any (fun f => f.reqs.any (fun r => lastReqB f r && s.flight f.id == some f && (s.strand f.strand).isSome && f.dueReq r.lot == some r &&
        s.slotReady f r && !inPeer (256 * r.lot) && f.regs == 0 && !f.acquire && f.agent.gang == 5 && (f.op == .pin || f.op == .unpin) &&
        (match Tbl.find f.pages r.page with
         | some (.ok x) =>
           let k := s.holdingChain f.agent.tract f.agent.core r.lot x.cls
           let c := s.cluster k
           k == clusterOf f.agent.core && r.chain == k && (p.1 != .pin 10 || r.phase == .land || (r.phase == .tag && c.pinned r.lot)) &&
             (c.lot r.lot).any (fun l => l.dom == f.agent.ident && l.copy.isNone && l.place == .station 0 && !s.lentAway f r x && c.lent.isEmpty && s.pinRoom k (s.homeOf f.agent.tract (256 * r.lot) 256) r.lot l.dom)
         | _ => false))))) = true := by
  decide +kernel



/-- O26: the three questions of `pgq`, a walk of a query and of a load, an invalidation with the right and without it, and
`tlbsync` with nothing before it and with an invalidation before it. -/
theorem test_meets_TranslationWordsQueryAndInvalidate :
    (∀ i ∈ [Instr.pgq 8 10 0, .pgq 8 10 1, .pgq 8 10 2], ∃ c, Issued i (on 0 i) c ∧ (c.act != 0) = true) ∧
    (let s := issued (.pgq 8 10 2) (mapped (on 0 (.pgq 8 10 2)))
     s.flights.any (fun f => (s.strand f.strand).any (fun st => s.flight f.id == some f && f.op == .pgq 2 && f.xlatL == f.mask && Mask.has f.mask 31 &&
       f.localL == 0 && f.gangL == 0 && f.reqs.isEmpty && f.bad.isEmpty && f.got.isEmpty && f.regs == 1 && f.wide && writableB st f &&
       (s.flightsOf f.strand).all (fun g => f.pos ≤ g.pos || g.xlatL == 0)))) = true ∧
    (let s := issued (.ld 8 10 0 1) (mapped (onS 0 (fun st => fill 10 0x600F8 { st with groot := 0x100000 }) (.ld 8 10 0 1)))
     s.flights.any (fun f => s.flight f.id == some f && !(f.op matches .pgq _) && f.xlatL != 0 &&
       (s.flightsOf f.strand).all (fun h => f.pos ≤ h.pos || h.xlatL == 0) &&
       (match s.translateFlight f with
        | (s2, g) => s2.flight f.id == some f && g.id == f.id && g.bad == f.bad && g.stop == f.stop && !g.finished))) = true ∧
    (∀ r ∈ [true, false], ∀ i ∈ [Instr.tlbinv 0 10 12, .tlbinv 5 10 12, .tlbsync],
      ∃ c, Issued i (onS 0 (fun st => { st with rightKernel := r }) i) c ∧
        (c.st.rightKernel == r && c.act.lowest == some 0 && c.s.tlbSettled c.s.cur c.s.nextFlight) = true) ∧
    (let s := issued (.tlbinv 5 10 12) (onS 0 (fun st => { st with rightKernel := true }) (.tlbinv 5 10 12))
     s.flights.any (fun f => s.flight f.id == some f && f.op == .tlbinv 5 0 0)) = true ∧
    (let s := issued (.tlbinv 5 10 12) (onS 0 (fun st => { st with rightKernel := true }) (.tlbinv 5 10 12))
     meets .tlbsync { onS 0 (fun st => { st with rightKernel := true }) .tlbsync with flights := s.flights, nextFlight := s.nextFlight }
       (fun c => c.st.rightKernel && !c.s.tlbSettled c.s.cur c.s.nextFlight)) = true :=
  ⟨all_meet (by decide +kernel), by decide +kernel, by decide +kernel, each_meets (by decide +kernel), by decide +kernel, by decide +kernel⟩

/-- The tract of `mapped` with a dirty ring at 0x600000 that holds one job, for the leaf at 0x200000, and with the backing
table at 0x700000, whose first region holds the job's address when `r` is true. -/
def tScan (r : Bool) : State :=
  withBytes ([(0x400068, 8, 0x600000), (0x400070, 8, 1), (0x400058, 8, 0x700000),
      (0x600000, 32, 0x10000 + 0x200000 * 2 ^ 128 + 3 * 2 ^ 208)] ++
    (if r then [(0x700000, 32, 0x10000 + 2 ^ 64 + 2 ^ 226)] else [])) (mapped bare)

/-- A job of the page at 0x600000, whose leaf the kernel has changed or not, or a walker has. -/
def tScanJob (leaf : DWord) : ScanJob := ⟨4, 0, 0x600000, 0x600000, 0x200000, 0, 0, 0x200000, leaf, [(0x600000, 65536)], 0x700000⟩

/-- O27: a job that is taken, and one that is dropped; a job whose page has a write to come, a dirty lot in motion, or neither, with a
leaf that is as it was, that a walker has marked, or that the kernel has changed, with room for an event and without. -/
theorem test_meets_ScannerAndPeersUpdateTheirTables :
    (let s := tScan false
     s.backed 0 0x10000 0 == false) = true ∧
    (let s := tScan true
     let cons := s.tractField 0 1023 960
     let job := s.readN (s.tractField 0 895 832 + 32 * (cons % 2 ^ s.tractField 0 831 828)) 32
     let s1 := (s.writeN (s.tractAt 0 + 120) 8 (cons + 1)).flushLate
     let sp := scanSpace 0 (BitVec.ofNat 16 (bits job 207 192))
     let leaf := s1.readN 0x200000 8
     decide (cons < s.tractField 0 959 896) && s1.backed 0 (bits job 63 0) (bits job 207 192) && physOf s1 0 sp (s1.stage2 sp) (bits job 191 128) == .ok 0x200000 none [] &&
       physOf s1 0 sp (s1.stage2 sp) (leafOut (4 - bits job 209 208) leaf 0) == .ok (bits job 127 64) none [] && entryV leaf) = true ∧
    (let st := modR (fun r => { r with phase := .tag }) (walked (.st 1 10 12) 0 (fill 10 0x600F8))
     st.flights.all (fun f => !f.finished) &&
     [(st, [(0x60000, 65536)], true, false), (inChain 3 0x6000 { tLot (.moving 1 none false 0 0 0 0 true) with dirty := true } (mapped bare), [(0x600000, 65536)], false, true),
      (inChain 3 0x6000 { tLot (.station 0) with dirty := true } (mapped bare), [(0x600000, 65536)], false, false)].all
       (fun (p : State × List (Nat × Nat) × Bool × Bool) => [(0x7F#64, true), (0x5F, true), (0x3F, false)].all (fun (q : DWord × Bool) =>
         let j := { tScanJob q.1 with parts := p.2.1 }
         let s := { p.1 with scans := [j] }
         s.scan j.id == some j && s.writesPending j.parts == p.2.2.1 && s.dirtyMoving j.parts == p.2.2.2 &&
           decide ((BitVec.ofNat 64 (s.readN j.leafAt 8) ^^^ j.leaf) &&& ~~~0x20#64 = 0 ∧
             ((BitVec.ofNat 64 (s.readN j.leafAt 8)).getLsbD 5 = true ∨ j.leaf.getLsbD 5 = false)) == q.2)) &&
     [0, 4096].all (fun n => (List.replicate n 0#512).length == n) &&
     (let s := (mapped bare).writeN 0x200000 8 0x5F
      ((BitVec.ofNat 64 (s.readN 0x200000 8) ^^^ 0x7F#64) &&& ~~~0x20#64) == 0 && !(BitVec.ofNat 64 (s.readN 0x200000 8)).getLsbD 5)) = true := by
  decide +kernel

/-- Edits barrier 15 of block 0. -/
def tBar (g : Barrier → Barrier) (s : State) : State := modB 0 (fun b => b.setBarrier 15 (g (b.barrier 15))) s
def halves (st : Strand) : Strand :=
  { st with fragA := st.fragA.map (fun f => { f with mask := 0xFFFF#32 }), fragB := some { Frag.start 0x10000 with mask := 0xFFFF0000#32 } }

/-- O28: an arrival of half the lanes, one of the first of two strands, the last of a phase; a flip that is due, with nothing and with
whole expectations carried past it; a wait; a wait that has passed; each expectation at its ends; a status word. -/
theorem test_meets_BarrierArrivalsFlipPhases :
    (let ok (c : Ctx) : Bool := !c.f.resumed && decide (c.st.number < 32)
     let lanes (c : Ctx) (b : Block) : Mask := Tbl.get 0 (b.barrier 15).lanes c.st.number ||| c.f.mask
     meets (.barar 15) (onS 0 halves (.barar 15)) (fun c => ok c && (c.s.block c.st.block).any (fun b => !covers (lanes c b) c.st.liveLanes)) &&
     [Instr.barar 15, .bar 15].all (fun i =>
       meets i (tBar (fun x => { x with strandsExpect := 2 }) (on 0 i)) (fun c => ok c && (c.s.block c.st.block).any (fun b =>
         covers (lanes c b) c.st.liveLanes && decide ((b.barrier 15).arrivals + 1 < (b.barrier 15).strandsExpect))) &&
       meets i (tBar (fun x => { x with strandsExpect := 32, arrivals := 31 }) (on 0 i)) (fun c => ok c && c.s.flips.isEmpty &&
         (c.s.block c.st.block).any (fun b =>
           let x := b.barrier 15
           covers (lanes c b) c.st.liveLanes && x.arrivals + 1 == x.strandsExpect && decide (x.seqExpect ≤ x.seqArrived))) &&
       meets i (tBar (fun x => { x with strandsExpect := 2, expired := true }) (on 0 i)) ok) &&
     [(1, [], none), (3, [(0, 1), (1, 2)], none), (1, [], some (2, 1))].all (fun (p : Nat × List (Nat × Nat) × Option (Nat × Nat)) => [(7#64, true), (8, true), (9, false)].all (fun q =>
       let s := { tBar (fun x => { x with strandsExpect := 1, arrivals := p.1, carry := p.2.1, nextExpect := p.2.2 }) bare with flips := [(0, 15, q.1)], dclk := 7 }
       (s.strand 0).any (fun st => st.block == 0) && s.flips == [(0, 15, q.1)] && decide (q.1 ≤ s.dclk + 1) == q.2)) &&
     meets (.barw 15) (on 0 (.barw 15)) (fun c => ok c && (c.s.block c.st.block).any (fun b =>
       !(b.barrier 15).expired && Tbl.find (b.barrier 15).token c.st.number == none)) &&
     meets (.barw 15) (tBar (fun x => { x with phase := 0 }) (onS 0 (fun st => { st with fragA := st.fragA.map (fun f => { f with hold := .bar 15 0xFFFFFFFF }) })
       (.barw 15))) (fun c => ok c && c.f.hold == .bar 15 0xFFFFFFFF && c.s.strand c.s.cur == some c.st && c.st.frag c.s.curSlot == some c.f &&
         (c.s.block c.st.block).any (fun b => phasePassed (b.barrier 15).phase 0xFFFFFFFF)) &&
     [(0x1000#32, false), (33, false), (0x40, false), (0, true), (0xF20, true)].all (fun p =>
       [0, 1].all (fun n => meets (.bararArm 15 10) (tBar (fun x => { x with arrivals := n }) (onS 0 (fill 10 p.1) (.bararArm 15 10))) (fun c => ok c &&
         (let v := c.lowest false 10
          (v / 4096 == 0 && bits v 7 6 == 0 && decide (bits v 5 0 ≤ 32)) == p.2)))) &&
     meets (.barst 8 15) (on 0 (.barst 8 15)) (fun c => ok c && Mask.has c.act 31)) = true := by
  decide +kernel



/-- O29: a group that does not name the block, one that has broken, one whose last member arrives. -/
theorem test_meets_GroupBarriersJoinBlocks :
    ([(255#8, ([] : List Nat)), (3, [3]), (3, [])].all (fun p =>
      meets (.gbar p.1) { on 0 (.gbar p.1) with launches := [{ tLaunch with groupBroken := p.2 }] } (fun c =>
        !c.f.resumed && (c.s.block c.st.block).any (fun b => (c.s.launch b.launch).any (fun l =>
          if p.1 = 255 then !(Tbl.get [] l.groups p.1.toNat).contains (c.s.memberOf b)
          else (Tbl.get [] l.groups p.1.toNat) == [c.s.memberOf b] && l.groupBroken.contains p.1.toNat == !p.2.isEmpty &&
            Tbl.get [] l.groupArrived p.1.toNat == [] && c.s.strandsOf c.st.block == [c.s.cur] && decide (c.st.number < 32) && decide (c.st.block / 8 < 192) &&
            covers (Tbl.get 0 b.groupLanes (groupKey p.1.toNat c.st.number) ||| c.f.mask) c.st.liveLanes))))) = true := by
  decide +kernel

/-- The counters of a block at `n` of `m` requests. -/
def counts (n m : DWord) (b : Block) : Block :=
  { b with
    tlx := n, tlxSubmitted := m, copy := { b.copy with tlc := n, submitted := m }, seq := { b.seq with tlm := n, submitted := m }
    stoch := { b.stoch with tls := n, submitted := m } }

/-- O30: each word, at once and held; and each expiry one clk early and on time, of a phase that is complete and of one that is not. -/
theorem test_meets_WaitingWordsHoldAndExpire :
    ([(0x800#12, false), (0x7FF, true)].all (fun p => meets (.fwait p.1) (onS 0 (fun st => { st with flags := 0x800 }) (.fwait p.1)) (fun c =>
       (c.st.flags &&& p.1 == 0) == p.2 && c.act.lowest == some 0)) &&
     [0#2, 1, 2, 3].all (fun q => [(6#32, 5#64), (5, 5), (5, 0)].all (fun p =>
       meets (.twait q 10) (modB 0 (counts p.2 5) (onS 0 (fill 10 p.1) (.twait q 10)))
         (fun c => (c.s.block c.st.block).any (fun b => let n : DWord := BitVec.ofNat 64 ((c.plain true 10).at 0)
           n == BitVec.ofNat 64 p.1.toNat && (b.counter q.toNat).2 == 5 && (b.counter q.toNat).1 == p.2 && (b.engineCause q.toNat n c.act).isNone)))) &&
     meets (.tget 8 3) (on 0 (.tget 8 3)) (fun c => Mask.has c.act 31) &&
     [0#3, 1, 5].all (fun sc => meets (.fence sc) (on 0 (.fence sc)) (fun c => (sc == 0 || c.s.releasable c.s.cur c.s.nextFlight (c.s.scopeFor (coreOf c.s.cur) sc.toNat)) && c.st.lost == 0)) &&
     (let s := issued (.st 0 10 12) (on 0 (.st 0 10 12))
      [1#3, 5].all (fun sc => meets (.fence sc) { on 0 (.fence sc) with flights := s.flights, nextFlight := s.nextFlight } (fun c =>
        !c.s.releasable c.s.cur c.s.nextFlight (c.s.scopeFor (coreOf c.s.cur) sc.toNat)))) &&
     [(false, 1#32, none), (true, 0, none), (true, 1, none), (true, 0xFFFFFFFF, some ⟨0, 0, true, false⟩), (true, 1, some ⟨0, 0, false, true⟩),
       (true, 1, some ⟨0, 24, false, false⟩)].all (fun (p : Bool × Word × Option Monitor) =>
       meets (.mwait 10) (onS 0 (fun st => fill 10 p.2.1 { st with rightMwait := p.1, monitor := p.2.2 }) (.mwait 10)) (fun c =>
         c.st.rightMwait == p.1 && (c.plain false 10).at 0 == p.2.1.toNat && c.st.monitor == p.2.2)) &&
     meets (.mwait 10) (onS 0x100 (fun st => { st with rightMwait := true, monitor := some ⟨0, 0, false, false⟩ }) (.mwait 10)) (fun c =>
       c.act == 0 && c.st.rightMwait) &&
     meets (.mon 10) (onS 0 (fun st => { st with rightMwait := true }) (.mon 10)) (fun c => c.st.rightMwait && c.act.lowest == some 0 &&
       tAsk (.mon 10) c.type (fun ask => passes (c.s.laneTarget c.st ask (Lanes.at 0 (c.source 1 true 10).lanes64 0).toNat)))) = true ∧
    ([67108863#64, 67108864#64].all (fun d =>
      let at_ (s : State) : State := { s with dclk := d }
      let due := d == 67108864#64
      ([0, 2].all (fun n =>
        let s := at_ (tBar (fun x => { x with firstWait := some 0, strandsExpect := 2, arrivals := n }) bare)
        (s.block 0).any (fun b => (b.barrier 15).firstWait == some 0 && !(b.barrier 15).expired && (b.barrier 15).full == (n == 2) &&
          decide (b.limitTicks ≤ s.dclk.toNat) == due))) &&
      (let s := at_ (modS 0 (holding (.counter 3 1 0 0)) bare)
       (s.strand 0).any (fun st => (st.frag false).any (fun f => f.hold == .counter 3 1 0 0 && (s.block st.block).any (fun b =>
         decide ((b.counter 3).1 < 1) && decide (b.limitTicks ≤ s.dclk.toNat) == due)))) &&
      (let s := at_ (modS 0 (fun st => holding (.mwait 67108864 7) { st with monitor := some ⟨0, 0, false, false⟩ }) bare)
       (s.strand 0).any (fun st => (st.frag false).any (fun f => f.hold == .mwait 67108864 7 && st.monitor.any (fun m => !m.fired && !m.lost) &&
         decide ((67108864 : DWord) ≤ s.dclk) == due))))) = true := by
  decide +kernel

/-- A stream of block 0 that is running, and its word at hand. -/
def tStream : Stream :=
  { n := 1, seqno := none, strand := 0, agent := ⟨0, 0, 0, 0, 0, 0x100000, 0, 0, false, 5, 0, 0⟩, spc := 0x10000, ready := none, busy := false, depth := 0, row := 0,
    col := 0, sq := List.replicate 4 0x00010739#32, fmt := 0, tiles := none, bbase := none, ascale := none, bsbase := none, tsa := 0, tsb := 0,
    x := List.replicate 8 0, loops := [], carry := 0, stok := [], sg := List.replicate 128 0x9E3779B9#32, malformed := false, loading := false, reported := [], arrived := none, waiting := false }
def seqAt (g : Stream → Stream) (h : Block → Block) : State :=
  modB 0 (fun b => let b := h b; { b with seq := { b.seq with running := some (g tStream), submitted := 1 } }) (mapped bare)

/-- O30: the expiry of `mwb`. -/
theorem test_meets_MwbTimeout :
    ([67108863#64, 67108864#64].all (fun d =>
      let s := { seqAt id (fun b => { b with seq := { b.seq with wait := some ⟨15, 0, 0⟩ } }) with dclk := d }
      (s.block 0).any (fun b => b.seq.running.isSome && b.seq.wait.any (fun w => w.k == 15 && !phasePassed (b.barrier w.k).phase w.phase &&
        decide (w.since.toNat + b.limitTicks ≤ s.dclk.toNat) == (d == 67108864#64))))) = true := by
  decide +kernel

/-- The hypotheses that the clauses of O31 about an own block share, in lane 31 alone. -/
def atomHyps (s : State) (off : Nat) : Bool :=
  s.flights.any (fun f => (s.strand f.strand).any (fun st => f.ask.any (fun x => (s.block st.block).any (fun b =>
    s.flight f.id == some f && (s.flightsOf f.strand).all (fun g => f.pos ≤ g.pos) && b.ecc.isEmpty && s.mayPerform f && f.mask == 1#32 <<< 31 &&
      f.localL == f.mask && f.gangL == 0 && f.xlatL == 0 && f.reqs.isEmpty && f.bad.isEmpty && f.first == 0 && f.stop == 1 && f.got.isEmpty &&
      writableB st f && (match s.laneTarget st x (f.at_ 0 31) with
        | .ok (.own o) => o == off
        | _ => false) && !b.poisonedAt off f.size &&
      (match f.op with
       | .atom _ t true => f.regs == 1 && f.wide == type64 t
       | .atom _ _ false => f.regs == 0
       | .cas w => f.regs == 1 && f.wide == w
       | _ => false)))))
def lane31 (st : Strand) : Strand := { st with fragA := st.fragA.map (fun f => { f with mask := 0x80000000#32 }) }

/-- O31: every kind of atomic on 32 and 64 bits at the end of the column; a promotion asked for, answered, and a ticket. -/
theorem test_meets_AtomicsAndPromotions :
    ([0x0#32, 0x7#32].all (fun m => [Instr.atom 6 0 0 10 12, .atomn 0 0 0 10 12, .cas 0 0 10 12].all (fun i =>
      atomHyps (issued i (onS m (fun st => fill 10 0x100FFF8 (fill 11 0xFF000000 (lane31 st))) i)) 0x100FFF8)) &&
     meets (.ldar 8 10 1 5) (on 0 (.ldar 8 10 1 5)) (fun c => c.act != 0 && tAsk (.ldar 8 10 1 5) c.type (fun ask =>
       lanesAll c.act (fun L => passes (c.s.laneTarget c.st ask (Lanes.at 0 (c.source 1 true 10).lanes64 L).toNat))))) = true ∧
    ([2#3, 5].all (fun sc =>
      let s := issued (.ldar 8 10 1 sc) (on 0 (.ldar 8 10 1 sc))
      s.flights.any (fun f => s.flight f.id == some f && f.promoting && f.asking.contains 0 && f.scope == sc.toNat && s.peerStores.isEmpty &&
        s.flights.all (fun g => g.agent.core != 0 || !g.op.writesMemory || g.reqs.isEmpty)))) = true ∧
    (let s := modF (fun f => { f with asking := [] }) (issued (.ldar 8 10 1 2) (on 0 (.ldar 8 10 1 2)))
     s.flights.any (fun f => s.flight f.id == some f && f.promoting && f.asking.isEmpty)) = true ∧
    (let s := walked (.atomsc 0 10 12) 0 id
     s.flights.any (fun f => s.flight f.id == some f && opcodeOf f.word == 0x8C && f.ticket == none && f.xlatL == 0 &&
       (s.flightsOf f.strand).all (fun g => f.pos ≤ g.pos || opcodeOf g.word != 0x8C || g.ticket.isSome))) = true := by
  decide +kernel



/-- A shape of `n` elements of 4 bytes one after the other from `base`, on target 0 (an address) or 2 (the own store). -/
def tShape (target base n : Nat) : BitVec 512 :=
  BitVec.ofNat 512 (2 + target * 4 + base * 2 ^ 64 + 4 * 2 ^ 192 + n * 2 ^ 232 + 2 ^ 296 + 2 ^ 360 + 2 ^ 424)
/-- Shape 1 is the source, shape 15 the target. -/
def shapes (x y : BitVec 512) (q : Nat) (s : State) : State :=
  modB 0 (fun b => { b with shapes := [(1, x), (15, y)], copy := { b.copy with quota := q } }) s

/-- O32: wrong counts, a wrong alignment, a full context, a copy, and a copy to a group of two members. -/
theorem test_meets_CopyWordsTakeTheNextNumber :
    ([Instr.cpy 8 15 1, .cpym 8 15 1 3].all (fun i =>
      [(tShape 0 0x60000 4, tShape 2 0x400 4, 64), (tShape 0 0x60000 5, tShape 2 0x400 4, 64), (tShape 0 0x60002 4, tShape 2 0x400 4, 64),
       (tShape 0 0x60000 4, tShape 2 0x400 4, 0)].all (fun p =>
        meets i { shapes p.1 p.2.1 p.2.2 (mapped (on 0 i)) with launches := [{ tLaunch with groups := [(3, [8, 1023])] }] } (fun c =>
          (c.s.block c.st.block).any (fun b =>
            let src := Tbl.get 0 b.shapes 1
            let dst := Tbl.get 0 b.shapes 15
            c.act != 0 && shValid src && shValid dst && shSize src == shSize dst && ((shCount src == shCount dst) == (p.1 != tShape 0 0x60000 5)) &&
              decide (shCount src * shSize src ≤ 2 ^ 32) && shTarget src == 0 && shTarget dst == 2 &&
              (shAligned src && shAligned dst) == (p.1 != tShape 0 0x60002 4) && (c.s.sideWindow c.st.block b src).isNone &&
              (c.s.sideWindow c.st.block b dst).isNone && b.copy.reqs.isEmpty && b.copy.quota == p.2.2 &&
              (c.s.launch b.launch).any (fun l => Tbl.get [] l.groups 3 == [8, 1023]) &&
              [8, 1023].all (fun m => c.s.memberAt b.launch m == .waiting)))))) = true := by
  decide +kernel

/-- A copy of 16 bytes, submitted, its request edited. -/
def tCopy (base : Nat) (g : CopyReq → CopyReq) : State :=
  let i := Instr.cpy 8 15 1
  let s := issued i (shapes (tShape 0 base 4) (tShape 2 0x400 4) 64 (mapped (onS 0 (fun st => { st with groot := 0x100000 }) i)))
  modB 0 (fun b => { b with copy := { b.copy with reqs := b.copy.reqs.map g } }) s
/-- Equality of blocks but for the stochastic context, whose reset seeds take thousands of steps to compute. -/
def sameButStoch (x y : Block) : Bool :=
  { x with stoch := ⟨256, [], [], 0, 0, []⟩ } == { y with stoch := ⟨256, [], [], 0, 0, []⟩ }
def copyHyps (s : State) (p : Block → CopyReq → Bool) : Bool :=
  (s.block 0).any (fun b => b.copy.reqs.any (fun r => b.copy.req r.n == some r && decide (r.n.toNat < 2 ^ 64) && p b r))
def tStarts (s : State) (b : Block) (r : CopyReq) : Bool :=
  b.copy.mayStart r && s.copyGoesOn 0 r && decide (b.copy.fixups < 32) && r.segs[0]? == some .todo && (segments r.src r.dst)[0]? == some (0, 4) && r.group.isNone
def tDeposit : Deposit := ⟨4, 0, 1, tShape 0 0x60000 4, tShape 2 0x400 4, 1, (List.range 16).map (fun j => (j, 7)), 0, 0, 1, 0⟩
/-- A segment that took a fix-up entry, and the answers that a new attempt may have. -/
def tFix (held scanner : Bool) : SegState := .fix held .notPresent false 0x60000 0x60000 0x70000 0 0 scanner
def tAnswers : List ((CopyReq → CopyReq) × (SegState → Bool)) :=
  [(id, fun g => g == .done),
   (fun r => { r with src := tShape 0 0x90000000 4 }, fun g => match g with
     | .fix false c _ _ _ _ _ _ false => c != .stage2
     | _ => false),
   (fun r => { r with agent := { r.agent with vmid := 1 } }, fun g => match g with
     | .fix false c _ _ _ _ _ _ false => c == .stage2
     | _ => false),
   (fun r => { r with src := tShape 2 0x400 4, dst := tShape 0 0x60000 4 }, fun g => match g with
     | .fix false _ _ _ _ _ _ _ true => true
     | _ => false)]

/-- O33: a segment inside the block that is performed, one whose source or last element leaves its region; one by way of the sides'
functions; one that takes a fix-up entry; a replay, and a retry for the scanner, of each answer; a deposit; and a promise that is
kept and one that is not. -/
theorem test_meets_CopyEnginePerformsSegments :
    ([(0x100, 0x400, true), (4080, 0x400, true), (4084, 0x400, false), (2 ^ 64 - 4, 0x400, false), (0x100, 0x100FFF0, true)].all (fun (p : Nat × Nat × Bool) =>
      let s := tCopy 0x60000 (fun r => { r with src := tShape 2 p.1 4, dst := tShape 2 p.2.1 4 })
      copyHyps s (fun b r => tStarts s b r && shSize r.dst == shSize r.src && shTarget r.src == 2 && shTarget r.dst == 2 &&
        (let ok (x : BitVec 512) (j : Nat) : Bool := decide (0 ≤ shAt x j) && b.inRegion (shAt x j).toNat 4
         (List.range 4).all (fun j => ok r.src j) == p.2.2 && (!p.2.2 || (List.range 4).all (fun j =>
           !b.poisonedAt (shAt r.src j).toNat 4 && b.ecc.isEmpty && ok r.dst j && !b.meetsStatus (shAt r.dst j).toNat 4)))))) = true ∧
    (let s := tCopy 0x60000 id
     copyHyps s (fun b r => tStarts s b r && (match s.side 0 b r.agent r.src 0 4 false with
         | (s1, .ok fr x) => s1.sideTurn r fr x (shSize r.src) false == .goes && (match s1.side 0 b r.agent r.dst 0 4 true with
           | (s2, .ok sp x2) => s2.sideTurn r sp x2 (shSize r.src) true == .goes && ((s2.readSide r.agent fr x (shSize r.src)).2).isSome
           | _ => false)
         | _ => false))) = true ∧
    (let s := tCopy 0x90000000 id
     copyHyps s (fun b r => tStarts s b r && (match s.side 0 b r.agent r.src 0 4 false with
         | (s1, .fix ..) => s1.eventHeld == s.eventHeld && (s1.block 0).any (fun x => sameButStoch x b)
         | _ => false))) = true ∧
    (tAnswers.all (fun p => [(false, false), (true, true)].all (fun h =>
      let s := withBytes [(0x10, 8, 1), (0x18, 8, 0x120000), (0x200000, 8, if p.2 (.fix false .permission false 0 0 0 0 0 true) then 0x207F else 0x7F)] (tCopy 0x60000 (fun r => { p.1 r with segs := [tFix h.1 h.2] }))
      copyHyps s (fun b r => s.copyGoesOn 0 r && !r.segs.any SegState.isTodo && r.segs == [tFix h.1 h.2] && (match s.attempt 0 b r 0 with
        | (s1, g) => (s1.block 0).any (fun x => x.copy == b.copy) && s1.flights.isEmpty && decide (s1.eventHeld.length < 4096) && p.2 g))))) = true ∧
    (let s := { mates (tCopy 0x60000 id) with deposits := [tDeposit] }
     s.deposits.find? (fun x => x.id == tDeposit.id) == some tDeposit && tDeposit.left == 0 && s.memberAt 0 1 == .live 8 &&
       segments tDeposit.src tDeposit.dst == [(0, 4)] && shTarget tDeposit.dst == 2 && shSize tDeposit.dst == shSize tDeposit.src && shSize tDeposit.src == 4 &&
       (List.range 16).all (fun j => (Tbl.find tDeposit.data j).isSome) && (s.block 8).any (fun b => (List.range 4).all (fun j =>
         decide (0 ≤ shAt tDeposit.dst j) && b.inRegion (shAt tDeposit.dst j).toNat 4 && !b.meetsStatus (shAt tDeposit.dst j).toNat 4))) = true ∧
    ([(0#64, true), (1#64, true), (1#64, false)].all (fun n =>
      let s := modS 0 (holding (.promise n.1 0 n.2)) (on 0 (.sleepu 12 1))
      (s.strand 0).any (fun st => (st.frag false).any (fun f => f.hold == .promise n.1 0 n.2 && st.block == 0 && (match decode f.word with
        | .ok (.sleepu 12 1) => true
        | _ => false) && decide ((0 : DWord) ≤ s.dclk) && !st.stopped && !st.halted && !st.spilled && st.openFault.isNone &&
          st.granules.getLsbD ((12 + 2) / 8) &&
          (s.block 0).any (fun b => decide (b.copy.tlc < n.1) == (n.1 == 1) && (b.engineCause 0 n.1 (activeMask st f (opcodeOf f.word))).isNone))))) = true := by
  decide +kernel

/-- A saved gang whose copy context holds one fix-up entry at 0x60000. -/
def tSavedFix (held : Bool) : List Gang :=
  ((tCopy 0x60000 (fun r => { r with segs := [tFix held false] })).block 0).toList.map (fun b => ⟨7, 0, 0, 0, 0, [], false, [b], 0, none, false⟩)

/-- O34: each word, with the right and without it, on its own boundary. -/
theorem test_meets_CopyStatusSleepAndShapes :
    ([0#32, 1, 2].all (fun n => [1#64, 257].all (fun m => meets (.cpyq 8 10) (modB 0 (counts 1 m) (onS 0 (fill 10 n) (.cpyq 8 10))) (fun c =>
       (c.s.block c.st.block).any (fun b => ((c.plain true 10).at 31 == 0 || decide (b.copy.submitted.toNat < (c.plain true 10).at 31)) == (n == 0 || (n == 2 && m == 1)) &&
         decide ((c.plain true 10).at 31 + 256 ≤ b.copy.submitted.toNat) == (m == 257 && n != 2)) && c.act.lowest == some 0 && Mask.has c.act 31))) &&
     meets (.sleepu 12 1) (on 0 (.sleepu 12 1)) (fun c => c.act.lowest == some 0) &&
     [true, false].all (fun k => [Instr.fixqRetry 10 12, .fixqFail 10 12].all (fun i =>
       meets i (onS 0 (fun st => { st with rightKernel := k }) i) (fun c => c.st.rightKernel == k && c.act.lowest == some 0))) &&
     [(Instr.fixqRetry 10 12, false), (.fixqFail 10 12, true)].all (fun (p : Instr × Bool) =>
       meets p.1 { onS 0 (fun st => fill 10 0x60000 { st with rightKernel := true }) p.1 with gangs := tSavedFix true } (fun c =>
         c.st.rightKernel && c.act.lowest == some 0 && (c.plain true 10).at 0 == 0x60000 && (c.plain false 12).at 0 == 0 &&
         decide (((c.s.fixq p.2 0x60000 0).fixqSaved p.2 0x60000 0).fixqLeft 0x60000 0 ≤ c.s.fixqLeft 0x60000 0) == p.2)) &&
     [true, false].all (fun h =>
       let fl := Flight.blank 0 0 Agent.none (.fixq 0x60000 0) 1
       let s := { bare with flights := [fl], gangs := tSavedFix h }
       (s.block 5).isNone && s.flights == [fl] && fl.op == .fixq 0x60000 0 && (s.fixqLeft 0x60000 0 == 0) == h) &&
     [0#4, 15].all (fun w => meets (.shset w 15 10) (on 0 (.shset w 15 10)) (fun c => c.act.lowest == some 0)) &&
     [Instr.shld 15 10, .shst 15 10].all (fun i => meets i (on 0 i) (fun c => tAsk i c.type (fun x =>
       passes (c.s.laneTarget c.st x (Lanes.at 0 (c.plain true 10).lanes64 0).toNat))))) = true := by
  decide +kernel



def seqRunsB (s : State) (p : Block → Stream → Bool) : Bool :=
  (s.block s.cur).any (fun b => b.seq.running.any (fun r => b.seq.halt.isNone && b.seq.aborting.isNone && !s.board.stopped && s.seqGoesOn s.cur r && p b r))

/-- O35: the words at the ends of their fields, and a stream with no loop, one in its last round, and four. -/
theorem test_meets_StreamWordsSetTheirState :
    ([[], [⟨0x10000, 1⟩], [⟨0x10000, 0xFFFFFFFF⟩, ⟨0x10004, 2⟩, ⟨0x10008, 3⟩, ⟨0x1000C, 4⟩]].all (fun l =>
       seqRunsB (seqAt (fun r => { r with loops := l }) id) (fun _ r => r.loops == l)) &&
     [Instr.mscl 0 15 0, .mscl 1 0 7, .mscl 2 0 7, .mscl 3 0 7, .mset 7 3 0x7FFFF, .mset 0 0 1, .mloop 0 0 0xFFFF, .mloop 1 7 0].all seqFieldsOk) = true := by
  decide +kernel

/-- O36: an arrival that leaves the phase open, one that ends it, one that is carried, waits that stand, begin and end, and a stream that
stops. -/
theorem test_meets_StreamsArriveWaitAndStop :
    (let ex (n m : Nat) (w : Option SeqWait) : Block → Block := fun b =>
       { b.setBarrier 15 { b.barrier 15 with seqExpect := n, strandsExpect := m } with seq := { b.seq with wait := w } }
     seqRunsB (seqAt id (ex 2 0 none)) (fun b _ => decide ((b.barrier 15).seqArrived + 1 < (b.barrier 15).seqExpect)) &&
     seqRunsB (seqAt id (ex 1 0 none)) (fun b _ => let x := b.barrier 15
       x.seqArrived + 1 == x.seqExpect && decide (x.strandsExpect ≤ x.arrivals)) && (seqAt id id).flips.isEmpty &&
     seqRunsB (seqAt id (fun b => b.setBarrier 15 { b.barrier 15 with seqExpect := 1, seqArrived := 1 })) (fun b _ => let x := b.barrier 15
       x.seqExpect != 0 && decide (x.seqExpect ≤ x.seqArrived)) &&
     [none, some 0, some 7].all (fun t => seqRunsB (seqAt (fun r => { r with stok := t.toList.map (fun p => (15, p)) }) id) (fun b r =>
       b.seq.wait == none && r.arrived == none && !r.waiting && Tbl.find r.stok 15 == t && !phasePassed (b.barrier 15).phase (t.getD (b.barrier 15).phase))) &&
     [(0#32, false), (0xFFFFFFFF, true)].all (fun p => seqRunsB (seqAt id (ex 2 1 (some ⟨15, p.1, 0⟩))) (fun b _ =>
       b.seq.wait == some ⟨15, p.1, 0⟩ && phasePassed (b.barrier 15).phase p.1 == p.2)) &&
     seqRunsB (seqAt id id) (fun b r => b.seq.finished.isEmpty && r.n == b.seq.tlm + 1)) = true := by
  decide +kernel

/-- The operation words of O37, with the checks that each passes in a block with a tile, an accumulator and 64 KiB of column. -/
def arrayWord (s : State) (b : Block) (r : Stream) (e : BitVec 1) (bar : BitVec 4) (n : Nat) : Instr × List (Bool × Nat) :=
  let base := (r.x.getD 1 0).toNat
  match n with
  | 0 => (.mmul e bar 0 15, SeqCtx.mulChecks ⟨s, s.cur, b, r⟩ 0 16)
  | 1 => (.mzero e bar 0, [(decide (b.acount ≤ 0), 3)])
  | 2 => (.maddt e bar 0 0, [(decide (b.acount ≤ 0) || decide (b.tcount ≤ 0), 3)])
  | 3 => (.mout e bar 0 1 2 4, [(decide (b.acount ≤ 0), 3), (base % 64 != 0 || decide (64 * 4 < 128 * outBytes 2) ||
      !b.outOk base (64 * 4 * 127 + 128 * outBytes 2), 5)])
  | 4 => (.mmax e bar 0 1, [(decide (b.acount ≤ 0), 3), (base % 64 != 0 || !b.outOk base 512, 5)])
  | _ => (.mtrn e bar 0 1, [(decide (b.tcount ≤ 0), 3), (base % 512 != 0 || !b.inColumn base 32768, 5)])

/-- O37: the words whose checks pass, in a granted frame slot and without one, at a unit in the middle and at the last one, with
and without an arrival that does not end its phase; and words that fail their first check. -/
theorem test_meets_ArrayWordsWorkByUnits :
    ((List.range 6).all (fun n => [(0#1, 0#4), (1, 15)].all (fun a => [some 0, none].all (fun g =>
       seqRunsB (modC 0 (fun c => { c with arrayFor := g, arraySlot := 1 }) (seqAt
         (fun r => { r with x := [0, 0x1000000, 0, 0, 0, 0, 0, 0], bbase := some 0x1000000, tiles := some 0, row := 127, col := if n = 5 then 63 else 0 })
         (fun b => b.setBarrier 15 { b.barrier 15 with seqExpect := 2 }))) (fun b r =>
           let s := modC 0 (fun c => { c with arrayFor := g, arraySlot := 1 }) bare
           let q := arrayWord s b r a.1 a.2 n
           seqFieldsOk q.1 && s.granted 0 == g.isSome && (firstHalt q.2).isNone && r.depth + 1 == (15 + 1 + 15) / 16 && r.row + 1 == 128 &&
             decide (r.col + 1 ≤ 64) && decide ((b.barrier 15).seqArrived + 1 < (b.barrier 15).seqExpect))))) &&
     (List.range 6).all (fun n => seqRunsB (seqAt (fun r => { r with row := 126 }) (fun b => { b with acount := 0, tcount := 0 })) (fun b r =>
       (firstHalt (arrayWord bare b r 0 0 n).2).isSome && decide (r.row + 1 < 128)))) = true := by
  decide +kernel



/-- Block 0 with `n` streams queued, and one running when `r` is true. -/
def streams (n : Nat) (r : Bool) (s : State) : State :=
  modB 0 (fun b => { b with seq := { b.seq with queued := List.replicate n tStream, running := if r then some tStream else none } }) s

/-- O38: a misaligned address, one of another window, a full context, a stream that is queued, and each of `mabort` and `mq`; a
stream that starts, a word that is fetched, a frame slot that is given. -/
theorem test_meets_StreamsAreStartedAndFetched :
    ([Instr.mgo 8 10 12, .mres 8 10, .mabort 8 10].all (fun i =>
      [(2#32, 0#32), (0, 0xFF000000), (0x400, 0)].all (fun a => [(0, false), (4, true), (5, false)].all (fun q =>
        meets i (streams q.1 q.2 (onS 0 (fun st => fill 10 a.1 (fill 11 a.2 st)) i)) (fun c => c.act.lowest == some 0 && Mask.has c.act 31 &&
          (c.s.block c.st.block).any (fun b => b.seq.full == (q.1 != 0) && b.seq.running.isSome == q.2 && b.seq.queued.length == q.1 &&
            ((c.plain true 10).at 0 % 4 == 0) == (a.1 != 2) && ((c.plain true 10).at 0 % 256 == 0) == (a.1 != 2) &&
            (addrKind ((c.plain true 10).at 0) == 0) == (a.2 == 0)))))) &&
     meets (.mq 8) (on 0 (.mq 8)) (fun c => c.act.lowest == some 0) &&
     (let s := streams 5 false bare
      (s.block 0).any (fun b => b.seq.running.isNone && b.seq.queued == tStream :: List.replicate 4 tStream && b.seq.aborting.isNone && !s.preempting 0 &&
        !tStream.loading && !tStream.malformed)) &&
     (let s := withBytes [(0x20000, 4, 0x0D000000)] (seqAt (fun r => { r with spc := 0x20000 }) id)
      (s.block 0).any (fun b => b.seq.pend.isNone && b.seq.halt.isNone && b.seq.aborting.isNone && b.seq.wait.isNone && !s.board.stopped &&
        b.seq.running.any (fun r => r.ready.isNone && s.seqGoesOn 0 r && decide (r.spc.toNat < 2 ^ 57) && (match s.fetchWord r.agent r.spc with
          | (s1, .ok w) => (s1.block 0).any (fun x => sameButStoch x b) && (match decodeSeq w with
            | .ok .mstop => true
            | _ => false)
          | _ => false)))) &&
     (let s := { bare with dclk := 16 }; (s.core 191).arraySlot != s.frameSlot)) = true := by
  decide +kernel

/-- A stream register of 1,024 bits with the classes `c`. -/
def tZ (c : BitVec 16) : ZReg := ⟨BitVec.ofNat 4096 (2 ^ 1024 - 1), false, 1, c⟩
/-- Lane 31 alone, and a context with the block length 1,024 and 128 stream registers, where the stream `x` has the classes `y`. -/
def stochAt (l : List (Nat × BitVec 16)) (i : Instr) : State :=
  modB 0 (fun b => { b with
    zcount := 128
    stoch := { b.stoch with
      lb := 1024, seeds := List.replicate 16 0xACE1#16, z := l.map (fun p => (p.1, tZ p.2)) } }) (onS 0 lane31 i)
def stochWords : List (Instr × List (Bool × BitVec 6)) :=
  [(.zenc 32 10 1 15, []), (.zregen 32 0 15, [(true, 0)]), (.zand 32 0 0 63, [(true, 0), (false, 63)]), (.zxnor 32 0 0 63, [(true, 0), (false, 63)]),
   (.zmin 32 0 1 0, [(true, 0), (true, 0)]), (.zmux 0 0 0 63, [(true, 0), (true, 0), (false, 63)]), (.zdec 8 0 1, [(true, 0)]), (.zcnt 8 0, [(true, 0)]),
   (.zdot 8 1 0 63, [(true, 0), (false, 63)]), (.ztop 8 10 31, [])]
def mixed (c : Ctx) (b : Block) (i : Instr) : Bool :=
  let k (run : Bool) (y : BitVec 6) (L : Nat) : BitVec 16 := (b.stoch.reg (zAt run y L)).classes
  lanesAll c.act (fun L => match i with
    | .zand _ a r e | .zxnor _ a r e => k true a L &&& k (r == 1) e L == 0
    | .zmin _ a r e => k true a L == k (r == 1) e L && popBits (k true a L).toNat == 1
    | .zmux _ a e x => k true a L &&& k false x L == 0 && k true e L &&& k false x L == 0
    | .zdot _ _ a e => k true a L &&& k false e L == 0
    | _ => true)
def destOk (c : Ctx) (b : Block) (i : Instr) : Bool :=
  match i with
  | .zenc d .. | .zregen d .. | .zand d .. | .zxnor d .. | .zmin d .. | .zmux d .. => b.zOk c.act true d
  | _ => true

def noLane (s : State) : State := modS 0 (fun st => { st with fragA := st.fragA.map (fun f => { f with mask := 0 }) }) s

/-- O39: every request with streams that may be mixed, with sources of another class, of another length, and beyond ZCOUNT; and with no lane. -/
theorem test_meets_StochasticRequestsAreSubmitted :
    (let ok (c : Ctx) (b : Block) (l : List (Bool × BitVec 6)) : Bool :=
       l.all (fun y => b.zOk c.act y.1 y.2 && lanesAll c.act (fun L => (b.stoch.reg (zAt y.1 y.2 L)).len == lenCode b.stoch.lb))
     stochWords.all (fun p => meets p.1 (stochAt [(31, 1), (63, 2)] p.1) (fun c => (c.s.block c.st.block).any (fun b =>
       destOk c b p.1 && ok c b p.2 && mixed c b p.1 && c.act != 0 && b.stoch.reqs.isEmpty))) &&
     stochWords.all (fun p => meets p.1 (noLane (stochAt [(31, 1), (63, 2)] p.1)) (fun c => (c.s.block c.st.block).any (fun b =>
       destOk c b p.1 && ok c b p.2 && c.act == 0 && b.stoch.reqs.isEmpty))) &&
     stochWords.all (fun p => p.2.length ≤ 1 || meets p.1 (stochAt [(31, 3), (63, 3)] p.1) (fun c => (c.s.block c.st.block).any (fun b =>
       destOk c b p.1 && ok c b p.2 && !mixed c b p.1))) &&
     stochWords.all (fun p => p.2.isEmpty || meets p.1 (stochAt [] p.1) (fun c => (c.s.block c.st.block).any (fun b =>
       destOk c b p.1 && p.2.all (fun y => b.zOk c.act y.1 y.2) && !ok c b p.2))) &&
     meets (.zand 0 63 0 0) (modB 0 (fun b => { b with zcount := 64 }) (stochAt [] (.zand 0 63 0 0))) (fun c => (c.s.block c.st.block).any (fun b =>
       destOk c b (.zand 0 63 0 0) && !b.zOk c.act true 63))) = true := by
  decide +kernel

/-- O40: the oldest request of a block, in a slot given to it, for each request; and the words that act at once. -/
theorem test_meets_StochasticRequestsAndState :
    (stochWords.all (fun p =>
       let s := modC 0 (fun c => { c with stochFor := some 0, stochSlot := 1 }) (issued p.1 (stochAt [(31, 1), (63, 2)] p.1))
       (s.block 0).any (fun b => b.stoch.reqs.any (fun q => b.stoch.reqs == [q] && !s.preempting 0 && s.stochServed 0 && b.zEcc.isEmpty &&
         (s.flight q.flight).any (fun f => (s.strand f.strand).any (fun st => (f.regs == 0) == (match p.1 with
           | .zdec .. | .zcnt .. | .zdot .. | .ztop .. => false
           | _ => true) && (f.regs == 0 || (f.regs == 1 && !f.wide && writableB st f)))) && q.bad == 0 && q.lb == 1024 && Mask.has q.mask 31 &&
         (match decode q.word with
          | .ok i => decide (i = p.1)
          | _ => false)))) &&
     [Instr.zlen 0, .zlen 1, .zlen 2, .zseed 15 10, .zcls 8 32].all (fun i => meets i (stochAt [(63, 5)] i) (fun c => c.act.lowest == some 31 && Mask.has c.act 31 &&
       (c.s.block c.st.block).any (fun b => b.zOk c.act true 32 && decide ((b.stoch.reg 63).len < 4)))) &&
     meets (.zcls 8 63) (modB 0 (fun b => { b with zcount := 94 }) (stochAt [] (.zcls 8 63))) (fun c => (c.s.block c.st.block).any (fun b => !b.zOk c.act true 63)) &&
     (let s := { bare with dclk := 16 }; (s.core 191).stochSlot != s.stochFrame)) = true := by
  decide +kernel
/-- A request of three lanes, before and after the slot that makes its first four stream words. -/
def stochWaits (i : Instr) : State :=
  let s := stochAt [(63, 2), (29, 1), (30, 1), (31, 1)] i
  modC 0 (fun c => { c with stochFor := some 0, stochSlot := 1 })
    (issued i (modS 0 (fun st => { st with fragA := st.fragA.map (fun f => { f with mask := 0xE0000000 }) }) s))
def stochBegun (i : Instr) : State := after (exec (.stochasticRequestComplete 0) (stochWaits i))
/-- Edits every request of block 0. -/
def modQ (g : ZReq → ZReq) (s : State) : State := modB 0 (fun b => { b with stoch := { b.stoch with reqs := b.stoch.reqs.map g } }) s

/-- O40: requests that go on, whose next four words are the last and are not; one of streams and one of values. -/
theorem test_meets_StochasticRequestsGoOn :
    ([4, 8].all (fun n =>
      let ok (s : State) (b : Block) (q : ZReq) (r : Nat) : Bool := b.stoch.reqs == [q] && s.stochServed 0 && b.zEcc.isEmpty && q.begun && q.bad == 0 &&
        q.lb == 1024 && q.mask == 0xE0000000 && q.total == 12 && decide (q.next + 4 < q.total) == (n == 4) && (s.flight q.flight).any (fun f => f.regs == r)
      (let s := modQ (fun q => { q with next := n }) (stochBegun (.zand 32 0 0 63))
       (s.block 0).any (fun b => b.stoch.reqs.any (fun q => ok s b q 0 && q.out.map Prod.fst == [61, 62, 63] &&
         (n != 4 || (q.out.head?).any (fun x => (b.stoch.reg 61).bits.toNat % 2 ^ 1024 == x.2))))) &&
      (let s := modQ (fun q => { q with begun := true, next := n }) (stochWaits (.zcnt 8 0))
       (s.block 0).any (fun b => b.stoch.reqs.any (fun q => ok s b q 1 && q.out.isEmpty))))) = true := by
  decide +kernel



/-- Core 0 whose slot 0 has 16 gates at 0x700000; gate 15 leads to 0x10000 under identifier 9. -/
def gates (valid : Nat) (s : State) : State :=
  modC 0 (fun k => { k with dpr := [resetDpr0 + BitVec.ofNat 1024 (16 * 2 ^ 176 + 0x700000 * 2 ^ 192), 0, 0, 0] })
    (withBytes [(0x7001E0, 32, valid + 9 * 2 ^ 20 + 2 ^ 38 + 2 ^ 39 + 3 * 2 ^ 48 + 0x100000 * 2 ^ 128 + 0x10000 * 2 ^ 192)] (mapped s))
def tFrame : GateFrame := ⟨0x10000, 4, 5, 0x100000, true, false, 15⟩

/-- O41: calls that fail each check, one that passes, an invalid descriptor, and returns. -/
theorem test_meets_GatesChangeTheDomain :
    (let gcall (g : Strand → Strand) (n : Word) (v : Nat) (p : Ctx → Bool) : Bool :=
       meets (.gcall 10) (gates v (onS 0 (fun st => fill 10 n (g st)) (.gcall 10))) p
     let ok (c : Ctx) : Bool := c.st.lone c.s.curSlot && c.st.noneArrived && !c.s.slotSealed c.core c.domSlot &&
       decide (c.lowest false 10 % 2 ^ 32 < bits (c.s.dpr c.core c.domSlot) 191 176) && decide (c.st.gates.length < 4)
     gcall halves 15 1 (fun c => !c.st.lone c.s.curSlot) &&
     gcall (fun st => { st with stack := [(0, .join 0 1 1 0 [] none)] }) 15 1 (fun c => !c.st.noneArrived) &&
     gcall id 16 1 (fun c => decide (bits (c.s.dpr c.core c.domSlot) 191 176 ≤ c.lowest false 10 % 2 ^ 32)) &&
     gcall (fun st => { st with gates := List.replicate 4 tFrame }) 15 1 (fun c => decide (4 ≤ c.st.gates.length)) &&
     gcall (fun st => { st with gates := List.replicate 3 tFrame }) 15 1 (fun c => ok c &&
       (let d := c.s.dpr c.core c.domSlot
        let place := bits d 255 192 + 32 * (c.lowest false 10 % 2 ^ 32)
        let e := c.s.readN place 32
        inHbm place && soundB c.s ((List.range 32).map (place + ·)) && bits e 0 0 == 1 && zeroFields e [(127, 64), (47, 40), (37, 32), (19, 1)] && !c.s.sealedDomain (bits e 31 20) &&
          tGoes c c.f.mask (fun _ => BitVec.ofNat 64 (bits e 255 192)) (BitVec.ofNat 64 (bits e 255 192)))) &&
     [0, 1 + 2 ^ 19, 1 + 2 ^ 127].all (fun v => gcall id 15 v (fun c => ok c &&
       soundB c.s ((List.range 32).map (0x7001E0 + ·)) &&
       (bits (c.s.readN 0x7001E0 32) 0 0 == 0 || zeroFields (c.s.readN 0x7001E0 32) [(127, 64), (47, 40), (37, 32), (19, 1)] == false))) &&
     meets (.gcall 10) ((gates 1 (onS 0 (fill 10 15) (.gcall 10))).mark (0x7001E0 / 32)) (fun c => ok c &&
       !(c.s.consume c.core (some c.domSlot) ((List.range 32).map (0x7001E0 + ·))).2) &&
     meets .gret (on 0 .gret) (fun c => c.st.gates.isEmpty) &&
     meets .gret (onS 0 (fun st => { st with gates := [tFrame] }) .gret) (fun c => c.st.lone c.s.curSlot && c.st.gates.getLast? == some tFrame &&
       tGoes c c.f.mask (fun _ => tFrame.ret) tFrame.ret)) = true := by
  decide +kernel

def tSetting (k : Nat) (d : DWord) : Setting := ⟨7, k, 3, 1, 0, d⟩
/-- The four lanes of the sub-chain entry of R178 that reset leaves. -/
def subLanes : Lanes Word := Lanes.gen (fun L => [15#32, 0x08000000, 0xFFFFFFFF, 0xFFFF].getD L 0)

/-- O42: the queries, and settings that want the right, are invalid, concern a slot in use, or wait; and a setting that is not due,
one that is behind another, and one that takes effect. -/
theorem test_meets_DomainQueriesAndSettings :
    ([0, 4].all (fun n => [Instr.didqSelf 8, .didqGate 8].all (fun i => meets i (onS 0 (fun st => { st with gates := List.replicate n tFrame }) i)
       (fun c => Mask.has c.act 31 && decide (c.domSlot < 4) && c.st.gates.length == n))) &&
     [(false, 0#32), (true, 192), (true, 191)].all (fun p => meets (.didqDpr 8 10) (onS 0 (fun st => fill 10 p.2 { st with rightKernel := p.1 }) (.didqDpr 8 10))
       (fun c => c.st.rightKernel == p.1 && bits (c.lowest false 10) 7 0 == p.2.toNat)) &&
     (let set (i : Instr) (k n : Nat) (r : Bool) (v : Lanes Word) (p : State → State → Setting → Bool) : Bool :=
        meets i (onS 0 (fun st => { st with rightKernel := r, v := [(10, v)] }) i) (fun c =>
          let im : BitVec 4 := match i with
            | .dpsetDpr _ _ m | .dpsetSub _ _ m | .dpsetSeal _ _ m => m
            | _ => 0
          let x : Setting := ⟨c.s.nextFlight, k, 0, im.toNat, lanesImage (c.plain false 10) n, c.s.dclk + 64⟩
          let before := c.s.settings.foldl State.setRegister c.s
          c.st.rightKernel == r && p before (before.setRegister x) x)
      let ones : Lanes Word := Lanes.gen (fun _ => 0xFFFFFFFF#32)
      let word (w : Word) : Lanes Word := Lanes.gen (fun _ => w)
      [(Instr.dpsetDpr 0 10 3, 0, 32), (.dpsetSub 0 10 3, 1, 4), (.dpsetSeal 0 10 14, 2, 1)].all (fun q =>
        set q.1 q.2.1 q.2.2 false Lanes.zero (fun _ _ _ => true) && set q.1 q.2.1 q.2.2 true ones (fun _ a x => !a.registersOk x) &&
        set q.1 q.2.1 q.2.2 true Lanes.zero (fun b a x => a.registersOk x && !(b.slotsOf a x).any (fun p => bare.slotBusy p.1 p.2))) &&
      set (.dpsetDpr 0 10 0) 0 32 true Lanes.zero (fun b a x => a.registersOk x && (b.slotsOf a x).any (fun p => bare.slotBusy p.1 p.2)) &&
      set (.dpsetSub 0 10 0) 1 4 true subLanes (fun b a x => a.registersOk x && (b.slotsOf a x).any (fun p => bare.slotBusy p.1 p.2)) &&
      set (.dpsetSeal 0 10 0) 2 1 true (word 0x80000000) (fun b a x => a.registersOk x && (b.slotsOf a x).any (fun p => bare.slotBusy p.1 p.2)))) = true ∧
    ([0, 1, 2].all (fun k => [63#64, 64].all (fun d =>
      let s := { bare with settings := [tSetting k 64], dclk := d }
      s.settings.find? (fun y => y.id == (tSetting k 64).id) == some (tSetting k 64) &&
        s.settings.find? (fun y => y.kind == k && y.target == 3) == some (tSetting k 64) && decide (k = 1 ∨ 64 ≤ s.dclk) == (k == 1 || d == 64) &&
        (s.settingLots (tSetting k 64)).isEmpty)) &&
     (let s := { bare with settings := [{ tSetting 0 64 with id := 6 }, tSetting 0 64] }
      s.settings.find? (fun y => y.id == (tSetting 0 64).id) == some (tSetting 0 64) &&
        s.settings.find? (fun y => y.kind == 0 && y.target == 3) != some (tSetting 0 64))) = true := by
  exact ⟨by decide +kernel, by decide +kernel⟩

def tRecord (c : Cause) : Record :=
  ⟨c, true, false, false, Mask.all, 0, 0, 0x10004, 0x10008, 0x10008, 0, 255, 0, true, 0, 7, 0⟩

/-- O43: `trap` and `brk` of a strand that runs, and of one that is halted; deliveries to the vector and to the kernel; an open
fault that is ready and one that is not. -/
theorem test_meets_TrapsEnterTheVector :
    ([true, false].all (fun h => [Instr.trap 0xFFFF, .brk 255].all (fun i => meets i (onS 0 (fun st => { st with halted := h }) i) (fun c =>
       (c.s.flightsOf c.s.cur).isEmpty && c.st.openFault.isNone && c.st.halted == h))) &&
     [(true, Cause.softTrap), (false, .softTrap), (true, .break)].all (fun p =>
       let s := modS 0 (fun st => { st with tvec := 0x10000, tmask := if p.1 then 0xFFFFFFFF else 0 }) bare
       let r := tRecord p.2
       (s.strand 0).any (fun st => (st.frag r.frag).isSome && (!st.inHandler && st.tmask.getLsbD r.cause.code && (r.cause == .softTrap || !st.debug)) == p.1 &&
         (s.checkTarget (st.agent s 0) st.tvec).2 == none)) &&
     [true, false].all (fun q =>
       let o : OpenFault := ⟨tRecord .notPresent, q, 0, 0⟩
       let s := modS 0 (fun st => { st with openFault := some o, halted := !q }) (mapped bare)
       (s.strand 0).any (fun st => st.openFault == some o && s.trapReady 0 st o == !q && (s.flightsOf 0).isEmpty && (st.frag o.record.frag).isSome &&
         st.halted == !q))) = true := by
  decide +kernel

/-- O44: outside a handler; in one, with a place that is misaligned, with the record's own place, and past its word. -/
theorem test_meets_HandlerReturnRestoresTheFragment :
    (meets (.tret 0) (on 0 (.tret 0)) (fun c => c.f.hold == .none && !c.st.inHandler) &&
     [(0#1, 0x10008#64, 0x10000#64), (1, 0x10000, 0x10000), (0, 0x10002, 0x10000)].all (fun p =>
       let r : Record := { tRecord .softTrap with wordPc := p.2.1, pc := p.2.1, header := p.2.2, index := 0 }
       meets (.tret p.1) (withBytes [(0x10004, 4, 0xF80007F8)] (onS 0 (fun st => { st with inHandler := true, saveRecord := some r }) (.tret p.1))) (fun c =>
         let q := if p.1 = 1 ∧ c.st.entryOf r = none ∧ r.pc = r.wordPc then c.s.placeAfter (c.st.agent c.s c.s.cur) r.pc r.header r.index else (r.pc, r.header, r.index)
         c.f.hold == .none && c.st.inHandler && c.st.saveRecord == some r && c.st.opLog.isEmpty && (q.1.toNat % 4 == 0) == (p.2.1 != 0x10002) &&
           (let u := c.s.checkTarget (c.st.agent c.s c.s.cur) q.2.1
            u.2 == none && u.1.strand c.s.cur == some c.st)))) = true ∧
    (let r : Record := { tRecord .softTrap with header := 0x4000000000000000 }
     [id, halves].all (fun g => [r, tRecord .softTrap].all (fun r =>
       meets (.tret 0) (mapped (onS 0 (fun st => g { st with inHandler := true, saveRecord := some r }) (.tret 0))) (fun c =>
         c.f.hold == .none && c.st.inHandler && c.st.saveRecord == some r && r.pc.toNat % 4 == 0 && c.st.opLog.isEmpty &&
           (c.st.frag !c.s.curSlot).all (fun f => f.hold == .none) &&
           (c.s.checkTarget (c.st.agent c.s c.s.cur) r.header).2.isNone == (r.header == 0x10000))))) = true := by
  exact ⟨by decide +kernel, by decide +kernel⟩



/-- Queue 0 of `mapped` with a service ring of one entry at 0x700000, of which `n` have been written. -/
def ring (n : Nat) (s : State) : State := withBytes [(0x300048, 8, 0x700000), (0x300058, 8, n)] (mapped s)
def tService : Service := ⟨0, 0, 0, 0, 184, Mask.all, false, 5, State.reset.queueSpace 0⟩
def tAgent : Agent := ⟨0, 0, 0, 0, 0, 0, 0, 0, false, 5, 0, 0⟩

/-- O45: calls without a ring, to the kernel at each side of the hub's numbers, to the hub, after a reply and before one; a ring
with room and a full one; a reply; a collective that completes. -/
theorem test_meets_ServiceRequestsHoldUntilTheReply :
    (meets (.syscall 184 10) (mapped (on 0 (.syscall 184 10))) (fun c => c.s.queueField c.st.queue 639 576 == 0) &&
     [(0xFBFFFFFF#32, false), (0xFC000000, true), (0xFC000003, true), (0xFC000004, false)].all (fun p => [true, false].all (fun q =>
       meets (.syscall 184 10) (ring 0 (onS 0 (fun st => fill 10 p.1 { st with syscallPending := q }) (.syscall 184 10))) (fun c =>
         c.s.queueField c.st.queue 639 576 != 0 && c.resumesCall == q && Mask.has c.f.mask 31 && (c.s.block c.st.block).isSome &&
           (let n := c.st.callNumber c.f 10
            (decide (0xFC000000 ≤ n) && decide (n < 0xFC000004)) == p.2) && (c.s.services.find? (fun v => v.strand == c.s.cur && !v.saved && v.mask == c.f.mask)).isNone))) &&
     meets (.syscall 184 10) { ring 0 (onS 0 (fun st => { st with syscallPending := true }) (.syscall 184 10)) with services := [tService] } (fun c =>
       c.resumesCall && c.s.services.find? (fun v => v.strand == c.s.cur && !v.saved && v.mask == c.f.mask) == some tService) &&
     [(0, true), (1, false)].all (fun p =>
       let s := ring p.1 (onS 0 (holding (.service none)) (.syscall 184 10))
       (s.strand 0).any (fun st => (st.frag false).any (fun f => f.hold == .service none && (match decode f.word with
         | .ok (.syscall 184 10) => true
         | _ => false) && s.serviceRoom st.queue == p.2))) &&
     (let s := { ring 1 (onS 0 (holding (.service (some 0))) (.syscall 184 10)) with services := [tService] }
      s.services.find? (fun w => w.queue == tService.queue && w.entry == tService.entry) == some tService && (s.strand 0).any (fun st => !st.spilled &&
        st.serviceSlot 0 == some false && st.granules.getLsbD (184 / 8) && st.granules.getLsbD ((184 + 1) / 8)) &&
        (s.readVa (s.queueSpace 0) (s.serviceAt 0 0 + 0x80) 256).isSome) &&
     (let r : Collective := ⟨0, 1, 0, 0, 0, 0, 0, 0, tAgent⟩
      let s := { bare with collectives := [r] }
      s.collectives.find? (fun y => y.block == r.block && y.number.toNat == r.number.toNat) == some r &&
        (s.block 0).any (fun b => b.tlxDone.isEmpty && b.tlx + 1 == r.number))) = true := by
  decide +kernel

/-- O46: each word at each of its checks, and past them. -/
theorem test_meets_ContextSignatureAndErrorWords :
    ([Instr.ctxsv 8 10, .ctxld 10].all (fun i => meets i (onS 0 (fun st => { st with rightKernel := true, fragA := st.fragA.map (fun f => { f with mask := 0 }) }) i) (fun c =>
       c.act == 0 && c.st.lone c.s.curSlot && c.st.rightKernel && !c.st.inHandler)) &&
     [(0x7FF000#32, 0#32), (0x7FF800, 0), (0x1000, 0xFF000000)].all (fun a =>
       [Instr.ctxsv 8 10, .ctxld 10].all (fun i => [true, false].all (fun k => [true, false].all (fun l =>
         meets i (onS 0 (fun st => fill 10 a.1 (fill 11 a.2 (if l then { st with rightKernel := k, inHandler := k } else halves { st with rightKernel := k, inHandler := k }))) i)
           (fun c => c.act.lowest == some 0 && c.st.lone c.s.curSlot == l && c.st.rightKernel == k && c.st.inHandler == k &&
             c.st.openFault.isNone && ((c.plain true 10).at 0 % 4096 == 0) == (a.1 != 0x7FF800) && (addrKind ((c.plain true 10).at 0) == 0) == (a.2 == 0)))))) &&
     [(0x200000#32, 1#32), (0x200000, 0), (0, 1)].all (fun p => meets (.sigchk 0) (onS p.1 (fun st => { st with sig := p.2 }) (.sigchk 0)) (fun c =>
       (c.st.whole && modeSig c.f.mode && (sigFold16 c.st.sig).toNat != 0) == (p.1 != 0 && p.2 != 0))) &&
     [Instr.sigrd 8, .sigset 10].all (fun i => meets i (on 0 i) (fun c => c.act.lowest == some 0 && Mask.has c.act 0)) &&
     [(0#1, 10#32), (0, 11), (1, 10)].all (fun p => [true, false].all (fun k =>
       meets (.errq 8 10 p.1) (onS 0 (fun st => fill 10 p.2 { st with rightKernel := k }) (.errq 8 10 p.1)) (fun c =>
         c.st.rightKernel == k && (c.plain false 10).at 0 == p.2.toNat && Mask.has c.act 31 && (c.s.block c.st.block).isSome)))) = true := by
  decide +kernel


/-- Queue 0 of `mapped` is enabled, with a ring of 16 packets at 0x710000 whose first is `p`, and tract 0 has cluster 0 alone. -/
def queued (p : Nat) (s : State) : State :=
  withBytes [(0x300000, 8, 0x710000), (0x300008, 2, 0x104), (0x300028, 8, 2 ^ 40), (0x300038, 8, 2 ^ 40), (0x710000, 64, p), (0x400000, 4, 0x80000001)] (mapped s)
/-- A marker, and a packet that launches one gang of one block of one strand, with `extra` bits. -/
def tMarker : Nat := 2 + 4 * 2 ^ 9 + 4 * 2 ^ 13
def tPacket (extra : Nat) : Nat := 1 + 4 * 2 ^ 9 + 4 * 2 ^ 13 + 2 ^ 32 + extra
def asked (p : Nat) : Launch := { tLaunch with started := false, groups := [], packet := BitVec.ofNat 512 p }

/-- O47: notify writes of a reply, below the last one, at each end of the range and past it; a queue without a packet and one with
a marker; launches that wait, that start, and that can never be placed. -/
theorem test_meets_LaunchesAreAcceptedAndStarted :
    (bare.board.stage != 2 &&
     (let s := { withBytes [(0x300080, 8, 0x710000), (0x300088, 2, 0x104)] (queued tMarker bare) with notify := [(0, 1), (1, 1)] }
      [0, 1].all (fun last => let s := { s with lastQueue := [(0, last)] }
        s.packetDue 0 && s.packetDue 1 && s.queueField 0 73 73 == 0 && s.queueField 1 73 73 == 0 && s.mayAccept 1 == (last == 1) &&
          decide (turnsTo (Tbl.get 0 s.lastQueue 0) 0 < turnsTo (Tbl.get 0 s.lastQueue 0) 1) == (last == 0))) &&
     (let s := { queued tMarker bare with notify := [(0, 7)] }
      let s := withBytes [(0x300018, 8, 9)] s
      let r := s.queueField 0 255 192
      r == 9 && r + 2 ^ s.queueField 0 67 64 == 25 &&
      [(2 ^ 63 - 1 + 1, 0), (6, 1), (7, 2), (8, 2), (26, 2), (9, 3), (25, 3)].all (fun p =>
        let v := BitVec.ofNat 64 p.1
        p.2 == (if v.getLsbD 63 then 0 else if v < Tbl.get 0 s.notify 0 then 1 else if v.toNat < r || r + 2 ^ s.queueField 0 67 64 < v.toNat then 2 else 3))) &&
     [tMarker, tPacket 0].all (fun p => [0, 1].all (fun n =>
       let s := { queued p bare with notify := [(0, BitVec.ofNat 64 n)] }
       s.mayAccept 0 == (n == 1) && !(s.vaFault (s.queueSpace 0) 0x710000 64 .read).isSome && s.readVa (s.queueSpace 0) 0x710000 64 == some p &&
         s.queueField 0 73 73 == 0 && s.queueField 0 63 0 == 0x710000 && s.queueField 0 255 192 == 0 && s.packetDetail 0 p == 0)) &&
     [(asked tMarker, true, true), (asked (tPacket 0), true, true), (asked (tPacket (7 * 2 ^ 20)), true, false), (tLaunch, false, true)].all (fun p =>
       let s := { queued 0 bare with launches := [p.1] }
       s.launch p.1.id == some p.1 && s.mayStart p.1 == p.2.1 && p.1.pk 383 320 == 0 && (!p.1.isLaunch || s.placeable p.1 true == p.2.2))) = true := by
  decide +kernel

def tUnit (r : Option (List Seat)) (n : Nat) (t : DWord) : PlaceUnit := ⟨0, 2, n, r, t⟩
def tSeat : Seat := ⟨3, { tBlock with stoch := ⟨256, [], [], 0, 0, []⟩ }, [1], 24⟩
/-- Launch 0 of queue 0 has started, and its gang 0 is the next. -/
def tPlacing (s : State) : State := { queued 0 s with launches := [{ asked (tPacket 0) with started := true }] }

/-- A store of gang 5 to a peer is not yet confirmed. -/
def storing (s : State) : State := { s with peerStores := [⟨0, 0, 0, 1, 1, 0, 5, 0, none⟩] }

/-- O48: a unit that finds a place and one that does not, with a free token and with its own; a retry before its time and at it, with
15 attempts and 16; a commit of a free tag and a held one; of a gang that is no
longer to be placed, of a tract that is torn down, and one that waits for stores; and a killed gang whose tract is torn down or not,
with and without stores. -/
theorem test_meets_PlacementCommitsWholeGangs :
    ([(0, none, true), (3, some 3, true), (3, some 3, false)].all (fun p =>
       let s0 := { tPlacing bare with tokens := p.2.1.elim [] (fun u => [(0, u)]) }
       let s := if p.2.2 then s0 else s0.setCore 0 { s0.core 0 with outOfService := true }
       (s.launch 0).any (fun l => !s.teardowns.contains (l.df 99 96) && l.toPlace == some 0 && Tbl.find s.units p.1 == none && p.1 / 4 == l.tower &&
         s.units.all (fun u => u.1 == p.1 || u.2.launch != l.id) && (Tbl.find s.tokens l.tower == none || Tbl.find s.tokens l.tower == some p.1) &&
         s.board.stage == 2 && s.placeable l true && connected [0] && l.blocksPer == 1 && (towerCores l.tower).contains 0 &&
         s.tractCore (l.df 99 96) 0 && (s.seats l 0 [0]).isSome == p.2.2)) &&
     [(15, 63#64), (15, 64), (16, 64), (16, 65)].all (fun p =>
       let u := tUnit none p.1 64
       let s := { tPlacing bare with units := [(3, u)], dclk := p.2 }
       (s.launch 0).isSome && Tbl.find s.units 3 == some u && u.launch == 0 && u.reserved == none && u.retryAt != 0 && decide (u.retryAt ≤ s.dclk) == (p.2 != 63)) &&
     [0, 8191].all (fun tag => [true, false].all (fun held =>
       let u := { tUnit (some [tSeat]) 0 0 with gang := 0 }
       let s := { tPlacing bare with units := [(3, u)], gangs := if held then [⟨BitVec.ofNat 13 tag, 0, 0, 0, 0, [], false, [], 0, none, false⟩] else [] }
       !s.storesOf (BitVec.ofNat 13 tag) && (s.launch 0).any (fun l => l.toPlace == some u.gang && !s.teardowns.contains (l.df 99 96)) && Tbl.find s.units 3 == some u && (s.gang (BitVec.ofNat 13 tag)).isSome == held && s.pinRelease.isEmpty && s.deposits.isEmpty)) &&
     [(tPlacing bare, 1, [], 5), (tPlacing bare, 0, [0], 5), (storing (tPlacing bare), 0, [], 5), (storing (tPlacing bare), 0, [], 6)].all (fun p =>
       let u := { tUnit (some [tSeat]) 0 0 with gang := p.2.1 }
       let s := { p.1 with units := [(3, u)], teardowns := p.2.2.1 }
       Tbl.find s.units 3 == some u && (s.gang p.2.2.2).isNone && s.pinRelease.isEmpty && s.storesOf p.2.2.2 == (!s.peerStores.isEmpty && p.2.2.2 == 5) &&
         (s.launch 0).any (fun l => u.launch == l.id && (l.toPlace != some u.gang || s.teardowns.contains (l.df 99 96)) == (p.2.1 != 0 || p.2.2.1 != []))) &&
     [(([] : List Nat), false), ([], true), ([0], false)].all (fun q =>
       let g : Gang := ⟨5, 0, 2, 0, 0, [], true, [], 0, some (1, 2), false⟩
       let s0 := { tPlacing bare with gangs := [g], teardowns := q.1 }
       let s := if q.2 then storing s0 else s0
       (s.launch 0).isSome && s.gang g.tag == some g && s.storesOf g.tag == q.2 && s.teardowns.contains g.tract == (q.1 != []))) = true := by
  decide +kernel


/-- A block whose stochastic context is small, so that it can be compared. -/
def tB : Block := { tBlock with stoch := ⟨256, [], [], 0, 0, []⟩ }
/-- Core 15, the last of cluster 0, with a slice of slot 3 that ends at 64, under the courses `c`. -/
def sliced (c : BitVec 3) (s : State) : State := modC 15 (fun k => { k with times := k.times.set 3 ⟨64, c, 0, false⟩ }) s

/-- O49: a launch that may complete and one that may not; a full ring and one with room; no slice due, and one due; a pre-emption
that is not ready, one of no block, and one of a block with work. -/
theorem test_meets_CompletionsEventsAndSlices :
    ([0, 1].all (fun n => [none, some 0].all (fun a =>
       let l := { asked (tPacket 0) with started := true, nextGang := n }
       let s := { queued 0 bare with launches := [l], control := { (queued 0 bare).control with aborting := a } }
       s.launch l.id == some l && s.mayComplete l == (n == 1) && s.launches.all (fun x => x.id == l.id || x.queue != l.queue))) &&
     [65535, 65536].all (fun n =>
       let s := { bare with eventHeld := [5], eventProd := n }
       decide (s.control.eventAck.toNat + 65536 ≤ s.eventProd.toNat) == (n == 65536)) &&
     [0#3, 2].all (fun co => [63#64, 64].all (fun d =>
       let s := { sliced co bare with dclk := d }
       (coresOf 0).find? (fun k => ((s.core k).time 3).due s.dclk) == (if d == 64 then some 15 else none) &&
         (s.core 15).time 3 == ⟨64, co, 0, false⟩ && s.preempts.isEmpty)) &&
     (let p : Preempt := ⟨0, 0, 1, 0, true, none, []⟩
      let s (f : Strand → Strand) (n : Nat) (q : Bool) : State :=
        modB 0 (fun _ => { tB with domSlot := n, seq := { tB.seq with running := if q then some tStream else none } }) (modS 0 f { bare with preempts := [p], gangs := [⟨5, 0, 0, 0, 0, [0], false, [], 0, none, false⟩] })
      let open_ (st : Strand) : Strand := { st with openFault := some ⟨⟨.notPresent, true, false, false, Mask.all, 0, 0, 0, 0, 0, 0, 0, 0, false, 0, 0, 0⟩, false, 0, 0⟩ }
      let found (s : State) : Option Preempt := s.preempts.find? (fun p' => p'.cluster == p.cluster && p'.slot == p.slot && s.preemptReady p')
      found (s open_ 0 true) == none && found (s id 1 true) == some p && ((s id 1 true).blocks.filter (fun x => p.covers x.1 x.2)).isEmpty &&
        found (s id 0 true) == some p && (s id 0 true).flips.isEmpty && (s id 0 true).blocks.filter (fun x => p.covers x.1 x.2) == (s id 0 true).blocks &&
        (s id 0 true).blocks.map Prod.fst == [0] && ((s id 0 true).block 0).any (fun b => !b.idle && ((s id 0 true).gang b.tag).isSome))) = true := by
  decide +kernel

/-- Commands go to a package that is not busy. -/
def ordered (g : Strand → Strand) (s : State) : State := modS 0 g { mapped s with control := { (mapped s).control with busy := false } }
/-- A gang whose one block stands saved at 0x800000, its barriers as a block starts with them. -/
def tSaved : Block := { tB with saveSlot := 0x800000, sa := 0, ca := 0, tcount := 0, acount := 0, zcount := 0, index := 0 }
def tGang : Gang := ⟨5, 0, 0, 0, 0, [], false, [tSaved], 0, none, false⟩
def tBack : State :=
  { ordered id bare with
    mem := [(0x10000, 0xF8#8), (0x10001, 7), (0x10003, 0xF8), (0x10007, 0xF), (0x100000, 1), (0x100002, 0x20), (0x200000, 0x7F), (0x300012, 0x10),
      (0x400000, 1), (0x400003, 0x80), (0x40004A, 0x50), (0x800000, 1), (0x800002, 0x33), (0x800003, 0x59)]
    gangs := [tGang] }

/-- Bytes that nothing lists read as zero. -/
theorem readN_unlisted {s : State} {a n : Nat} (h : ∀ q ∈ s.mem, q.1 < a ∨ a + n ≤ q.1) : s.readN a n = 0 := by
  induction n generalizing a with
  | zero => rfl
  | succ n ih =>
    have h0 : Tbl.find s.mem a = none := by
      generalize s.mem = m at h
      induction m with
      | nil => rfl
      | cons q r ihr =>
        have hq := h q (List.mem_cons_self ..)
        rw [Tbl.find, if_neg (by omega)]
        exact ihr (fun x hx => h x (List.mem_cons_of_mem _ hx))
    have hb : s.byte a = 0 := by simp [State.byte, Tbl.get, h0, Config.unlistedByte]
    simp only [State.readN, hb]
    rw [ih (fun q hq => by have := h q hq; omega)]
    rfl
theorem readVa_unlisted {s : State} {sp : Space} {va n : Nat} (K : Nat) (hp : pieces va n = [(va, 0, n)])
    (h : (match s.translateOutside sp .read va with
      | some (u, .ok x) => u.poison.isEmpty && u.ecc.isEmpty && u.scrubbed.isEmpty && inHbm K && x.pa + va % 65536 == K && u.mem.all (fun q => decide (q.1 < K ∨ K + n ≤ q.1))
      | _ => false) = true) : s.readVa sp va n = some 0 := by
  rw [State.readVa, hp]
  split at h
  · rename_i u x hx
    simp only [Bool.and_eq_true, List.all_eq_true, decide_eq_true_eq, beq_iff_eq, List.isEmpty_iff] at h
    obtain ⟨⟨⟨⟨⟨hp, he⟩, hs⟩, hk⟩, hx'⟩, hm⟩ := h
    simp [hx, hk, hx', State.clean_of_sound K n hp he hs, readN_unlisted hm]
  · cases h
theorem readFree_of {s : State} {sp : Space} {va n x : Nat} (h : s.readVa sp va n = some x) : s.readFree sp va n = (x, s) := by
  rw [State.readFree, h]
theorem no_bar_refused : (List.range 16).any (fun k => barrierRefused (getF 0 (576 * k) 576)) = false := by decide +kernel
theorem image_ok {s : State} {sp : Space} {b : Block} {n : Nat} (hn : n = 9216)
    (h0 : (s.vaFault sp (b.saveSlot.toNat + b.sectionAt 0) (b.sectionAt 11) .read).isSome = false)
    (h1 : s.readVa sp (b.saveSlot.toNat + b.sectionAt 0) 4 = some 0x59330001)
    (h2 : s.readVa sp (b.saveSlot.toNat + b.sectionAt 1) n = some 0) (h4 : b.seq.running = none) : s.imageRefused sp b = false := by
  unfold State.imageRefused
  rw [if_neg (by rw [h0]; decide)]
  generalize e1 : s.readFree sp _ 4 = y1
  rw [← hn]
  generalize e2 : s.readFree sp _ n = y2
  generalize e3 : s.readFree sp _ 768 = y3
  obtain ⟨f, _⟩ := y1
  obtain ⟨m, _⟩ := y2
  obtain ⟨q, _⟩ := y3
  rw [readFree_of h1] at e1
  rw [readFree_of h2] at e2
  cases e1
  cases e2
  simp only [h4, no_bar_refused, bne_self_eq_false, Bool.or_false]
theorem gangBack_one {s u : State} {g : Gang} {b : Block} {x : Fit} (h : s.memberBack g b x = some u) :
    (s.gangBack g [(b, x)]).isSome = true := by
  have h2 : [(b, x)].foldl (fun (acc : Option State) p => acc.bind (fun s => s.memberBack g p.1 p.2)) (some s) = some u := by
    rw [List.foldl_cons, List.foldl_nil, Option.bind_some, h]
  unfold State.gangBack
  rw [h2]
  exact Option.isSome_some
theorem back_some {s : State} {g : Gang} {b : Block} {x : Fit} (h : s.imageRefused (s.gangSpace g) b = false) (hs : b.savedStrands = []) :
    (s.memberBack g b x).isSome = true := by
  unfold State.memberBack
  rw [if_neg (by rw [h]; decide)]
  rw [hs]
  generalize s.blockBack (s.gangSpace g) b x = y
  obtain ⟨b', u⟩ := y
  exact Option.isSome_some
theorem off_of_empty {s : State} (h : s.mem = []) : s.queuesOff = true := by
  simp [State.queuesOff, State.queueField, readN_unlisted (s := s) (by simp [h]), bits]

/-- O50: a busy unit and one before its boot; operands past their width, unassigned commands, no such strand; a strand without a
record, with one that the halt kept, one that a `brk` kept, one that is not final, and one to resume; gangs and slots. -/
theorem test_meets_CommandsActOnStrandsGangsAndSlots :
    ((let s := ordered id bare
      { s with control := { s.control with busy := true } }.control.busy && bare.board.stage != 2 && !s.control.busy && s.board.stage == 2 &&
        s.strandNamed 0xFFFFFFFF == none && (s.strandNamed 0).map Prod.fst == some 0 && (s.strandNamed 0).any (fun p => !p.2.recordValid) &&
        s.gang (BitVec.ofNat 13 (bits 0xFF1FFF 12 0)) == none && bits 0xFF1FFF 15 13 == 0 && s.gang 8191 == none && s.preempts.isEmpty &&
        decide (192 ≤ bits 0xC0 7 0) && bits 0xC00 11 10 == 3 && bits 0x7BF 7 0 == 191 && decide (bits 0x7BF 11 10 < 2)) &&
     [(true, true, Cause.softTrap, true), (true, true, .break, false), (true, false, .softTrap, false), (true, true, .notPresent, false), (true, true, .stage2, false)].all (fun p =>
       let r := { tRecord p.2.2.1 with halted := p.2.2.2 }
       let s := ordered (fun st => { st with recordValid := p.1, stopped := p.2.1, record := some r, halted := true }) bare
       (s.strandNamed 0).any (fun q => q.2.recordValid && [false, true].all (fun w => (q.2.frag w).all (fun f => f.hold == .none)) && q.2.stopped == p.2.1 && q.2.record == some r && r.halted == p.2.2.2 && !q.2.debug &&
         (q.2.frag r.frag).any (fun f => f.hold != .grow) && !s.eventWaits q.2 && q.2.opLog.isEmpty && r.cause != .barrierTimeout && !r.seq && !q.2.inHandler)) &&
     [[], [⟨0, 0, 0, 1, 1, 0, 5, 0, none⟩]].all (fun (l : List PeerStore) =>
       let s := { tBack with peerStores := l }
       (s.gang 5).any (fun g => g.tag == 5 && (s.killGang 5 255 2).storesOf 5 == (l != []) && g.killed.isNone && g.saved != [] && g.blocks.isEmpty &&
         (s.savedFits g []).isNone)) &&
     (tBack.gang (BitVec.ofNat 13 (bits 5 12 0))).isSome && !tBack.control.busy && tBack.board.stage == 2) = true := by
  decide +kernel
theorem test_meets_ResumeOfASavedGang : ∃ g l u, tBack.gang (BitVec.ofNat 13 5) = some g ∧ g.killed = none ∧ g.saved ≠ [] ∧ g.blocks = [] ∧ connected [0] = true ∧
    (∀ c ∈ [0], c ∈ towerCores ([0].getD 0 0 / 96) ∧ tBack.tractCore g.tract c = true) ∧ Tbl.find tBack.tokens ([0].getD 0 0 / 96) = none ∧
    tBack.savedFits g [0] = some l ∧ tBack.gangBack g l = some u := by
  have hi : tBack.imageRefused (tBack.gangSpace tGang) tSaved = false :=
    image_ok rfl (by decide +kernel) (by decide +kernel) (readVa_unlisted 0x801000 (by decide +kernel) (by decide +kernel)) (by decide +kernel)
  have ho : (List.range 192).filter (fun c => [0].contains c) = [0] := by decide +kernel
  obtain ⟨x, hx⟩ := Option.isSome_iff_exists.mp (show (tBack.fit (tBack.savedNeed tSaved) 0 false).isSome = true by decide +kernel)
  obtain ⟨u, hu⟩ := Option.isSome_iff_exists.mp (back_some (s := tBack) (g := tGang) (x := x) hi rfl)
  obtain ⟨w, hw⟩ := Option.isSome_iff_exists.mp (gangBack_one hu)
  refine ⟨tGang, [(tSaved, x)], w, rfl, rfl, by simp [tGang], rfl, by decide +kernel, by decide +kernel, rfl, ?_, hw⟩
  unfold State.savedFits
  rw [ho]
  rw [show (List.range 8).filterMap (fun i => tGang.saved.find? (fun b => b.index == i)) = [tSaved] from rfl]
  rw [if_neg (by decide)]
  simp only [List.zip_cons_cons, List.zip_nil_right, List.foldl_cons, List.foldl_nil, hx, List.nil_append]

/-- O51: cores, queues with a launch and without, tracts that are free, invalid, out of range or in use; buffers for a report; and
registers with every queue off and with one on. -/
theorem test_meets_CommandsActOnQueuesCoresAndRegisters :
    ((let s := queued 0 bare
      !s.control.busy && s.board.stage == 2 && (s.gangsOn 191 true).isEmpty && (s.gangsOn 191 false).isEmpty && !(s.core 191).outOfService && s.launches.isEmpty &&
        s.tractField (bits 0 7 0) 31 31 == 1 && s.strands.any (fun p => p.2.tract == bits 0 7 0) && { s with strands := [] }.strands.all (fun p => p.2.tract != 0) &&
        s.tractField (bits 15 7 0) 31 31 == 0 && bits 16 7 0 == 16 && !inHbm (256 * (2 ^ 56 - 16)) && inHbm (256 * 16) && 17 % 16 != 0 && s.inMap (256 * 16) && !{ s with board := { s.board with badStacks := [0] } }.inMap (256 * 16) &&
        [0, 24].all (fun ca => let s := modB 0 (fun b => { b with ca := ca }) { s with gangs := [⟨5, 0, 0, 0, 0, [0], false, [], 0, none, false⟩] }
          (s.gangsOn 0 true).isEmpty == (ca == 0) && s.gangsOn 0 (ca != 0) == [5] && s.blocks.any (fun p => p.1 / 8 == 0) && !(s.core 0).outOfService) &&
        [(Place.station 0, false), (.arrived false 0 0 0 0, true)].all (fun p => let s := inChain 0 9 { tLot p.1 with dirty := true } { s with checkpoint := some 0 }
          s.tractCluster 0 0 && (s.cluster 0).toClean == p.2 && (List.range 24).all (fun k => !s.tractCluster 0 k || (s.cluster k).toClean == p.2)) &&
        (tPlacing bare).launches.any (fun l => l.queue == 0) && { s with checkpoint := some 15 }.checkpoint.isSome &&
        (List.range 192).all (fun k => (s.core k).times.length == 4) && !s.queuesOff) = true ∧
     ({ bare with mem := [], board := { bare.board with stage := 2 } }.queuesOff = true ∧ { bare with mem := [], board := { bare.board with stage := 2 } }.board.stage = 2)) :=
  ⟨by decide +kernel, off_of_empty rfl, rfl⟩


/-- The end of HBM4E. -/
def hbmEnd : Nat := 0x00C0_0000_0000

/-- O52: the edge of HBM4E, and a stack that has failed; the first page under each class, and under a frame entry that refuses it;
shared entries admit the sandbox harts and the peers; tracts past the last and in teardown; peers that are up and gone. -/
theorem test_meets_OutsideAccessesReadAndWriteMemory :
    ((let s := mapped bare
      s.board.stage == 2 && !s.inMap hbmEnd && s.inMap (hbmEnd - 7) && !s.inMap (hbmEnd - 7 + 7) && s.inMap (hbmEnd - 8) && s.inMap (hbmEnd - 8 + 7) &&
        s.inMap 0 && s.inMap 7 && !{ s with board := { s.board with badStacks := [5] } }.inMap 0 && !inPeer hbmEnd &&
        decide (16 ≤ 4096 / 256) && decide (4095 / 256 < 16) && { s with teardowns := [15] }.teardowns.contains (4095 / 256) && s.teardowns.isEmpty &&
        s.scrubbed.isEmpty && s.ecc.isEmpty && s.poison.isEmpty && s.clusters.isEmpty) &&
     [(0, 0x8000, true), (2, 0x8000, true), (3, 0x8000, false), (255, 0x8000, false), (2, 0x4000, false), (0, 0x0001, false)].all (fun p =>
       let s := withBytes [(0x500000, 2, p.2.1), (0x600000, 1, p.1)] (mapped bare)
       let s := { s with control := { s.control with hartClass := 0x600000 } }
       let t := withBytes [(0x400000, 4, 0x80000000)] s
       t.frameTract == 0 && [true, false].all (fun w => t.classOf 0 == p.1 && (decide (t.classOf 0 ≤ 2) && t.foreignFrameOk t.frameTract 0 0 w) == p.2.2 &&
         (p.2.1 == 0x0001 || (t.foreignFrameOk 0 ((Config.freeWord t.fresh).setWidth 12) 0 w == (p.2.1 == 0x8000) &&
           t.foreignFrameOk t.frameTract (t.assignDomain 3).1 0 w == (p.2.1 == 0x8000))))) &&
     [0, 1].all (fun up =>
       let s := withBytes [(0x400000, 4, 0x80000000), (0x400050, 8, 0x510000), (0x510000, 1, up)] (mapped bare)
       let a := 2 ^ 51
       inPeer a && inPeer (a + 7) && s.peerUp s.frameTract a == (up == 1) && !s.teardowns.contains s.frameTract)) = true := by
  decide +kernel

/-- A package in which tract 3 is valid and has clusters 0 and 1. -/
def tTract (s : State) : State := withBytes [(0x400300, 4, 0x80000003)] (mapped s)

/-- O53: granules that are sound, that the code corrects and does not, in and out of HBM4E and one whose lot a chain holds; tracts
that are valid, invalid and being torn down, with and without a word in flight. -/
theorem test_meets_ScrubAndTeardown :
    (let s := inChain 1 5 (tLot (.station 0)) (mapped bare)
     let held (n : Nat) : Bool := s.clusters.any (fun p => p.2.stands (n / 8))
     bare.board.stage == 0 && s.board.stage != 0 && held 47 && !held 48 && inHbm (32 * 48) && !inHbm (32 * (hbmEnd / 32)) && inHbm (32 * (hbmEnd / 32 - 1)) &&
       [none, some false, some true].all (fun e => (Tbl.find { s with ecc := e.elim [] (fun x => [(48, x)]) }.ecc 48 == some true) == (e == some true)) &&
     (let s := tTract bare
      s.tractField 3 31 31 == 1 && s.tractField 4 31 31 == 0 && s.teardowns.isEmpty && s.flights.isEmpty && s.tractCluster 3 1 && !s.tractCluster 3 2 &&
        (walked (.ld 8 10 0 1) 0 (fill 10 0x600F8)).flights.any (fun f => f.agent.tract == 0))) = true := by
  decide +kernel
/-- O53: beats with no wire wrong, one, and two, the 16th of a wire in a row, a second failed wire; of a write to a column and to
memory, and of a read of a block. -/
theorem test_meets_BusBeats :
    ([([], 0, 0), ([71], 14, 0), ([71], 15, 1), ([0, 71], 15, 1), ([0, 71], 0, 0)].all (fun (p : List Nat × Nat × Nat) =>
       let s := modC 191 (fun c => { c with wires := [(72 * 31 + 71, p.2.1)] }) (mapped bare)
       let some_ := (List.range 72).filter p.1.contains
       let after := (s.core 191).countBeat 31 some_
       some_.length == p.1.length && after.badWires 31 == p.2.2 && inHbm 0x600000) &&
     [1, 2].all (fun n =>
       let s := modC 191 (fun c => { c with failed := (List.range n).map (fun k => (72 * 31 + k, ())) }) (mapped bare)
       ((s.core 191).countBeat 31 [0]).badWires 31 == n) &&
     (let s := modB 0 (fun b => { b with colBase := 256 }) { mapped bare with gangs := [⟨5, 0, 0, 0, 0, [0], false, [], 0, none, false⟩] }
      [256, 65791].all (fun a => (s.columnOwner 0 a).any (fun x => x.1 == 0) && ((s.core 0).countBeat 15 [0, 71]).badWires 15 == 0) &&
        (s.columnOwner 0 255).isNone && (s.columnOwner 0 65792).isNone && (s.block 0).any (fun b => (s.gang b.tag).any (fun g => g.killed.isNone)))) = true := by
  decide +kernel
/-- O53: a sensor that has failed, with and without neighbours; readings at each limit; and one that has not moved. -/
theorem test_meets_SensorReadings :
    (let near (r : Option Int) (s : State) : State := modC 0 (fun c => { c with sensors := r.elim [] (fun x => [(6, x, 1)]) }) s
     [0, 2, 3].all (fun n => [none, some 40].all (fun (r : Option Int) =>
       let s := near r (modC 0 (fun c => { c with sensorBad := (List.range n).map (fun k => (k, ())) }) bare)
       (Tbl.find (s.core 0).sensorBad 7).isNone && (s.core 0).sensorBad.length == n && (n == 0 || (Tbl.find (s.core 0).sensorBad 0).isSome) &&
         s.sensorNear 0 7 == r.toList)) &&
     (let s := near (some 40) (modC 0 (fun c => { c with sensorBad := [(7, ())] }) bare)
      (Tbl.find (s.core 0).sensorBad 7).isSome && s.sensorNear 0 7 == [40]) &&
     [(-21, -20, false), (126, 120, false), (16, 0, false), (0, 16, false), (-20, -5, true), (125, 110, true), (15, 0, true), (115, 110, true)].all
       (fun (p : Int × Int × Bool) => let n := (near (some p.2.1) bare).sensorNear 0 7
        (decide (-20 ≤ p.1 ∧ p.1 ≤ 125) && decide ((p.1 * n.length - n.foldl (· + ·) 0).natAbs ≤ 15 * n.length)) == p.2.2) &&
     [14, 15].all (fun m => let s := modC 0 (fun c => { c with sensors := [(7, (40 : Int), m)] }) bare
       (Tbl.find (s.core 0).sensors 7).any (fun x => x.1 == 40 && x.2 == m && decide (x.1 < 115)) && (s.sensorNear 0 7).isEmpty && !(s.core 0).outOfService)) = true := by
  decide +kernel

/-- O54: powers and temperatures at the limits, in each state of the hold; sensors at each side of the stop; images that are accepted
and refused; the stages. -/
theorem test_meets_PowerResetAndBoot :
    (let hot (r : Int) : State := modC 0 (fun c => { c with sensors := [(7, r, 1)] }) bare
     [(2800, 104, false), (2801, 0, true), (0, 105, true), (65535, 125, true)].all (fun (p : Nat × Int × Bool) =>
       decide (2800 < p.1 ∨ 105 ≤ (hot p.2.1).hottest) == p.2.2) &&
     bits bare.control.telemetry.toNat 47 32 == 0 &&
     [(0, 0#64, 65535#64, true), (3, 1, 65536, false), (3, 1, 65537, true), (2, 1, 65537, true)].all (fun (p : Nat × DWord × DWord × Bool) =>
       let s : State := { bare with dclk := p.2.2.1, board := { bare.board with hold := p.1, holdSince := p.2.1, clearSince := some 1 } }
       decide (s.board.holdSince = 0 ∨ s.board.holdSince.toNat + 65536 ≤ s.dclk.toNat) == p.2.2.2 && decide (p.1 ≤ 3)) &&
     [114, 115].all (fun (r : Int) => (Tbl.find ((hot r).core 0).sensors 7).any (fun x => x.1 == r) && !((hot r).core 0).outOfService && !(hot r).board.stopped) &&
     (bare.board.clearSince.isNone && bare.board.stage == 0 && (mapped bare).board.stage != 0) &&
     (let i (m : Word) (v : DWord) (e d : Bool) : BootImage := ⟨m, 1, v, 0, 0, e, d, 0⟩
      imageAccepted (i 0x594E3341 7 true true) 7 && imageAccepted (i 0x594E3341 8 true true) 7 && !imageAccepted (i 0x594E3341 6 true true) 7 &&
        !imageAccepted (i 0 7 true true) 7 && !imageAccepted (i 0x594E3341 7 false true) 7 && !imageAccepted (i 0x594E3341 7 true false) 7) &&
     { bare.board with stage := 3 }.stage == 3) = true := by
  decide +kernel


/-- O56: a word of each stream with every operand bit set, and the words of the tests below. -/
theorem test_meets_EncodedWordsDecodeBack :
    [Instr.add 184 255 255, .brx 7 255, .mset 1 15 0xFFFF, .mmax 1 7 3 15, .cpy 184 15 1].all (fun i => i.wf && (encode i).isSome) = true := by
  decide +kernel

/-- O57: a turn of a fragment, of a sequencer whose word is at hand, and of an event. -/
theorem test_meets_StepRunsTheDecodedWord :
    (let s := { on 0 (.add 8 9 10) with agenda := [.issue 0 false] }
     let v := s.settleDue
     let u := { v with agenda := [] }
     v.agenda == [.issue 0 false] && (v.strand 0).any (fun st => (st.frag false).any (fun f => f.hold == .none && f.started && (match decode f.word with
         | .ok (.add 8 9 10) => true
         | _ => false) && st.mayIssue u false && st.openFault == none &&
       (regsOf f (.add 8 9 10)).all (fun n => !(u.pending 0 st).contains n) && u.unitsAccept 0 st (opcodeOf f.word) && u.orderReady 0 st f (.add 8 9 10) && v.flips.isEmpty)) &&
       s.blocks.all (fun p => p.2.barriers.all (fun x => x.2.firstWait.isNone)) && s.launches.all (fun l => l.groupFirst.isEmpty) &&
       s.cores.all (fun p => !p.2.columnFails) && s.control.placing.isNone && s.control.killing.isEmpty && s.control.outing.isNone) = true ∧
    [(0x04000000#32, some 0), (0x11300800, none)].all (fun p =>
     let s := modC 0 (fun c => { c with arrayFor := p.2 }) { seqAt (fun q => { q with ready := some p.1 }) id with agenda := [.seq 0] }
     let v := s.settleDue
     let u := { v with agenda := [] }
     v.agenda == [.seq 0] && (v.block 0).any (fun b => b.seq.pend.isNone && b.seq.running.any (fun q => u.seqGoesOn 0 q && q.ready == some p.1) && b.seq.halt.isNone && b.seq.aborting.isNone && b.seq.wait.isNone &&
       (seqOperation p.1 == false || u.granted 0) && (match decodeSeq p.1 with
         | .ok _ => true
         | _ => false))) = true ∧
    { bare with agenda := [.event .heldEventWrite] }.settleDue.agenda = .event .heldEventWrite :: [] := by
  exact ⟨by decide +kernel, by decide +kernel, by decide +kernel⟩

/-- O58: words of two operands, of one, and with the carry, and one that writes no latch and knows no guard; with every lane active and with none. -/
theorem test_meets_RegisterWordsChangeTheirDestinationAlone :
    [(Instr.add 184 9 10, 184#8, true), (.addc 8 9 10, 8, true), (.popc 8 9, 8, true), (.getmode 8, 8, false)].all (fun p =>
      registerWord p.1 && (operandsOf p.1).head?.map Prod.snd == some p.2.1 && latchWord p.1 == p.2.2 &&
      [0#32, 0x100].all (fun m => meets p.1 (on m p.1) (fun c => Mask.has (c.written p.1) 31 == (m == 0 || !p.2.2))) && (match exec p.1 (on 0 p.1) with
        | .next _ => true
        | _ => false)) = true := by
  decide +kernel

/-- O60: a state whose memory is canonical, and a step of it. -/
theorem test_meets_StepsKeepMemoryCanonical :
    (on 0 (.add 8 9 10)).memWf ∧ (match step (on 0 (.add 8 9 10)) with
      | .next _ => true
      | _ => false) = true := by
  exact ⟨by decide +kernel, by decide +kernel⟩

end Sys2Proof.Tests
end

