-- ==== Sys2Proof/Proofs/MemoryCanonical.lean ====
section
namespace Sys2Proof.Machine

/-!
# O60: every step keeps memory canonical

HBM4E is a sparse table, and only `State.setByte` (under `writeN`, `writeList` and `storeList`) and a package reset
change it. So a function of the model does one of two things to the table, and has one lemma that says which:

* it leaves memory as it is: `f_mem : (s.f …).mem = s.mem`;
* it may store: `f_canonical : Canonical s.mem → Canonical (s.f …).mem`.

The lemmas stand in the order of the model's own definitions and are tagged for `simp`, so that the lemma of a function
cites those of the functions it calls. `exec_canonical` puts the instructions together.
-/

/-- The form of a table of bytes that `State.memWf` asks for: ascending, and without the byte of an unlisted place. -/
def Canonical (m : Tbl Byte) : Prop := Tbl.sorted m = true ∧ Tbl.noDefault Config.unlistedByte m = true

theorem State.memWf_iff_canonical {s : State} : s.memWf ↔ Canonical s.mem := Iff.rfl

/-- Where an outcome is a next state, the memory of that state is canonical. -/
def OutCanonical (o : Out) : Prop := ∀ t, o = .next t → Canonical t.mem

/- `simp` proves the side condition `Canonical (s.f …).mem` of a lemma through rules `(s.f …).mem = s.mem` that hold by
`rfl`; such a proof is accepted only where implicit arguments are compared by unfolding. -/
set_option backward.isDefEq.respectTransparency false

/-! ### Canonical tables and outcomes -/

@[simp] theorem outCanonical_next (t : State) : OutCanonical (.next t) ↔ Canonical t.mem :=
  ⟨fun h => h t rfl, fun h u e => by cases e; exact h⟩

@[simp] theorem canonical_ite (p : Prop) [Decidable p] (a b : Tbl Byte) :
    Canonical (if p then a else b) ↔ if p then Canonical a else Canonical b := by
  split <;> rfl

theorem canonical_of_eq_mk {α : Type} {p : State × α} (hp : Canonical p.1.mem) {t : State} {y : α} (e : p = (t, y)) :
    Canonical t.mem := by
  subst e
  exact hp

@[simp] theorem mem_ite (p : Prop) [Decidable p] (a b : State) :
    (if p then a else b).mem = if p then a.mem else b.mem :=
  apply_ite State.mem p a b

theorem ite_fst_mem {α : Type} (p : Prop) [Decidable p] (s : State) (a b : α) :
    (if p then (s, a) else (s, b)).1.mem = s.mem := by
  split <;> rfl

/-! ### Folds over a list of operations -/

@[simp] theorem foldl_mem {α : Type} {f : State → α → State} (hf : ∀ s a, (f s a).mem = s.mem) (s : State) (l : List α) :
    (l.foldl f s).mem = s.mem := by
  induction l generalizing s with
  | nil => rfl
  | cons a r ih => exact (ih _).trans (hf _ _)

@[simp] theorem foldl_fst_mem {α β : Type} {f : State × β → α → State × β} (hf : ∀ p a, (f p a).1.mem = p.1.mem)
    (p : State × β) (l : List α) : (l.foldl f p).1.mem = p.1.mem :=
  List.foldlRecOn (motive := fun q => q.1.mem = p.1.mem) l f rfl fun q hq a _ => (hf q a).trans hq

theorem foldl_bind_mem {α : Type} {f : State → α → Option State} (hf : ∀ s a t, f s a = some t → t.mem = s.mem) {l : List α}
    {s t : State} (h : l.foldl (fun (acc : Option State) a => acc.bind fun s => f s a) (some s) = some t) : t.mem = s.mem := by
  refine List.foldlRecOn (motive := fun acc : Option State => ∀ t, acc = some t → t.mem = s.mem) l _ ?_
    (fun acc ih a _ t ht => ?_) t h
  · rintro _ ⟨⟩
    rfl
  · obtain ⟨u, hu, hut⟩ := Option.bind_eq_some_iff.mp ht
    exact (hf u a t hut).trans (ih u hu)

theorem foldl_canonical {α : Type} {f : State → α → State} (hf : ∀ s a, Canonical s.mem → Canonical (f s a).mem) {s : State}
    (h : Canonical s.mem) (l : List α) : Canonical (l.foldl f s).mem :=
  List.foldlRecOn (motive := fun s => Canonical s.mem) l f h fun s hs a _ => hf s a hs

theorem foldl_fst_canonical {α β : Type} {f : State × β → α → State × β}
    (hf : ∀ p a, Canonical p.1.mem → Canonical (f p a).1.mem) {p : State × β} (h : Canonical p.1.mem) (l : List α) :
    Canonical (l.foldl f p).1.mem :=
  List.foldlRecOn (motive := fun p => Canonical p.1.mem) l f h fun p hp a _ => hf p a hp

/-! ### The operations that store -/

@[simp] theorem State.setByte_canonical {s : State} (h : Canonical s.mem) (a : Nat) (b : Byte) :
    Canonical (s.setByte a b).mem :=
  State.memWf_setByte a b h

@[simp] theorem State.writeN_canonical {s : State} (h : Canonical s.mem) (a n v : Nat) : Canonical (s.writeN a n v).mem :=
  State.memWf_writeN a n v h

@[simp] theorem State.writeList_canonical {s : State} (h : Canonical s.mem) (l : List (Nat × Byte)) :
    Canonical (s.writeList l).mem :=
  State.memWf_writeList l h

@[simp] theorem State.storeList_canonical {s : State} (h : Canonical s.mem) (l : List (Nat × Byte)) :
    Canonical (s.storeList l).mem :=
  State.memWf_storeList l h

/-! ### The end of a word -/

@[simp] theorem Ctx.doneIn_canonical (c : Ctx) (s : State) : Canonical (c.doneIn s).mem ↔ Canonical s.mem := by
  rw [Ctx.doneIn_mem]

@[simp] theorem Ctx.launch_canonical (c : Ctx) (s : State) (logged : Bool) (f : Flight) :
    Canonical (c.launch s logged f).mem ↔ Canonical s.mem := by
  rw [Ctx.launch_mem]

/-! ### Memory -/

@[simp] theorem State.reveal_mem (s : State) (as : List Nat) : (s.reveal as).mem = s.mem := by
  simp [State.reveal]

@[simp] theorem State.rewritten_mem (s : State) (lot : Nat) : (s.rewritten lot).mem = s.mem := by
  simp [State.rewritten]

@[simp] theorem State.checkMemory_mem (s : State) (as : List Nat) : (s.checkMemory as).mem = s.mem := by
  simp [State.checkMemory]

@[simp] theorem State.storeN_canonical {s : State} (hs : Canonical s.mem) (a n v : Nat) :
    Canonical (s.storeN a n v).mem := by
  simp [State.storeN, hs]

@[simp] theorem State.freshDWord_mem (s : State) : s.freshDWord.2.mem = s.mem := by
  simp [State.freshDWord]

@[simp] theorem State.latchTract_mem (s : State) (k : Nat) : (s.latchTract k).mem = s.mem := by
  simp [State.latchTract]

/-! ### Address translation -/

@[simp] theorem State.orEntry_canonical {s : State} (hs : Canonical s.mem) (at_ m : Nat) :
    Canonical (s.orEntry at_ m).mem := by
  simp [State.orEntry, hs]

theorem State.appendDirty_canonical {s : State} (hs : Canonical s.mem) (cl : Nat) (sp : Space) (va : Nat) (f : Found) :
    ∀ t, s.appendDirty cl sp va f = some t → Canonical t.mem := by
  simp [State.appendDirty, hs]

theorem State.markLeaves_canonical {s : State} (hs : Canonical s.mem) (cl : Nat) (sp : Space) (k : Access) (va : Nat)
    (f : Found) :
    ∀ t, s.markLeaves cl sp k va f = some t → Canonical t.mem := by
  have hf {t : State} (ht : Canonical t.mem) : Canonical (f.outer.foldl (fun s l => s.orEntry l.at_ 0x20) t).mem :=
    foldl_canonical (fun s _ hs => by simp [hs]) ht _
  have ha {p : Prop} [Decidable p] {t} (ht : (if p then s.appendDirty cl sp va f else some s) = some t) :
      Canonical t.mem := by
    split at ht
    · exact State.appendDirty_canonical hs _ _ _ _ _ ht
    · exact Option.some.inj ht ▸ hs
  unfold State.markLeaves
  dsimp only
  split
  · simp
  next t ht =>
    rintro _ ⟨⟩
    split <;> simp [hf (ha ht)]

@[simp] theorem State.fillTlb_mem (s : State) (core : Nat) (sp : Space) (page : Nat) (f : Found) (x : Xlat) :
    (s.fillTlb core sp page f x).mem = s.mem := by
  simp [State.fillTlb]

@[simp] theorem State.useWalk_mem (s : State) (cl : Nat) (sp : Space) (va : Nat) :
    (s.useWalk cl sp va).mem = s.mem := by
  simp [State.useWalk]

theorem State.tlbHit_mem (s : State) (core : Nat) (sp : Space) (k : Access) (page : Nat) :
    ∀ t y, s.tlbHit core sp k page = some (t, y) → t.mem = s.mem := by
  fun_cases State.tlbHit s core sp k page <;> simp +zetaDelta

theorem State.translate_canonical {s : State} (hs : Canonical s.mem) (core : Nat) (sp : Space) (k : Access) (va : Nat) :
    ∀ t y, s.translate core sp k va = some (t, y) → Canonical t.mem := by
  fun_cases State.translate s core sp k va <;>
    grind [State.tlbHit_mem, State.useWalk_mem, State.markLeaves_canonical, State.fillTlb_mem]

theorem State.translateOutside_canonical {s : State} (hs : Canonical s.mem) (sp : Space) (k : Access) (va : Nat) :
    ∀ t y, s.translateOutside sp k va = some (t, y) → Canonical t.mem := by
  fun_cases State.translateOutside s sp k va <;> grind [State.markLeaves_canonical]

@[simp] theorem State.writeVa_canonical {s : State} (hs : Canonical s.mem) (sp : Space) (va n v : Nat) :
    Canonical (s.writeVa sp va n v).mem := by
  refine foldl_canonical (fun s p hs => ?_) hs _
  split
  next t x e => simp [State.translateOutside_canonical hs _ _ _ _ _ e]
  next t _ _ e => exact State.translateOutside_canonical hs _ _ _ _ _ e
  · exact hs

/-! ### Faults and the operation log -/

@[simp] theorem Ctx.done_mem (c : Ctx) (st : Strand) : (c.done st).mem = c.s.mem := by
  simp [Ctx.done]

@[simp] theorem Ctx.result_mem (c : Ctx) (wide : Bool) (d : BitVec 8) (v : Vals) :
    (c.result wide d v).mem = c.s.mem := by
  simp [Ctx.result]

@[simp] theorem Ctx.resultNoLatch_mem (c : Ctx) (wide : Bool) (d : BitVec 8) (v : Vals) :
    (c.resultNoLatch wide d v).mem = c.s.mem := by
  simp [Ctx.resultNoLatch]

@[simp] theorem State.postEntry_canonical {s : State} (hs : Canonical s.mem) (e : BitVec 512) :
    Canonical (s.postEntry e).mem := by
  simp [State.postEntry, hs]

@[simp] theorem State.unlessFull_canonical {s t : State} (hs : Canonical s.mem) (ht : Canonical t.mem) :
    Canonical (s.unlessFull t).mem := by
  simp [State.unlessFull, hs, ht]

@[simp] theorem State.post_canonical {s : State} (hs : Canonical s.mem) (kind cause strandId ptr rest : Nat) :
    Canonical (s.post kind cause strandId ptr rest).mem := by
  simp [State.post, hs]

@[simp] theorem State.countError_mem (s : State) (core : Nat) (slot : Option Nat) (idx : Nat) :
    (s.countError core slot idx).mem = s.mem := by
  simp [State.countError]

@[simp] theorem State.countPoison_mem (s : State) (core : Nat) (slot : Option Nat) (unit place : Nat) :
    (s.countPoison core slot unit place).mem = s.mem := by
  simp [State.countPoison]

@[simp] theorem State.columnErrors_mem (s : State) (core n : Nat) : (s.columnErrors core n).mem = s.mem := by
  simp [State.columnErrors]

@[simp] theorem State.checkGranules_mem (s : State) (core : Nat) (slot : Option Nat) (as : List Nat) :
    (s.checkGranules core slot as).mem = s.mem :=
  foldl_mem (fun s g => by split <;> simp) _ _

@[simp] theorem State.consume_mem (s : State) (core : Nat) (slot : Option Nat) (as : List Nat) :
    (s.consume core slot as).1.mem = s.mem := by
  fun_cases State.consume s core slot as <;> simp +zetaDelta

@[simp] theorem State.readWord_mem (s : State) (pa : Nat) : (s.readWord pa).2.mem = s.mem := by
  fun_cases State.readWord s pa <;> simp +zetaDelta

@[simp] theorem State.fetchWord_canonical {s : State} (hs : Canonical s.mem) (a : Agent) (pc : DWord) :
    Canonical (s.fetchWord a pc).1.mem := by
  fun_cases State.fetchWord s a pc <;> grind [State.translate_canonical, State.consume_mem, State.readWord_mem]

@[simp] theorem State.checkTarget_canonical {s : State} (hs : Canonical s.mem) (a : Agent) (t : DWord) :
    Canonical (s.checkTarget a t).1.mem := by
  fun_cases State.checkTarget s a t <;> grind [State.fetchWord_canonical]

@[simp] theorem State.checkTargets_canonical {s : State} (hs : Canonical s.mem) (a : Agent) (m : Mask) (t : Nat → DWord)
    :
    Canonical (s.checkTargets a m t).1.mem := by
  refine foldl_fst_canonical (fun acc L h => ?_) hs _
  have ht := State.checkTarget_canonical h a (t L)
  split <;> simp_all

@[simp] theorem State.stackAccess_canonical {s : State} (hs : Canonical s.mem) (sid : Nat) (st : Strand) (k : Access)
    (e : Nat) :
    Canonical (s.stackAccess sid st k e).1.mem := by
  fun_cases State.stackAccess s sid st k e <;> grind [State.translate_canonical]

@[simp] theorem State.clearFlag_mem (s : State) (sid : Nat) (flag : Option Nat) :
    (s.clearFlag sid flag).mem = s.mem := by
  fun_cases State.clearFlag s sid flag <;> simp +zetaDelta

@[simp] theorem State.completeFlight_mem (s : State) (f : Flight) : (s.completeFlight f).mem = s.mem := by
  fun_cases State.completeFlight s f <;> simp +zetaDelta

@[simp] theorem State.returnAllotment_mem (s : State) (bk : Nat) (b : Block) :
    (s.returnAllotment bk b).mem = s.mem := by
  simp [State.returnAllotment]

@[simp] theorem State.removeStrand_mem (s : State) (k : Nat) : (s.removeStrand k).mem = s.mem := by
  simp [State.removeStrand]

@[simp] theorem State.detach_mem (s : State) (bk : Nat) : (s.detach bk).mem = s.mem := by
  simp [State.detach]

@[simp] theorem State.removeBlock_mem (s : State) (bk : Nat) : (s.removeBlock bk).mem = s.mem := by
  fun_cases State.removeBlock s bk <;> simp +zetaDelta

@[simp] theorem State.dropUnit_mem (s : State) (unit : Nat) : (s.dropUnit unit).mem = s.mem := by
  simp [State.dropUnit]

@[simp] theorem State.dropUnitsOf_mem (s : State) (launch : Nat) : (s.dropUnitsOf launch).mem = s.mem := by
  simp [State.dropUnitsOf]

@[simp] theorem State.killGang_mem (s : State) (tag : BitVec 13) (cause detail : Nat) :
    (s.killGang tag cause detail).mem = s.mem := by
  fun_cases State.killGang s tag cause detail <;> simp +zetaDelta

@[simp] theorem State.writeCtx_canonical {s : State} (hs : Canonical s.mem) (st : Strand) (off n v : Nat) :
    Canonical (s.writeCtx st off n v).mem := by
  simp [State.writeCtx, hs]

@[simp] theorem State.deferFaulted_mem (s : State) (sid : Nat) : (s.deferFaulted sid).mem = s.mem := by
  simp [State.deferFaulted]

@[simp] theorem State.toKernel_canonical {s : State} (hs : Canonical s.mem) (sid : Nat) (st : Strand) (r : Record) :
    Canonical (s.toKernel sid st r).mem := by
  simp [State.toKernel, hs]

@[simp] theorem State.toHypervisor_mem (s : State) (sid : Nat) (st : Strand) (r : Record) :
    (s.toHypervisor sid st r).mem = s.mem := by
  simp [State.toHypervisor]

@[simp] theorem State.deliver_canonical {s : State} (hs : Canonical s.mem) (sid : Nat) (st : Strand) (r : Record) :
    Canonical (s.deliver sid st r).mem := by
  fun_cases State.deliver s sid st r <;>
    grind [State.toHypervisor_mem, State.killGang_mem, State.setStrand_mem, State.toKernel_canonical,
      State.checkTarget_canonical]

@[simp] theorem State.takeTrap_canonical {s : State} (hs : Canonical s.mem) (sid : Nat) :
    Canonical (s.takeTrap sid).mem := by
  fun_cases State.takeTrap s sid <;> simp +zetaDelta [hs]

@[simp] theorem State.raiseFrom_canonical {s : State} (hs : Canonical s.mem) (sid : Nat) (slot : Bool) (pc : DWord)
    (r : Raised) (seqAddr : Option DWord) (issuing : Bool) (pos : Nat) (time : DWord) :
    Canonical (s.raiseFrom sid slot pc r seqAddr issuing pos time).mem := by
  fun_cases State.raiseFrom s sid slot pc r seqAddr issuing pos time <;> simp +zetaDelta [hs]

@[simp] theorem State.raise_canonical {s : State} (hs : Canonical s.mem) (sid : Nat) (slot : Bool) (pc : DWord)
    (r : Raised) (seqAddr : Option DWord) (issuing : Bool) :
    Canonical (s.raise sid slot pc r seqAddr issuing).mem := by
  simp [State.raise, hs]

@[simp] theorem State.raiseEnded_canonical {s : State} (hs : Canonical s.mem) (sid : Nat) (slot : Bool) (pc : DWord)
    (r : Raised) :
    Canonical (s.raiseEnded sid slot pc r).mem := by
  simp [State.raiseEnded, hs]

@[simp] theorem Ctx.raise_canonical {c : Ctx} {s : State} (hs : Canonical s.mem) (r : Raised) :
    Canonical (c.raise s r).mem := by
  simp [Ctx.raise, hs]

@[simp] theorem Ctx.raiseWide_canonical {c : Ctx} (hc : Canonical c.s.mem) (cause : Cause) (d : Detail) :
    Canonical (c.raiseWide cause d).mem := by
  simp [Ctx.raiseWide, hc]

@[simp] theorem Ctx.raiseAfter_canonical {c : Ctx} {s : State} (hs : Canonical s.mem) (r : Raised) :
    Canonical (c.raiseAfter s r).mem := by
  simp [Ctx.raiseAfter, hs]

theorem strandWord_canonical {s : State} (hs : Canonical s.mem) {i : Instr} {body : Ctx → State}
    (hb : ∀ c, Canonical c.s.mem → Canonical (body c).mem) : OutCanonical (strandWord i body s) := by
  simp only [strandWord, outCanonical_next]
  split
  · exact hs
  next c e =>
    obtain ⟨-, -, hc, -⟩ := State.ctx_eq_some e
    have hc : Canonical c.s.mem := hc ▸ hs
    split
    · exact hb c hc
    · simp [hc]

/-! ### Operations in flight -/

@[simp] theorem Ctx.over_mem (c : Ctx) (s : State) : (c.over s).mem = s.mem := by
  simp [Ctx.over, Ctx.doneIn_mem]

@[simp] theorem State.writeBack_mem (s : State) (f : Flight) (j : Nat) (m : Mask) :
    (s.writeBack f j m).mem = s.mem := by
  simp [State.writeBack]

/-! ### Barriers and groups -/

@[simp] theorem State.flipPhase_mem (s : State) (bk k : Nat) : (s.flipPhase bk k).mem = s.mem := by
  fun_cases State.flipPhase s bk k <;> simp +zetaDelta

@[simp] theorem State.settle_mem (s : State) (bk k : Nat) (ticks : DWord) : (s.settle bk k ticks).mem = s.mem := by
  fun_cases State.settle s bk k ticks <;> simp +zetaDelta

@[simp] theorem State.flipNow_mem (s : State) (x : Nat × Nat × DWord) : (s.flipNow x).mem = s.mem := by
  simp [State.flipNow]

@[simp] theorem State.flipDue_mem (s : State) : s.flipDue.mem = s.mem := by
  simp [State.flipDue]

@[simp] theorem State.flipAll_mem (n : Nat) (s : State) (bk : Nat) : (State.flipAll n s bk).mem = s.mem := by
  induction n generalizing s with
  | zero => rfl
  | succ n ih =>
    unfold State.flipAll
    split
    · rfl
    · simp [ih]

@[simp] theorem State.flipBlock_mem (s : State) (bk : Nat) : (s.flipBlock bk).mem = s.mem := by
  unfold State.flipBlock
  split <;> simp

@[simp] theorem State.checkArrival_mem (s : State) (st : Strand) (k : Nat) : (s.checkArrival st k).mem = s.mem := by
  fun_cases State.checkArrival s st k <;> simp +zetaDelta

@[simp] theorem State.arriveOn_mem (s : State) (st : Strand) (m : Mask) (k : Nat) :
    (s.arriveOn st m k).mem = s.mem := by
  fun_cases State.arriveOn s st m k <;> simp +zetaDelta

@[simp] theorem State.seqArrive_mem (s : State) (bk k : Nat) (report : DWord) :
    (s.seqArrive bk k report).mem = s.mem := by
  fun_cases State.seqArrive s bk k report <;> simp +zetaDelta

@[simp] theorem State.raiseClock_mem (s : State) (cl : Nat) (c : BitVec 20) : (s.raiseClock cl c).mem = s.mem := by
  simp [State.raiseClock]

@[simp] theorem State.acquireOutside_mem (s : State) (core : Nat) : (s.acquireOutside core).mem = s.mem := by
  simp [State.acquireOutside]

@[simp] theorem State.acquireCounter_mem (s : State) (core bk c : Nat) (n : DWord) :
    (s.acquireCounter core bk c n).mem = s.mem := by
  simp [State.acquireCounter]

@[simp] theorem State.checkGroup_mem (s : State) (bk g : Nat) : (s.checkGroup bk g).mem = s.mem := by
  fun_cases State.checkGroup s bk g <;> simp +zetaDelta

@[simp] theorem State.checkGroupArrival_mem (s : State) (st : Strand) (g : Nat) :
    (s.checkGroupArrival st g).mem = s.mem := by
  fun_cases State.checkGroupArrival s st g <;> simp +zetaDelta

@[simp] theorem State.arriveGroup_mem (s : State) (st : Strand) (m : Mask) (g : Nat) :
    (s.arriveGroup st m g).mem = s.mem := by
  fun_cases State.arriveGroup s st m g <;> simp +zetaDelta

@[simp] theorem State.recheck_mem (s : State) (sid : Nat) : (s.recheck sid).mem = s.mem := by
  fun_cases State.recheck s sid <;> simp +zetaDelta

@[simp] theorem State.raiseTimeout_canonical {s : State} (hs : Canonical s.mem) (sid : Nat) (slot : Bool) (d : Detail)
    (time : DWord) :
    Canonical (s.raiseTimeout sid slot d time).mem := by
  fun_cases State.raiseTimeout s sid slot d time <;> simp +zetaDelta [hs]

@[simp] theorem State.expireBarrier_canonical {s : State} (hs : Canonical s.mem) (bk k : Nat) :
    Canonical (s.expireBarrier bk k).mem := by
  fun_cases State.expireBarrier s bk k
  case case4 => exact foldl_canonical (fun s _ hs => by simp [hs]) (by exact hs) _
  all_goals exact hs

@[simp] theorem State.expireGroup_canonical {s : State} (hs : Canonical s.mem) (bk g : Nat) :
    Canonical (s.expireGroup bk g).mem := by
  fun_cases State.expireGroup s bk g
  case case4 => exact foldl_canonical (fun s _ hs => by simp [hs]) (by exact hs) _
  all_goals exact hs

@[simp] theorem State.expireDue_canonical {s : State} (hs : Canonical s.mem) : Canonical s.expireDue.mem := by
  refine foldl_canonical (fun s p hs => ?_) hs _
  have hb (l : List (Nat × Barrier)) : Canonical (l.foldl (fun s x => s.expireBarrier p.1 x.1) s).mem :=
    foldl_canonical (fun s _ hs => by simp [hs]) hs _
  dsimp only
  split
  · exact foldl_canonical (fun s _ hs => by simp [hs]) (hb _) _
  · exact hb _

@[simp] theorem State.observed_mem (s : State) (core scope : Nat) : (s.observed core scope).mem = s.mem := by
  simp [State.observed]

/-! ### Special registers -/

@[simp] theorem State.endHold_mem (s : State) (sid : Nat) (slot : Bool) : (s.endHold sid slot).mem = s.mem := by
  fun_cases State.endHold s sid slot <;> simp +zetaDelta

@[simp] theorem Ctx.hold_mem (c : Ctx) (s : State) (h : Hold) : (c.hold s h).mem = s.mem := by
  simp [Ctx.hold]

@[simp] theorem Ctx.setSpecial_mem (c : Ctx) (n : Nat) (x : Nat) : (c.setSpecial n x).mem = c.s.mem := by
  fun_cases Ctx.setSpecial c n x <;> simp [Ctx.doneIn_mem]

theorem execWrsr_canonical {s : State} (hs : Canonical s.mem) (sg a : BitVec 8) : OutCanonical (execWrsr sg a s) := by
  refine strandWord_canonical hs fun c hc => ?_
  repeat' split
  all_goals simp [hc]

@[simp] theorem State.dropReq_mem (s : State) (core part : Nat) (r : GrowReq) :
    (s.dropReq core part r).mem = s.mem := by
  simp [State.dropReq]

@[simp] theorem State.endGrow_mem (s : State) (sid : Nat) (slot : Bool) : (s.endGrow sid slot).mem = s.mem := by
  fun_cases State.endGrow s sid slot <;> simp +zetaDelta

theorem execGrowthGrant_canonical {s : State} (hs : Canonical s.mem) (core part : Nat) :
    OutCanonical (execGrowthGrant core part s) := by
  simp only [execGrowthGrant, outCanonical_next]
  split <;> simp [hs]

@[simp] theorem State.readCtx_mem (s : State) (st : Strand) (off n : Nat) : (s.readCtx st off n).2.mem = s.mem := by
  fun_cases State.readCtx s st off n <;> simp +zetaDelta

@[simp] theorem State.storeGranules_canonical {s : State} (hs : Canonical s.mem) (st : Strand) :
    Canonical (s.storeGranules st).mem := by
  refine foldl_canonical (fun s g hs => ?_) hs _
  split
  · exact foldl_canonical (fun s _ hs => by simp [hs]) hs _
  · exact hs

@[simp] theorem State.loadGranules_mem (s : State) (st : Strand) (map : BitVec 24) :
    (s.loadGranules st map).2.mem = s.mem := by
  refine List.foldlRecOn (motive := fun acc : Strand × State => acc.2.mem = s.mem) _ _ rfl fun acc h r _ => ?_
  split <;> simp [h]

@[simp] theorem State.raiseNext_canonical {s : State} (hs : Canonical s.mem) (sid : Nat) (st : Strand) (cause : Cause)
    (addr : DWord) (d : Detail) :
    Canonical (s.raiseNext sid st cause addr d).mem := by
  fun_cases State.raiseNext s sid st cause addr d <;> simp +zetaDelta [hs]

theorem execGrowthRelief_canonical {s : State} (hs : Canonical s.mem) (core part : Nat) :
    OutCanonical (execGrowthRelief core part s) := by
  simp only [execGrowthRelief, outCanonical_next]
  repeat' split
  all_goals simp [hs]

/-! ### Synchronisation -/

@[simp] theorem Ctx.waitBarrier_canonical {c : Ctx} {s : State} (hs : Canonical s.mem) (k : Nat) (p : Word) :
    Canonical (c.waitBarrier s k p).mem := by
  fun_cases Ctx.waitBarrier c s k p <;> simp +zetaDelta [hs]

@[simp] theorem Ctx.waitGroup_canonical {c : Ctx} {s : State} (hs : Canonical s.mem) (g p : Nat) :
    Canonical (c.waitGroup s g p).mem := by
  fun_cases Ctx.waitGroup c s g p <;> simp +zetaDelta [hs]

theorem execGbar_canonical {s : State} (hs : Canonical s.mem) (g : BitVec 8) : OutCanonical (execGbar g s) := by
  refine strandWord_canonical hs fun c hc => ?_
  dsimp only
  repeat' split
  all_goals simp [hc]

@[simp] theorem State.raiseEngine_canonical {s : State} (hs : Canonical s.mem) (sid : Nat) (slot : Bool) (pc : DWord)
    (c : Nat) (n : DWord) (m : Mask) :
    Canonical (s.raiseEngine sid slot pc c n m).mem := by
  fun_cases State.raiseEngine s sid slot pc c n m <;> simp +zetaDelta [hs]

@[simp] theorem State.endFence_canonical {s : State} (hs : Canonical s.mem) (sid : Nat) (slot : Bool) (pc : DWord)
    (m : Mask) :
    Canonical (s.endFence sid slot pc m).mem := by
  fun_cases State.endFence s sid slot pc m <;> simp +zetaDelta [hs]

theorem execMwait_canonical {s : State} (hs : Canonical s.mem) (a : BitVec 8) : OutCanonical (execMwait a s) := by
  refine strandWord_canonical hs fun c hc => ?_
  repeat' split
  all_goals simp [hc]

@[simp] theorem State.releaseHold_canonical {s : State} (hs : Canonical s.mem) : Canonical s.releaseHold.mem := by
  fun_cases State.releaseHold s <;> simp +zetaDelta [hs]

theorem execBarrierWatchdogExpiry_canonical {s : State} (hs : Canonical s.mem) (block barrier : Nat) :
    OutCanonical (execBarrierWatchdogExpiry block barrier s) := by
  simp [execBarrierWatchdogExpiry, hs]

theorem execTwaitTimeout_canonical {s : State} (hs : Canonical s.mem) (strand : Nat) (slot : Bool) :
    OutCanonical (execTwaitTimeout strand slot s) := by
  simp only [execTwaitTimeout, outCanonical_next]
  repeat' split
  all_goals simp [hs]

theorem execMwaitExpiry_canonical {s : State} (hs : Canonical s.mem) (strand : Nat) (slot : Bool) :
    OutCanonical (execMwaitExpiry strand slot s) := by
  simp only [execMwaitExpiry, outCanonical_next]
  repeat' split
  all_goals simp [hs]

/-! ### Issue -/

@[simp] theorem State.raiseBad_canonical {s : State} (hs : Canonical s.mem) (e : DecodeError) :
    Canonical (s.raiseBad e).mem := by
  fun_cases State.raiseBad s e <;> simp +zetaDelta [hs]

/-! ### Control flow -/

@[simp] theorem Ctx.leave_mem (c : Ctx) (s : State) (st : Strand) : (c.leave s st).mem = s.mem := by
  simp [Ctx.leave]

theorem Ctx.pushing_canonical {c : Ctx} {s : State} (hc : Canonical c.s.mem) (hs : Canonical s.mem)
    {body : State → Nat → State}
    (hb : ∀ s e, Canonical s.mem → Canonical (body s e).mem) : Canonical (c.pushing s body).mem := by
  unfold Ctx.pushing
  dsimp only
  split
  · simp [hc]
  next e _ =>
    have ha := State.stackAccess_canonical hs c.sid (c.strandIn s) .write e
    split <;> simp_all

@[simp] theorem Ctx.splitTo_mem (c : Ctx) (s : State) (g : Mask) (t : DWord) (rest : Frag) :
    (c.splitTo s g t rest).mem = s.mem := by
  fun_cases Ctx.splitTo c s g t rest <;> simp +zetaDelta

@[simp] theorem Ctx.countMiss_mem (c : Ctx) (s : State) (h : BitVec 2) (g : Mask) :
    (c.countMiss s h g).mem = s.mem := by
  simp [Ctx.countMiss]

theorem Ctx.branch_canonical {c : Ctx} {s : State} (hc : Canonical c.s.mem) (hs : Canonical s.mem) (h : BitVec 2)
    (g : Mask) (t : DWord)
    (rest : Frag) : Canonical (c.branch s h g t rest).mem := by
  have hp := Ctx.pushing_canonical hc hs (body := fun s _ => c.splitTo (c.countMiss s h g) g t rest) fun s _ hs => by
    simp [hs]
  simp [Ctx.branch, hs, hp]

theorem Ctx.checkedTargets_canonical {c : Ctx} (hc : Canonical c.s.mem) (m : Mask) (t : Nat → DWord)
    {body : State → State}
    (hb : ∀ s, Canonical s.mem → Canonical (body s).mem) : Canonical (c.checkedTargets m t body).mem := by
  simp only [Ctx.checkedTargets]
  split
  · simp [hc]
  · exact hb _ (by simp [hc])

theorem execRcv_canonical {s : State} (hs : Canonical s.mem) (o : BitVec 16) : OutCanonical (execRcv o s) :=
  strandWord_canonical hs fun _ hc => Ctx.checkedTargets_canonical hc _ _ fun _ hs =>
    Ctx.pushing_canonical hc hs fun s e hs => by simp [hs]

theorem execBra_canonical {s : State} (hs : Canonical s.mem) (h : BitVec 2) (o : BitVec 16) :
    OutCanonical (execBra h o s) :=
  strandWord_canonical hs fun _ hc => Ctx.checkedTargets_canonical hc _ _ fun _ hs =>
    Ctx.branch_canonical hc hs _ _ _ _

theorem execBrc_canonical {s : State} (hs : Canonical s.mem) (h : BitVec 2) (p : BitVec 4) (sg : BitVec 1)
    (o : BitVec 16) :
    OutCanonical (execBrc h p sg o s) := by
  refine strandWord_canonical hs fun c hc => ?_
  dsimp only
  generalize c.f.mask &&& _ = g
  split
  · simp [hc]
  · exact Ctx.checkedTargets_canonical hc _ _ fun s hs => Ctx.branch_canonical hc hs _ _ _ _

@[simp] theorem Ctx.indirect_canonical {c : Ctx} (hc : Canonical c.s.mem) (h : BitVec 2) (a : BitVec 8) :
    Canonical (c.indirect h a).mem :=
  Ctx.checkedTargets_canonical hc _ _ fun _ hs => Ctx.branch_canonical hc hs _ _ _ _

theorem execCall_canonical {s : State} (hs : Canonical s.mem) (d : BitVec 8) (o : BitVec 16) :
    OutCanonical (execCall d o s) :=
  strandWord_canonical hs fun _ hc => Ctx.checkedTargets_canonical hc _ _ fun s hs => by simp [hs]

theorem execYield_canonical {s : State} (hs : Canonical s.mem) : OutCanonical (execYield s) :=
  strandWord_canonical hs fun c hc => by simp [hc]

@[simp] theorem State.fetchClause_canonical {s : State} (hs : Canonical s.mem) (a : Agent) (h : DWord) :
    Canonical (s.fetchClause a h).1.mem := by
  have hw := State.fetchWord_canonical hs a h
  unfold State.fetchClause
  split
  · simp_all
  · split
    · simp_all
    refine foldl_fst_canonical (fun acc j ha => ?_) (by simp_all) _
    split
    · exact ha
    next t ws =>
      have hw := State.fetchWord_canonical (s := t) ha a (h + BitVec.ofNat 64 (4 * (j + 1)))
      split <;> simp_all

theorem execClauseFetch_canonical {s : State} (hs : Canonical s.mem) : OutCanonical (execClauseFetch s) := by
  simp only [execClauseFetch, outCanonical_next]
  split
  · exact hs
  next st _ =>
    split
    · exact hs
    next f _ =>
      have hf := State.fetchClause_canonical hs (st.agent s s.cur) f.header
      split
      next e => simp [canonical_of_eq_mk hf e]
      next e => simp [canonical_of_eq_mk hf e]

@[simp] theorem State.recheckClause_canonical {s : State} (hs : Canonical s.mem) (k : Nat) (slot : Bool) :
    Canonical (s.recheckClause k slot).mem := by
  unfold State.recheckClause
  split
  · exact hs
  next st _ =>
    split
    · exact hs
    next f _ =>
      dsimp only
      have hf := State.fetchClause_canonical hs (st.agent s k) f.header
      split
      · simpa using hs
      · split
        · simpa using hs
        · split <;> simp_all

@[simp] theorem State.recheckClauses_canonical {s : State} (hs : Canonical s.mem) (k : Nat) :
    Canonical (s.recheckClauses k).mem := by
  simp [State.recheckClauses, hs]

theorem execClauseStart_canonical {s : State} (hs : Canonical s.mem) (l : BitVec 4) (w : BitVec 12) (a b : BitVec 4) :
    OutCanonical (execClauseStart l w a b s) := by
  simp only [execClauseStart, outCanonical_next]
  repeat' split
  all_goals simp [hs]

theorem execFragmentRefill_canonical {s : State} (hs : Canonical s.mem) (strand : Nat) :
    OutCanonical (execFragmentRefill strand s) := by
  simp only [execFragmentRefill, outCanonical_next]
  split
  · exact hs
  next st _ =>
    split
    · exact hs
    · split
      · exact hs
      next x f _ _ =>
        have ha := State.stackAccess_canonical hs strand st .read x
        split
        next e => simp [canonical_of_eq_mk ha e]
        next e => exact canonical_of_eq_mk ha e

theorem execFragmentExchange_canonical {s : State} (hs : Canonical s.mem) (strand : Nat) :
    OutCanonical (execFragmentExchange strand s) := by
  simp only [execFragmentExchange, outCanonical_next]
  have ha {s : State} (hs : Canonical s.mem) st k x := State.stackAccess_canonical hs strand st k x
  split
  · exact hs
  · split
    · exact hs
    · split
      · split
        next e =>
          have ht := canonical_of_eq_mk (ha hs _ _ _) e
          split
          next e => simp [canonical_of_eq_mk (ha ht _ _ _) e]
          next e => simp [canonical_of_eq_mk (ha ht _ _ _) e]
        next e => simp [canonical_of_eq_mk (ha hs _ _ _) e]
      · exact hs

theorem execYieldRelease_canonical {s : State} (hs : Canonical s.mem) (strand : Nat) :
    OutCanonical (execYieldRelease strand s) := by
  simp only [execYieldRelease, outCanonical_next]
  repeat' split
  all_goals simp [hs]

theorem execStrandReclaim_canonical {s : State} (hs : Canonical s.mem) (strand : Nat) :
    OutCanonical (execStrandReclaim strand s) := by
  simp only [execStrandReclaim, outCanonical_next]
  split <;> simp [hs]

@[simp] theorem State.endGang_mem (s : State) (tag : BitVec 13) : (s.endGang tag).mem = s.mem := by
  fun_cases State.endGang s tag <;> simp +zetaDelta

@[simp] theorem State.endBlock_mem (s : State) (block : Nat) (b : Block) : (s.endBlock block b).mem = s.mem := by
  simp [State.endBlock]

theorem execBlockEnd_canonical {s : State} (hs : Canonical s.mem) (block : Nat) :
    OutCanonical (execBlockEnd block s) := by
  simp only [execBlockEnd, outCanonical_next]
  split <;> simp [hs]

theorem execAllotmentClear_canonical {s : State} (hs : Canonical s.mem) (core : Nat) :
    OutCanonical (execAllotmentClear core s) := by
  simp [execAllotmentClear, hs]

/-! ### Context images -/

@[simp] theorem State.writeStack_canonical {s : State} (hs : Canonical s.mem) (sid : Nat) (st : Strand) :
    Canonical (s.writeStack sid st).mem :=
  foldl_canonical (fun s _ hs => by simp [hs]) hs _

@[simp] theorem State.saveContext_canonical {s : State} (hs : Canonical s.mem) (sid : Nat) (st : Strand) :
    Canonical (s.saveContext sid st).mem := by
  refine foldl_canonical (fun s _ hs => by simp [hs]) (foldl_canonical (fun s _ hs => by simp [hs]) ?_ _) _
  simp [hs]

theorem State.loadImage_mem (s : State) (sid : Nat) (st : Strand) (img : Nat) :
    ∀ t u, s.loadImage sid st img = some (t, u) → t.mem = s.mem := by
  fun_cases State.loadImage s sid st img <;> simp +zetaDelta

/-! ### Access words and their lanes -/

@[simp] theorem Ctx.access_canonical {c : Ctx} (hc : Canonical c.s.mem) (x : Ask) (promote : Bool) :
    Canonical (c.access x promote).mem := by
  fun_cases Ctx.access c x promote <;>
    grind [Ctx.over_mem, Ctx.launch_mem, State.raiseFrom_canonical, Ctx.fly_mem, Ctx.raise_canonical]

theorem accessWord_canonical {s : State} (hs : Canonical s.mem) (i : Instr) : OutCanonical (accessWord i s) := by
  refine strandWord_canonical hs fun c hc => ?_
  split <;> simp [hc]

@[simp] theorem State.noteColumn_mem (s : State) (core : Nat) (was now : Block) :
    (s.noteColumn core was now).mem = s.mem := by
  simp [State.noteColumn]

@[simp] theorem State.performLocalAt_mem (s : State) (f : Flight) (st : Strand) (x : Ask) (m : Mask) (j : Nat) :
    (s.performLocalAt f st x m j).1.mem = s.mem := by
  refine List.foldlRecOn (motive := fun acc : State × Flight × Mask => acc.1.mem = s.mem) _ _ rfl fun acc h L _ => ?_
  dsimp only
  repeat' split
  all_goals simp [h]

@[simp] theorem State.performLocal_mem (s : State) (f : Flight) (st : Strand) (x : Ask) (m : Mask) :
    (s.performLocal f st x m).1.mem = s.mem := by
  refine List.foldlRecOn (motive := fun acc : State × Flight => acc.1.mem = s.mem) _ _ rfl fun acc h j _ => ?_
  split
  · simpa using h
  · exact h

@[simp] theorem State.stampCore_mem (s : State) (f : Flight) (core : Nat) : (s.stampCore f core).mem = s.mem := by
  simp [State.stampCore]

@[simp] theorem State.acquireStamp_mem (s : State) (f : Flight) (stamp : BitVec 20) :
    (s.acquireStamp f stamp).mem = s.mem := by
  simp [State.acquireStamp]

@[simp] theorem State.grantArray_mem (s : State) (core : Nat) : (s.grantArray core).mem = s.mem := by
  simp [State.grantArray]

@[simp] theorem State.failFlight_canonical {s : State} (hs : Canonical s.mem) (f : Flight) (issuing : Bool) :
    Canonical (s.failFlight f issuing).mem := by
  fun_cases State.failFlight s f issuing <;> simp +zetaDelta [hs]

@[simp] theorem State.replayWhere_canonical {s : State} (hs : Canonical s.mem) (sid : Nat) (p : LogEntry → Bool) :
    Canonical (s.replayWhere sid p).mem := by
  fun_cases State.replayWhere s sid p
  case case3 => exact foldl_canonical (fun s _ hs => by simp [hs]) (by exact hs) _
  all_goals exact hs

@[simp] theorem State.replayAll_canonical {s : State} (hs : Canonical s.mem) (sid : Nat) :
    Canonical (s.replayAll sid).mem := by
  simp [State.replayAll, hs]

@[simp] theorem State.replayDue_canonical {s : State} (hs : Canonical s.mem) (sid : Nat) :
    Canonical (s.replayDue sid).mem := by
  fun_cases State.replayDue s sid <;> simp +zetaDelta [hs]

@[simp] theorem State.refillFault_canonical {s : State} (hs : Canonical s.mem) (strand : Nat) (st : Strand)
    (r : GrowReq) (e : Cause) (d : Detail) (a : Nat) :
    Canonical (s.refillFault strand st r e d a).mem := by
  simp [State.refillFault, hs]

theorem execSpilledStrandRefill_canonical {s : State} (hs : Canonical s.mem) (strand : Nat) :
    OutCanonical (execSpilledStrandRefill strand s) := by
  simp only [execSpilledStrandRefill, outCanonical_next]
  repeat' split
  all_goals simp [hs]

@[simp] theorem State.askRefill_mem (s : State) (sid : Nat) (st : Strand) : (s.askRefill sid st).mem = s.mem := by
  simp [State.askRefill]

@[simp] theorem State.keepSpilled_canonical {s : State} (hs : Canonical s.mem) (st : Strand) (img : Nat) :
    Canonical (s.keepSpilled st img).mem := by
  unfold State.keepSpilled
  split
  · exact hs
  · exact foldl_canonical (fun s _ hs => by split <;> simp [hs]) hs _

@[simp] theorem State.refuseLoad_canonical {s : State} (hs : Canonical s.mem) (f : Flight) (st : Strand) :
    Canonical (s.refuseLoad f st).mem := by
  simp [State.refuseLoad, hs]

@[simp] theorem State.finishLoad_canonical {s : State} (hs : Canonical s.mem) (f : Flight) :
    Canonical (s.finishLoad f).mem := by
  fun_cases State.finishLoad s f
  case case1 | case2 | case3 => simp [hs]
  all_goals
    have ht := State.loadImage_mem _ _ _ _ _ _ ‹s.loadImage _ _ _ = some (_, _)›
    simp +zetaDelta [hs, ht]

@[simp] theorem State.afterFlight_canonical {s : State} (hs : Canonical s.mem) (f : Flight) :
    Canonical (s.afterFlight f).mem := by
  unfold State.afterFlight
  cases f.op <;> simp [hs]

@[simp] theorem State.settleFlight_canonical {s : State} (hs : Canonical s.mem) (f : Flight) :
    Canonical (s.settleFlight f).mem := by
  have hb (l : List Nat) (m : Mask) : Canonical (l.foldl (fun s j => s.writeBack f j m) (s.setFlight f)).mem := by
    simp [hs]
  fun_cases State.settleFlight s f
  · exact hs
  · exact State.afterFlight_canonical (by rw [State.completeFlight_mem]; exact hb _ _) f
  · exact hb _ _

theorem execLocalAccessComplete_canonical {s : State} (hs : Canonical s.mem) (flight : Nat) :
    OutCanonical (execLocalAccessComplete flight s) := by
  simp only [execLocalAccessComplete, outCanonical_next]
  repeat' split
  all_goals simp [hs]

theorem execGangWindowArrival_canonical {s : State} (hs : Canonical s.mem) (flight : Nat) :
    OutCanonical (execGangWindowArrival flight s) := by
  simp only [execGangWindowArrival, outCanonical_next]
  split
  · exact hs
  · split
    · split
      · exact hs
      · split
        · exact State.settleFlight_canonical (by simp [hs]) _
        · exact State.failFlight_canonical (State.settleFlight_canonical (by simp [hs]) _) _ _
    · exact hs

/-! ### Chains of lots -/

@[simp] theorem State.pruneHolders_mem (s : State) (cl : Nat) : (s.pruneHolders cl).mem = s.mem := by
  simp [State.pruneHolders]

@[simp] theorem State.updateCluster_mem (s : State) (cl : Nat) (c : Cluster) : (s.updateCluster cl c).mem = s.mem := by
  simp [State.updateCluster]

theorem execLotMotionEnd_canonical {s : State} (hs : Canonical s.mem) (chain lot : Nat) :
    OutCanonical (execLotMotionEnd chain lot s) := by
  simp only [execLotMotionEnd, outCanonical_next]
  repeat' split
  all_goals simp [hs]

theorem execFrontLanding_canonical {s : State} (hs : Canonical s.mem) (chain sub : Nat) (half : Bool) :
    OutCanonical (execFrontLanding chain sub half s) := by
  simp [execFrontLanding, hs]

theorem execGateLanding_canonical {s : State} (hs : Canonical s.mem) (chain sub : Nat) (cap : Bool) :
    OutCanonical (execGateLanding chain sub cap s) := by
  simp [execGateLanding, hs]

/-! ### The tag pipeline -/

@[simp] theorem State.fireMonitors_mem (s : State) (lot : Nat) : (s.fireMonitors lot).mem = s.mem := by
  simp [State.fireMonitors]

@[simp] theorem State.translateFlight_canonical {s : State} (hs : Canonical s.mem) (f : Flight) :
    Canonical (s.translateFlight f).1.mem := by
  unfold State.translateFlight
  extract_lets
  split
  next t pages spans e =>
  have hq : Canonical t.mem := by
    refine canonical_of_eq_mk ?_ e
    refine foldl_fst_canonical (fun acc p h => ?_) hs _
    dsimp only
    split
    · exact h
    · exact h
    · split
      · exact h
      next t x e => exact State.translate_canonical h _ _ _ _ _ _ e
      next t c d e => exact State.translate_canonical h _ _ _ _ _ _ e
  by_cases hr : f.op.isRun = true
  · rw [if_pos hr]
    extract_lets
    split <;> exact hq
  · rw [if_neg hr]
    exact hq

@[simp] theorem State.freeEntry_mem (s : State) (f : Flight) : (s.freeEntry f).mem = s.mem := by
  simp [State.freeEntry]

theorem execTlbWalkComplete_canonical {s : State} (hs : Canonical s.mem) (flight : Nat) :
    OutCanonical (execTlbWalkComplete flight s) := by
  simp only [execTlbWalkComplete, outCanonical_next]
  split
  · exact hs
  · split
    · exact hs
    · split
      · refine State.settleFlight_canonical ?_ _
        rw [State.freeEntry_mem, foldl_mem (fun s L => by split <;> simp)]
        exact hs
      · split
        · simp [hs]
        · exact State.failFlight_canonical (State.settleFlight_canonical (by simp [hs]) _) _ _

@[simp] theorem State.performReq_canonical {s : State} (hs : Canonical s.mem) (f : Flight) (r : Req) :
    Canonical (s.performReq f r).1.mem := by
  unfold State.performReq
  dsimp only
  generalize e : List.foldl _ _ _ = q
  have hq : Canonical q.1.mem := by
    rw [← e]
    refine foldl_fst_canonical (fun acc L h => ?_) (by split <;> split <;> simp [hs]) _
    repeat' split
    all_goals simp [h]
  split <;> simp [hq]

@[simp] theorem State.readCopy_mem (s : State) (f : Flight) (r : Req) (data : List Byte) :
    (s.readCopy f r data).1.mem = s.mem := by
  simp [State.readCopy]

@[simp] theorem State.dropExpired_mem (s : State) (k lot : Nat) : (s.dropExpired k lot).mem = s.mem := by
  fun_cases State.dropExpired s k lot <;> simp +zetaDelta

@[simp] theorem State.mergeCopy_mem (s : State) (k lot n : Nat) (bs : List (Nat × Byte)) :
    (s.mergeCopy k lot n bs).mem = s.mem := by
  fun_cases State.mergeCopy s k lot n bs <;> simp +zetaDelta

@[simp] theorem State.touchCopy_mem (s : State) (k lot : Nat) (a : Agent) (places stream : Bool) (part : Nat) :
    (s.touchCopy k lot a places stream part).mem = s.mem := by
  simp [State.touchCopy]

@[simp] theorem State.refreshCopy_mem (s : State) (k lot id n : Nat) : (s.refreshCopy k lot id n).mem = s.mem := by
  fun_cases State.refreshCopy s k lot id n <;> simp +zetaDelta

@[simp] theorem State.renewCopy_mem (s : State) (k lot id : Nat) (stop : BitVec 20) :
    (s.renewCopy k lot id stop).mem = s.mem := by
  fun_cases State.renewCopy s k lot id stop <;> simp +zetaDelta

@[simp] theorem State.reclaim_mem (s : State) (k lot : Nat) (w : WriteBack) (core part : Nat) :
    (s.reclaim k lot w core part).mem = s.mem := by
  simp [State.reclaim]

theorem State.serveAt_mem (s : State) (f : Flight) (r : Req) (k : Nat) (place stream : Bool) :
    ∀ t p, s.serveAt f r k place stream = some (t, p) → t.mem = s.mem := by
  fun_cases State.serveAt s f r k place stream <;> simp +zetaDelta

@[simp] theorem State.stampLot_mem (s : State) (f : Flight) (r : Req) (k : Nat) : (s.stampLot f r k).mem = s.mem := by
  fun_cases State.stampLot s f r k <;> simp +zetaDelta

@[simp] theorem State.setPhase_canonical {s : State} (hs : Canonical s.mem) (f : Flight) (r : Req) (p : Phase) :
    Canonical (s.setPhase f r p).mem := by
  simp [State.setPhase, hs]

@[simp] theorem State.passOn_canonical {s : State} (hs : Canonical s.mem) (f : Flight) (r : Req) (k : Nat) :
    Canonical (s.passOn f r k).mem := by
  simp [State.passOn, hs]

@[simp] theorem State.reqDone_canonical {s : State} (hs : Canonical s.mem) (f : Flight) (r : Req) (leased : Bool) :
    Canonical (s.reqDone f r leased).mem := by
  simp [State.reqDone, hs]

@[simp] theorem State.served_canonical {s : State} (hs : Canonical s.mem) (f : Flight) (r : Req) (k : Nat) (p : Phase)
    (bad : Mask) (leased : Bool) :
    Canonical (s.served f r k p bad leased).mem := by
  simp [State.served, hs]

@[simp] theorem State.leaseAt_mem (s : State) (home lot : Nat) (c : BitVec 20) (lease : Nat) (reads writes : Bool) :
    (s.leaseAt home lot c lease reads writes).1.mem = s.mem := by
  fun_cases State.leaseAt s home lot c lease reads writes <;> simp +zetaDelta

@[simp] theorem State.moveLot_mem (s : State) (a b lot : Nat) (l : Option Lot) : (s.moveLot a b lot l).mem = s.mem := by
  simp [State.moveLot]

@[simp] theorem State.predict_mem (s : State) (f : Flight) (home lot : Nat) : (s.predict f home lot).mem = s.mem := by
  fun_cases State.predict s f home lot <;> simp +zetaDelta

@[simp] theorem State.returnLent_mem (s : State) (home lot : Nat) : (s.returnLent home lot).mem = s.mem := by
  fun_cases State.returnLent s home lot <;> simp +zetaDelta

theorem State.enterAt_canonical {s : State} (hs : Canonical s.mem) (f : Flight) (r : Req) (x : Xlat) (k : Nat) :
    Canonical (Sum.elim id Prod.fst (s.enterAt f r x k)).mem := by
  unfold State.enterAt
  split
  · simp [hs]
  · split
    · simp [hs]
    next t e => simp [State.serveAt_mem _ _ _ _ _ _ _ _ e, hs]
    next t p _ e => simp [State.serveAt_mem _ _ _ _ _ _ _ _ e, hs]

@[simp] theorem State.accessAt_canonical {s : State} (hs : Canonical s.mem) (f : Flight) (r : Req) (x : Xlat) (k : Nat)
    :
    Canonical (s.accessAt f r x k).mem := by
  have he := State.enterAt_canonical hs f r x k
  unfold State.accessAt
  split
  next t e => simpa [e] using he
  next t p e =>
    have ht : Canonical t.mem := by simpa [e] using he
    simp [ht]

@[simp] theorem State.slotPrivate_canonical {s : State} (hs : Canonical s.mem) (f : Flight) (r : Req) (x : Xlat) :
    Canonical (s.slotPrivate f r x).mem := by
  fun_cases State.slotPrivate s f r x <;> simp +zetaDelta [hs]

@[simp] theorem State.slotCoherent_canonical {s : State} (hs : Canonical s.mem) (f : Flight) (r : Req) (x : Xlat) :
    Canonical (s.slotCoherent f r x).mem := by
  have he := State.enterAt_canonical hs f r x (s.homeOf f.agent.tract (256 * r.lot) 256)
  unfold State.slotCoherent
  dsimp only
  split
  · simp [hs]
  · split
    · simp [hs]
    · split
      next t e => simpa [e] using he
      · simp [hs]

@[simp] theorem State.homeLeased_canonical {s : State} (hs : Canonical s.mem) (f : Flight) (r : Req) (x : Xlat)
    (home : Nat) :
    Canonical (s.homeLeased f r x home).mem := by
  have he := State.enterAt_canonical hs f r x home
  unfold State.homeLeased
  split
  next t e => simpa [e] using he
  next t p e =>
    have ht : Canonical t.mem := by simpa [e] using he
    simp [ht]

@[simp] theorem State.missCopy_canonical {s : State} (hs : Canonical s.mem) (f : Flight) (r : Req) (k : Nat)
    (stream : Bool) (p : Phase) :
    Canonical (s.missCopy f r k stream p).mem := by
  fun_cases State.missCopy s f r k stream p <;> simp +zetaDelta [hs]

@[simp] theorem State.slotLeased_canonical {s : State} (hs : Canonical s.mem) (f : Flight) (r : Req) (x : Xlat) :
    Canonical (s.slotLeased f r x).mem := by
  fun_cases State.slotLeased s f r x <;>
    grind [State.homeLeased_canonical, State.dropExpired_mem, State.settleFlight_canonical, State.served_canonical,
      State.touchCopy_mem, State.mergeCopy_mem, State.missCopy_canonical, State.readCopy_mem, State.setCluster_mem]

@[simp] theorem State.lotEnd_canonical {s : State} (hs : Canonical s.mem) (f : Flight) (r : Req) (k : Nat) :
    Canonical (s.lotEnd f r k).mem := by
  simp [State.lotEnd, hs]

@[simp] theorem State.lotFail_canonical {s : State} (hs : Canonical s.mem) (f : Flight) (r : Req) (c : Cause) :
    Canonical (s.lotFail f r c).mem := by
  simp [State.lotFail, hs]

@[simp] theorem State.pinMiss_canonical {s : State} (hs : Canonical s.mem) (f : Flight) (r : Req) (x : Xlat) (k : Nat) :
    Canonical (s.pinMiss f r x k).mem := by
  fun_cases State.pinMiss s f r x k <;>
    grind [State.missCopy_canonical, State.serveAt_mem, State.settleFlight_canonical]

@[simp] theorem State.lotAt_canonical {s : State} (hs : Canonical s.mem) (f : Flight) (r : Req) (x : Xlat) (k : Nat)
    (l : Lot) :
    Canonical (s.lotAt f r x k l).mem := by
  fun_cases State.lotAt s f r x k l <;> simp +zetaDelta [hs]

@[simp] theorem State.slotLot_canonical {s : State} (hs : Canonical s.mem) (f : Flight) (r : Req) (x : Xlat) :
    Canonical (s.slotLot f r x).mem := by
  fun_cases State.slotLot s f r x <;> simp +zetaDelta [hs]

@[simp] theorem State.slotMon_canonical {s : State} (hs : Canonical s.mem) (f : Flight) (r : Req) (x : Xlat) :
    Canonical (s.slotMon f r x).mem := by
  simp [State.slotMon, hs]

@[simp] theorem State.loseStore_mem (s : State) (p : PeerStore) : (s.loseStore p).mem = s.mem := by
  simp [State.loseStore]

@[simp] theorem State.slotPeer_canonical {s : State} (hs : Canonical s.mem) (f : Flight) (r : Req) :
    Canonical (s.slotPeer f r).mem := by
  unfold State.slotPeer
  cases f.op <;> simp [hs]

@[simp] theorem State.lookup_mem (s : State) (f : Flight) (r : Req) : (s.lookup f r).mem = s.mem := by
  simp [State.lookup]

@[simp] theorem State.landed_canonical {s : State} (hs : Canonical s.mem) (f : Flight) (r : Req) :
    Canonical (s.landed f r).mem := by
  fun_cases State.landed s f r <;> simp +zetaDelta [hs]

@[simp] theorem State.slotOn_canonical {s : State} (hs : Canonical s.mem) (f : Flight) (r : Req) (x : Xlat) :
    Canonical (s.slotOn f r x).mem := by
  fun_cases State.slotOn s f r x <;> simp +zetaDelta [hs]

theorem execTagSlot_canonical {s : State} (hs : Canonical s.mem) (flight lot : Nat) :
    OutCanonical (execTagSlot flight lot s) := by
  simp only [execTagSlot, outCanonical_next]
  repeat' split
  all_goals simp [hs]

@[simp] theorem State.fillCopy_mem (s : State) (f : Flight) (r : Req) (chain lot : Nat) :
    (s.fillCopy f r chain lot).1.mem = s.mem := by
  fun_cases State.fillCopy s f r chain lot <;>
    grind [State.setCluster_mem, State.serveAt_mem, State.setFlight_mem, State.leaseAt_mem, State.raiseClock_mem]

theorem execMissFillArrival_canonical {s : State} (hs : Canonical s.mem) (chain lot : Nat) :
    OutCanonical (execMissFillArrival chain lot s) := by
  simp only [execMissFillArrival, outCanonical_next]
  split
  · exact hs
  next l _ =>
    split
    · split
      · exact foldl_canonical (fun s _ hs => by split <;> simp [hs]) (by simpa using hs) _
      next y _ =>
        split
        · simpa using hs
        next f r _ =>
          have hf := State.fillCopy_mem s f r chain lot
          split
          · simp_all
          next t stop clock data e =>
            have ht : Canonical t.mem := by simp_all
            refine foldl_canonical (fun s w hs => ?_) (by simpa using ht) _
            split
            · split <;> simp [hs]
            · exact hs
    · exact hs

theorem execMissRetry_canonical {s : State} (hs : Canonical s.mem) (flight lot : Nat) :
    OutCanonical (execMissRetry flight lot s) := by
  simp only [execMissRetry, outCanonical_next]
  repeat' split
  all_goals simp [hs]

@[simp] theorem State.acknowledged_canonical {s : State} (hs : Canonical s.mem) (f : Flight) (r : Req) :
    Canonical (s.acknowledged f r).mem := by
  fun_cases State.acknowledged s f r <;> simp +zetaDelta [hs]

theorem execWriteAcknowledge_canonical {s : State} (hs : Canonical s.mem) (chain lot : Nat) :
    OutCanonical (execWriteAcknowledge chain lot s) := by
  have hf (p : Req → Bool) (s : State) (w : Nat × Req) (hs : Canonical s.mem) : Canonical (match s.flight w.1 with
      | some f => if p w.2 then s.acknowledged f w.2 else s
      | none => s).mem := by
    split
    · split <;> simp [hs]
    · exact hs
  simp only [execWriteAcknowledge, outCanonical_next]
  split
  · split
    · simp [hs]
    · refine foldl_canonical (hf fun r => r.wb != 0) ?_ _
      simp [hs]
  · exact foldl_canonical (hf fun _ => true) hs _

theorem execRemoteReplyArrival_canonical {s : State} (hs : Canonical s.mem) (flight lot : Nat) :
    OutCanonical (execRemoteReplyArrival flight lot s) := by
  simp only [execRemoteReplyArrival, outCanonical_next]
  repeat' split
  all_goals simp [hs]

theorem execBypassLoadDelivery_canonical {s : State} (hs : Canonical s.mem) (flight lot : Nat) :
    OutCanonical (execBypassLoadDelivery flight lot s) := by
  simp only [execBypassLoadDelivery, outCanonical_next]
  repeat' split
  all_goals simp [hs]

theorem execLotRecall_canonical {s : State} (hs : Canonical s.mem) (chain lot : Nat) :
    OutCanonical (execLotRecall chain lot s) := by
  simp [execLotRecall, hs]

theorem execPinRelease_canonical {s : State} (hs : Canonical s.mem) (tag : Nat) :
    OutCanonical (execPinRelease tag s) := by
  simp [execPinRelease, hs]

theorem execAtomscTicket_canonical {s : State} (hs : Canonical s.mem) (flight : Nat) :
    OutCanonical (execAtomscTicket flight s) := by
  simp only [execAtomscTicket, outCanonical_next]
  split <;> simp [hs]

theorem execPromotionRequest_canonical {s : State} (hs : Canonical s.mem) (flight core : Nat) :
    OutCanonical (execPromotionRequest flight core s) := by
  simp only [execPromotionRequest, outCanonical_next]
  split <;> simp [hs]

theorem execPromotionAnswer_canonical {s : State} (hs : Canonical s.mem) (flight : Nat) :
    OutCanonical (execPromotionAnswer flight s) := by
  simp only [execPromotionAnswer, outCanonical_next]
  split <;> simp [hs]

/-! ### Translation of an access -/

theorem execTlbinv_canonical {s : State} (hs : Canonical s.mem) (k : BitVec 4) (a b : BitVec 8) :
    OutCanonical (execTlbinv k a b s) := by
  refine strandWord_canonical hs fun c hc => ?_
  repeat' split
  all_goals simp [hc]

@[simp] theorem State.loseMonitors_mem (s : State) (frames : List Nat) : (s.loseMonitors frames).mem = s.mem := by
  simp [State.loseMonitors]

@[simp] theorem State.invalidate_mem (s : State) (q : Inval) : (s.invalidate q).mem = s.mem := by
  simp [State.invalidate]

theorem execTlbinvComplete_canonical {s : State} (hs : Canonical s.mem) (flight : Nat) :
    OutCanonical (execTlbinvComplete flight s) := by
  simp only [execTlbinvComplete, outCanonical_next]
  repeat' split
  all_goals simp [hs]

@[simp] theorem State.recallFor_mem (s : State) (lot : Nat) : (s.recallFor lot).mem = s.mem := by
  fun_cases State.recallFor s lot <;> simp +zetaDelta

@[simp] theorem State.outsideStamp_mem (s : State) (lot : Nat) : (s.outsideStamp lot).mem = s.mem := by
  simp [State.outsideStamp]

@[simp] theorem State.hubStamp_mem (s : State) (tract : Nat) (x : Xlat) (lot : Nat) :
    (s.hubStamp tract x lot).mem = s.mem := by
  fun_cases State.hubStamp s tract x lot <;> simp +zetaDelta

@[simp] theorem State.hubWrite_canonical {s : State} (hs : Canonical s.mem) (sp : Space) (va : Nat) (bs : List Byte) :
    Canonical (s.hubWrite sp va bs).mem := by
  refine foldl_canonical (fun s p hs => ?_) hs _
  split
  next t x e =>
    have ht := State.translateOutside_canonical hs _ _ _ _ _ e
    dsimp only
    split
    · exact foldl_canonical (fun s lot hs => by split <;> simp [hs]) (by simp [ht]) _
    · exact ht
  next t _ _ e => exact State.translateOutside_canonical hs _ _ _ _ _ e
  · exact hs

@[simp] theorem State.flushLate_canonical {s : State} (hs : Canonical s.mem) : Canonical s.flushLate.mem :=
  foldl_canonical (fun s w hs => by split <;> simp [hs]) (by exact hs) _

@[simp] theorem State.cleanPage_mem (s : State) (parts : List (Nat × Nat)) : (s.cleanPage parts).mem = s.mem := by
  simp [State.cleanPage]

theorem execScannerJob_canonical {s : State} (hs : Canonical s.mem) (tract : Nat) :
    OutCanonical (execScannerJob tract s) := by
  simp only [execScannerJob, outCanonical_next]
  split
  · exact hs
  · have hw (at_ n v) : Canonical ((s.writeN at_ n v).flushLate).mem := by simp [hs]
    split
    · exact hw _ _ _
    · split
      · exact hw _ _ _
      · exact hw _ _ _
      · split
        · exact hw _ _ _
        · exact hw _ _ _
        · split
          · exact hw _ _ _
          · split
            · rw [foldl_mem (by simp), foldl_mem (by simp)]
              exact State.writeN_canonical (hw _ _ _) _ _ _
            · rw [State.cleanPage_mem, foldl_mem (by simp), foldl_mem (by simp)]
              exact State.writeN_canonical (hw _ _ _) _ _ _

@[simp] theorem State.endHeld_canonical {s : State} (hs : Canonical s.mem) (j : ScanJob) (clear : DWord) :
    Canonical (s.endHeld j clear).mem := by
  simp [State.endHeld, hs]

theorem execScannerFlashDone_canonical {s : State} (hs : Canonical s.mem) (job : Nat) :
    OutCanonical (execScannerFlashDone job s) := by
  simp only [execScannerFlashDone, outCanonical_next]
  split <;> simp [hs]

theorem execScannerFlashFail_canonical {t : State} (ht : Canonical t.mem) (job : Nat) :
    OutCanonical (execScannerFlashFail job t) := by
  simp only [execScannerFlashFail, outCanonical_next]
  split
  · exact ht
  · split
    · exact ht
    · exact State.unlessFull_canonical ht (by simp [ht])

@[simp] theorem State.storedOutside_mem (s : State) (lot : Nat) : (s.storedOutside lot).mem = s.mem := by
  simp [State.storedOutside]

@[simp] theorem State.outside_canonical {s : State} (hs : Canonical s.mem) (agent pa : Nat) (write : Option (BitVec 64))
    :
    Canonical (s.outside agent pa write).mem := by
  fun_cases State.outside s agent pa write <;> simp +zetaDelta [hs]

@[simp] theorem State.refuseOutside_mem (s : State) (agent : Nat) : (s.refuseOutside agent).mem = s.mem := by
  simp [State.refuseOutside]

theorem execPeerAccess_canonical {s : State} (hs : Canonical s.mem) (peer addr : Nat) (write : Option (BitVec 64))
    (_release : Bool) :
    OutCanonical (execPeerAccess peer addr write _release s) := by
  simp [execPeerAccess, hs]

theorem execLogicalClockTick_canonical {s : State} (hs : Canonical s.mem) (cluster : Nat) :
    OutCanonical (execLogicalClockTick cluster s) := by
  simp [execLogicalClockTick, hs]

@[simp] theorem State.liftCores_mem (s : State) (cluster : Nat) (clock : BitVec 20) :
    (s.liftCores cluster clock).mem = s.mem := by
  simp [State.liftCores]

theorem execLeaseSweep_canonical {s : State} (hs : Canonical s.mem) (cluster : Nat) :
    OutCanonical (execLeaseSweep cluster s) := by
  simp [execLeaseSweep, hs]

/-! ### Engines -/

@[simp] theorem State.engineAt_mem (s : State) (a : Agent) (x : Xlat) (k lot : Nat) (store : Bool) :
    (s.engineAt a x k lot store).mem = s.mem := by
  fun_cases State.engineAt s a x k lot store <;> grind [State.setCluster_mem, State.reclaim_mem]

@[simp] theorem State.engineLooks_mem (s : State) (a : Agent) (x : Xlat) (lot : Nat) (store : Bool) :
    (s.engineLooks a x lot store).mem = s.mem := by
  simp [State.engineLooks]

@[simp] theorem State.engineHome_mem (s : State) (a : Agent) (lot : Nat) : (s.engineHome a lot).1.mem = s.mem := by
  fun_cases State.engineHome s a lot <;> simp +zetaDelta

@[simp] theorem State.engineLoad_mem (s : State) (a : Agent) (x : Xlat) (lot : Nat) :
    (s.engineLoad a x lot).1.mem = s.mem := by
  fun_cases State.engineLoad s a x lot <;>
    grind [State.engineAt_mem, State.dropExpired_mem, State.leaseAt_mem, State.raiseClock_mem, State.setCluster_mem,
      State.engineHome_mem]

@[simp] theorem State.engineStore_canonical {s : State} (hs : Canonical s.mem) (a : Agent) (x : Xlat) (lot : Nat)
    (bs : List (Nat × Byte)) :
    Canonical (s.engineStore a x lot bs).mem := by
  unfold State.engineStore
  split <;> simp [hs]

@[simp] theorem State.engineRead_mem (s : State) (a : Agent) (x : Xlat) (as : List Nat) :
    (s.engineRead a x as).1.mem = s.mem := by
  unfold State.engineRead
  have hc := State.consume_mem s a.core ((s.block a.block).map Block.domSlot) as
  split
  · simp_all
  next t e =>
    have ht : t.mem = s.mem := by simp_all
    simp [ht]

@[simp] theorem State.engineWrite_canonical {s : State} (hs : Canonical s.mem) (a : Agent) (x : Xlat)
    (bs : List (Nat × Byte)) :
    Canonical (s.engineWrite a x bs).mem :=
  foldl_canonical (fun s _ hs => by simp [hs]) (by simpa using hs) _

/-! ### The copy engine -/

@[simp] theorem State.side_canonical {s : State} (hs : Canonical s.mem) (bk : Nat) (b : Block) (a : Agent) (h : Shape)
    (n len : Nat) (write : Bool) :
    Canonical (s.side bk b a h n len write).1.mem := by
  fun_cases State.side s bk b a h n len write <;> grind [State.translate_canonical]

@[simp] theorem State.nearBytes_mem (s : State) (p : Spot) (z : Nat) : (s.nearBytes p z).1.mem = s.mem := by
  unfold State.nearBytes
  dsimp only
  repeat' split
  all_goals simp

@[simp] theorem State.readSide_mem (s : State) (a : Agent) (l : List Spot) (x : Option Xlat) (z : Nat) :
    (s.readSide a l x z).1.mem = s.mem := by
  unfold State.readSide
  dsimp only
  split
  · split
    next e => exact (congrArg (·.1.mem) e).symm.trans (State.engineRead_mem _ _ _ _)
    next e => exact (congrArg (·.1.mem) e).symm.trans (State.engineRead_mem _ _ _ _)
  · refine List.foldlRecOn (motive := fun acc : State × Option (List Byte) => acc.1.mem = s.mem) _ _ rfl fun acc h p _ => ?_
    split
    · exact h
    next t out =>
      have hn := State.nearBytes_mem t p z
      split <;> simp_all

@[simp] theorem State.writeSide_canonical {s : State} (hs : Canonical s.mem) (a : Agent) (l : List Spot)
    (x : Option Xlat) (z : Nat) (data : List Byte) :
    Canonical (s.writeSide a l x z data).mem := by
  unfold State.writeSide
  split <;> simp [hs]

@[simp] theorem State.modCopy_mem (s : State) (bk : Nat) (f : CopyCtx → CopyCtx) : (s.modCopy bk f).mem = s.mem := by
  simp [State.modCopy]

@[simp] theorem State.peerWrites_mem (s : State) (bk : Nat) (r : CopyReq) (l : List Spot) :
    (s.peerWrites bk r l).mem = s.mem := by
  simp [State.peerWrites]

@[simp] theorem State.settleCopy_mem (s : State) (bk : Nat) (n : DWord) : (s.settleCopy bk n).mem = s.mem := by
  fun_cases State.settleCopy s bk n <;> simp +zetaDelta

@[simp] theorem State.setSeg_mem (s : State) (bk : Nat) (n : DWord) (i : Nat) (g : SegState) :
    (s.setSeg bk n i g).mem = s.mem := by
  simp [State.setSeg]

@[simp] theorem State.feed_mem (s : State) (bk : Nat) (n : DWord) (first z : Nat) (data : Option (List Byte)) :
    (s.feed bk n first z data).mem = s.mem := by
  simp [State.feed]

@[simp] theorem State.noteTurn_mem (s : State) (bk : Nat) (r : CopyReq) (t : EngineTurn) :
    (s.noteTurn bk r t).mem = s.mem := by
  fun_cases State.noteTurn s bk r t <;> simp +zetaDelta

@[simp] theorem State.attempt_canonical {s : State} (hs : Canonical s.mem) (bk : Nat) (b : Block) (r : CopyReq)
    (i : Nat) :
    Canonical (s.attempt bk b r i).1.mem := by
  fun_cases State.attempt s bk b r i <;>
    grind [State.feed_mem, State.side_canonical, State.noteTurn_mem, State.readSide_mem, State.peerWrites_mem,
      State.writeSide_canonical]

theorem execCopySegment_canonical {s : State} (hs : Canonical s.mem) (block request segment : Nat) :
    OutCanonical (execCopySegment block request segment s) := by
  simp only [execCopySegment, outCanonical_next]
  repeat' split
  all_goals simp [hs]

@[simp] theorem State.postCopyFault_canonical {s : State} (hs : Canonical s.mem) (r : CopyReq) (c : Cause) (dst : Bool)
    (addr : DWord) :
    Canonical (s.postCopyFault r c dst addr).mem := by
  simp [State.postCopyFault, hs]

@[simp] theorem State.replayFix_canonical {s : State} (hs : Canonical s.mem) (bk : Nat) (n : DWord) (i : Nat) :
    Canonical (s.replayFix bk n i).mem := by
  fun_cases State.replayFix s bk n i <;>
    grind [State.attempt_canonical, State.setSeg_mem, State.postCopyFault_canonical]

@[simp] theorem State.endFixqs_mem (s : State) : s.endFixqs.mem = s.mem := by
  simp [State.endFixqs]

theorem execFixupReplay_canonical {s : State} (hs : Canonical s.mem) (block request : Nat) :
    OutCanonical (execFixupReplay block request s) := by
  simp only [execFixupReplay, outCanonical_next, State.endFixqs_mem]
  split
  · exact hs
  · split
    · exact hs
    next r _ =>
      split
      · exact hs
      · have hf (l : List Nat) : Canonical (l.foldl (fun s i => s.replayFix block r.n i) s).mem :=
          foldl_canonical (fun s _ hs => by simp [hs]) hs _
        simp [hs, hf]

theorem execScannerHoldRetry_canonical {s : State} (hs : Canonical s.mem) (block request segment : Nat) :
    OutCanonical (execScannerHoldRetry block request segment s) := by
  simp only [execScannerHoldRetry, outCanonical_next]
  repeat' split
  all_goals simp [hs]

@[simp] theorem State.depositLive_canonical {s : State} (hs : Canonical s.mem) (d : Deposit) (k : Nat) (b : Block)
    (a : Agent) :
    Canonical (s.depositLive d k b a).mem := by
  unfold State.depositLive
  simp only [State.modCopy_mem]
  exact foldl_canonical (fun s _ hs => by simp [hs]) hs _

@[simp] theorem State.depositSaved_canonical {s : State} (hs : Canonical s.mem) (d : Deposit) (g : Gang) (i : Nat)
    (b : Block) :
    Canonical (s.depositSaved d g i b).mem := by
  unfold State.depositSaved
  dsimp only
  refine foldl_canonical (fun s p hs => foldl_canonical (fun s j hs => ?_) hs _) hs _
  split <;> simp [hs]

@[simp] theorem State.dropDeposit_mem (s : State) (d : Deposit) : (s.dropDeposit d).mem = s.mem := by
  simp [State.dropDeposit]

@[simp] theorem State.deliverDeposit_canonical {s : State} (hs : Canonical s.mem) (d : Deposit) (a : Agent) :
    Canonical (s.deliverDeposit d a).mem := by
  fun_cases State.deliverDeposit s d a <;> simp +zetaDelta [hs]

theorem execMulticastDeposit_canonical {s : State} (hs : Canonical s.mem) (deposit : Nat) :
    OutCanonical (execMulticastDeposit deposit s) := by
  simp only [execMulticastDeposit, outCanonical_next]
  split <;> simp [hs]

@[simp] theorem State.adoptDeposits_canonical {s : State} (hs : Canonical s.mem) (k : Nat) :
    Canonical (s.adoptDeposits k).mem := by
  unfold State.adoptDeposits
  split
  · exact hs
  · exact foldl_canonical (fun s _ hs => by simp [hs]) (by simpa using hs) _

@[simp] theorem State.ringWrite_canonical {s : State} (hs : Canonical s.mem) (b : Block) (q : Nat) (n : DWord) :
    Canonical (s.ringWrite b q n).1.mem := by
  fun_cases State.ringWrite s b q n
  · exact hs
  · exact foldl_canonical (fun s _ hs => by simp [hs]) hs _

@[simp] theorem State.reserveMember_mem (s : State) (bk : Nat) (b : Block) (r : CopyReq) (m : Nat) :
    (s.reserveMember bk b r m).mem = s.mem := by
  fun_cases State.reserveMember s bk b r m <;> simp +zetaDelta

@[simp] theorem Ctx.submitCopy_canonical {c : Ctx} (hc : Canonical c.s.mem) (d : BitVec 8) (t sr : BitVec 4)
    (group : Option Nat) :
    Canonical (c.submitCopy d t sr group).mem := by
  have hr {p : Prop} [Decidable p] {b q n t} (e : (if p then c.s.ringWrite b q n else (c.s, none)) = (t, none)) :
      Canonical t.mem := by
    split at e
    · exact canonical_of_eq_mk (State.ringWrite_canonical hc b q n) e
    · exact canonical_of_eq_mk hc e
  fun_cases Ctx.submitCopy c d t sr group
  case case8 e _ _ _ _ _ _ => simp +zetaDelta [hr e]
  all_goals simp [hc]

theorem execPromiseDue_canonical {s : State} (hs : Canonical s.mem) (strand : Nat) (slot : Bool) :
    OutCanonical (execPromiseDue strand slot s) := by
  simp only [execPromiseDue, outCanonical_next]
  repeat' split
  all_goals simp [hs]

@[simp] theorem State.fixq_canonical {s : State} (hs : Canonical s.mem) (fail : Bool) (addr tag : Nat) :
    Canonical (s.fixq fail addr tag).mem := by
  refine foldl_canonical (fun s bk hs => ?_) hs _
  split
  · exact hs
  next b _ =>
    refine foldl_canonical (fun s r hs => ?_) hs _
    simp only [State.settleCopy_mem]
    refine foldl_canonical (fun s i hs => ?_) hs _
    split
    · split
      · split <;> simp [hs]
      · exact hs
    · simp [hs]

@[simp] theorem State.fixqSaved_mem (s : State) (fail : Bool) (addr tag : Nat) :
    (s.fixqSaved fail addr tag).mem = s.mem := by
  unfold State.fixqSaved
  dsimp only
  split
  · refine foldl_mem (fun s g => foldl_mem (fun s b => foldl_mem (fun s r => ?_) _ _) _ _) _ _
    split <;> simp
  · rfl

@[simp] theorem Ctx.fixqWord_canonical {c : Ctx} (hc : Canonical c.s.mem) (fail : Bool) (a b : BitVec 8) :
    Canonical (c.fixqWord fail a b).mem := by
  fun_cases Ctx.fixqWord c fail a b <;> simp +zetaDelta [hc]

@[simp] theorem State.endPeerStore_mem (s : State) (p : PeerStore) : (s.endPeerStore p).mem = s.mem := by
  fun_cases State.endPeerStore s p <;> simp +zetaDelta

theorem execPeerGone_canonical {s : State} (hs : Canonical s.mem) (tract peer : Nat) :
    OutCanonical (execPeerGone tract peer s) := by
  simp [execPeerGone, hs]

theorem execPeerStoreAck_canonical {s : State} (hs : Canonical s.mem) (store : Nat) :
    OutCanonical (execPeerStoreAck store s) := by
  simp [execPeerStoreAck, hs]

/-! ### Sequencers -/

@[simp] theorem State.modSeq_mem (s : State) (bk : Nat) (f : Seq → Seq) : (s.modSeq bk f).mem = s.mem := by
  simp [State.modSeq]

@[simp] theorem State.raiseSeq_canonical {s : State} (hs : Canonical s.mem) (bk sid : Nat) (c : Cause) (addr : DWord)
    (d : Detail) :
    Canonical (s.raiseSeq bk sid c addr d).mem := by
  fun_cases State.raiseSeq s bk sid c addr d <;> simp +zetaDelta [hs]

@[simp] theorem State.haltSeq_canonical {s : State} (hs : Canonical s.mem) (bk : Nat) (r : Stream) (n : Nat) :
    Canonical (s.haltSeq bk r n).mem := by
  simp [State.haltSeq, hs]

@[simp] theorem SeqCtx.halt_canonical {c : SeqCtx} (hc : Canonical c.s.mem) (n : Nat) : Canonical (c.halt n).mem := by
  simp [SeqCtx.halt, hc]

@[simp] theorem SeqCtx.finish_mem (c : SeqCtx) (s : State) (r : Stream) : (c.finish s r).mem = s.mem := by
  simp [SeqCtx.finish]

@[simp] theorem SeqCtx.next_mem (c : SeqCtx) (r : Stream) : (c.next r).mem = c.s.mem := by
  simp [SeqCtx.next]

@[simp] theorem State.seqArrival_mem (s : State) (bk k : Nat) : (s.seqArrival bk k).mem = s.mem := by
  fun_cases State.seqArrival s bk k <;> simp +zetaDelta

@[simp] theorem State.countUnit_mem (s : State) (core slot : Nat) (us : List Report) (fixed : Nat × Nat) :
    (s.countUnit core slot us fixed).mem = s.mem := by
  simp [State.countUnit]

theorem seqWord_canonical {s : State} (hs : Canonical s.mem) {i : Instr} {body : SeqCtx → State}
    (hb : ∀ c, Canonical c.s.mem → Canonical (body c).mem) : OutCanonical (seqWord i body s) := by
  simp only [seqWord, outCanonical_next]
  split
  · exact hs
  next b _ =>
    split
    · exact hs
    next r _ =>
      have hc := hb ⟨s, s.cur, b, r⟩ hs
      simp [hs, hc]

@[simp] theorem SeqCtx.operate_mem (c : SeqCtx) (e : BitVec 1) (bar : BitVec 4) (acc pos total : Nat)
    (count : Stream → Nat → Stream) (unit : Unit_) :
    (c.operate e bar acc pos total count unit).mem = c.s.mem := by
  simp [SeqCtx.operate]

@[simp] theorem SeqCtx.checked_canonical {c : SeqCtx} (hc : Canonical c.s.mem) (l : List (Bool × Nat)) {body : State}
    (hb : Canonical body.mem) : Canonical (c.checked l body).mem := by
  unfold SeqCtx.checked
  split <;> simp [hc, hb]

theorem execMendl_canonical {s : State} (hs : Canonical s.mem) : OutCanonical (execMendl s) := by
  refine seqWord_canonical hs fun c hc => ?_
  split
  · simp [hc]
  · split <;> simp [hc]

theorem execMstop_canonical {s : State} (hs : Canonical s.mem) : OutCanonical (execMstop s) :=
  seqWord_canonical hs fun c hc => by simp [hc]

theorem execArraySlotGrant_canonical {s : State} (hs : Canonical s.mem) (core : Nat) :
    OutCanonical (execArraySlotGrant core s) := by
  simp [execArraySlotGrant, hs]

theorem execSeqStreamStart_canonical {s : State} (hs : Canonical s.mem) (block : Nat) :
    OutCanonical (execSeqStreamStart block s) := by
  simp only [execSeqStreamStart, outCanonical_next]
  repeat' split
  all_goals simp [hs]

theorem execSeqFetch_canonical {s : State} (hs : Canonical s.mem) (block : Nat) :
    OutCanonical (execSeqFetch block s) := by
  simp only [execSeqFetch, outCanonical_next]
  split
  · exact hs
  · split
    · simp [hs]
    · exact hs
    next r _ _ =>
      split
      · exact hs
      · split
        · simp [hs]
        · have hf := State.fetchWord_canonical hs r.agent r.spc
          split
          · simp_all
          · split <;> simp_all

theorem execMwbTimeout_canonical {s : State} (hs : Canonical s.mem) (block : Nat) :
    OutCanonical (execMwbTimeout block s) := by
  simp only [execMwbTimeout, outCanonical_next]
  repeat' split
  all_goals simp [hs]

theorem Ctx.seqAddr_canonical {c : Ctx} (hc : Canonical c.s.mem) (a : BitVec 8) (align : Nat) {body : Nat → State}
    (hb : ∀ x, Canonical (body x).mem) : Canonical (c.seqAddr a align body).mem := by
  unfold Ctx.seqAddr
  split <;> simp [hc, hb]

theorem execMgo_canonical {s : State} (hs : Canonical s.mem) (d a b : BitVec 8) : OutCanonical (execMgo d a b s) := by
  refine strandWord_canonical hs fun c hc => Ctx.seqAddr_canonical hc _ _ fun x => ?_
  split
  · exact hc
  · split <;> simp [hc]

@[simp] theorem Ctx.flyImage_canonical {c : Ctx} {s : State} (hs : Canonical s.mem) (op : FlightOp) (x : Ask)
    (image : Nat) (st : Strand) :
    Canonical (c.flyImage s op x image st).mem := by
  fun_cases Ctx.flyImage c s op x image st <;> grind [Ctx.fly_mem, State.setStrand_mem, State.raiseFrom_canonical]

theorem execMres_canonical {s : State} (hs : Canonical s.mem) (d a : BitVec 8) : OutCanonical (execMres d a s) := by
  refine strandWord_canonical hs fun c hc => Ctx.seqAddr_canonical hc _ _ fun x => ?_
  split
  · split <;> simp [hc]
  · exact hc

theorem execMabort_canonical {s : State} (hs : Canonical s.mem) (d a : BitVec 8) : OutCanonical (execMabort d a s) := by
  refine strandWord_canonical hs fun c hc => Ctx.seqAddr_canonical hc _ _ fun x => ?_
  split
  · extract_lets q
    split <;> simp [hc]
  · exact hc

/-! ### Stochastic units -/

@[simp] theorem Ctx.stochastic_canonical {c : Ctx} (hc : Canonical c.s.mem) (x : ZAsk) :
    Canonical (c.stochastic x).mem := by
  fun_cases Ctx.stochastic c x <;> simp +zetaDelta [hc]

@[simp] theorem State.modStoch_mem (s : State) (bk : Nat) (f : Stoch → Stoch) : (s.modStoch bk f).mem = s.mem := by
  simp [State.modStoch]

@[simp] theorem State.checkStreams_mem (s : State) (block : Nat) (b : Block) :
    (s.checkStreams block b).1.mem = s.mem := by
  fun_cases State.checkStreams s block b <;> simp +zetaDelta

@[simp] theorem State.grantStoch_mem (s : State) (core : Nat) : (s.grantStoch core).mem = s.mem := by
  simp [State.grantStoch]

theorem execStochasticSlotGrant_canonical {s : State} (hs : Canonical s.mem) (core : Nat) :
    OutCanonical (execStochasticSlotGrant core s) := by
  simp [execStochasticSlotGrant, hs]

@[simp] theorem State.raiseDue_canonical {s : State} (hs : Canonical s.mem) (sid : Nat) :
    Canonical (s.raiseDue sid).mem := by
  fun_cases State.raiseDue s sid <;> simp +zetaDelta [hs]

theorem execStochasticRequestComplete_canonical {s : State} (hs : Canonical s.mem) (block : Nat) :
    OutCanonical (execStochasticRequestComplete block s) := by
  unfold execStochasticRequestComplete
  refine (outCanonical_next _).mpr ?_
  split
  · exact hs
  · split
    · exact hs
    next q0 _ =>
      split
      · exact hs
      · split
        · simp [hs]
        · split
          all_goals
            dsimp only
            split
            · simp [hs]
            · split
              · simp [hs]
              · split
                · split <;> simp [hs]
                · split <;> simp [hs]

/-! ### Domains and gates -/

@[simp] theorem State.setRegister_mem (s : State) (x : Setting) : (s.setRegister x).mem = s.mem := by
  fun_cases State.setRegister s x <;> simp +zetaDelta

@[simp] theorem Ctx.dpset_canonical {c : Ctx} (hc : Canonical c.s.mem) (kind : Nat) (t a : BitVec 8) (index n : Nat) :
    Canonical (c.dpset kind t a index n).mem := by
  fun_cases Ctx.dpset c kind t a index n <;> simp [hc]

@[simp] theorem State.flushLot_mem (s : State) (k lot : Nat) : (s.flushLot k lot).mem = s.mem := by
  simp [State.flushLot]

theorem execDpsetEffect_canonical {s : State} (hs : Canonical s.mem) (setting : Nat) :
    OutCanonical (execDpsetEffect setting s) := by
  simp only [execDpsetEffect, outCanonical_next]
  split <;> simp [hs]

theorem Ctx.oneTarget_canonical {c : Ctx} (hc : Canonical c.s.mem) (t : DWord) {body : State → State}
    (hb : ∀ s, Canonical s.mem → Canonical (body s).mem) : Canonical (c.oneTarget t body).mem :=
  Ctx.checkedTargets_canonical hc _ _ hb

theorem execGcall_canonical {s : State} (hs : Canonical s.mem) (a : BitVec 8) : OutCanonical (execGcall a s) := by
  refine strandWord_canonical hs fun c hc => ?_
  have hk (core slot pas) : Canonical (c.s.consume core slot pas).1.mem := by simp [hc]
  dsimp only
  split
  · simp [hc]
  · split
    · simp [hc]
    · split
      next e => simp [canonical_of_eq_mk (hk _ _ _) e]
      next t e =>
        have ht := canonical_of_eq_mk (hk _ _ _) e
        split
        · simp [ht]
        · exact Ctx.oneTarget_canonical (c := { c with s := t }) ht _ fun s hs => by simp [hs]

theorem execGret_canonical {s : State} (hs : Canonical s.mem) : OutCanonical (execGret s) := by
  refine strandWord_canonical hs fun c hc => ?_
  split
  · exact Ctx.oneTarget_canonical hc _ fun s hs => by simp [hs]
  · simp [hc]

/-! ### Traps and services -/

@[simp] theorem State.appendService_canonical {s : State} (hs : Canonical s.mem) (sid : Nat) (slot : Bool) (st : Strand)
    (f : Frag) (x a : BitVec 8) :
    Canonical (s.appendService sid slot st f x a).mem := by
  unfold State.appendService
  exact State.post_canonical (State.writeN_canonical (State.writeVa_canonical hs _ _ _ _) _ _ _) _ _ _ _ _

@[simp] theorem Ctx.collective_mem (c : Ctx) (x : BitVec 8) (op : Nat) : (c.collective x op).mem = c.s.mem := by
  fun_cases Ctx.collective c x op <;> simp +zetaDelta

@[simp] theorem Ctx.resumeService_mem (c : Ctx) : c.resumeService.mem = c.s.mem := by
  fun_cases Ctx.resumeService c <;> simp +zetaDelta

theorem execSyscallAppend_canonical {s : State} (hs : Canonical s.mem) (strand : Nat) (slot : Bool) :
    OutCanonical (execSyscallAppend strand slot s) := by
  simp only [execSyscallAppend, outCanonical_next]
  repeat' split
  all_goals simp [hs]

@[simp] theorem State.readFree_mem (s : State) (sp : Space) (va n : Nat) : (s.readFree sp va n).2.mem = s.mem := by
  fun_cases State.readFree s sp va n <;> simp +zetaDelta

@[simp] theorem State.writeImageReg_canonical {s : State} (hs : Canonical s.mem) (sp : Space) (ctx : DWord) (r : Nat)
    (m : Mask) (v : Lanes Word) :
    Canonical (s.writeImageReg sp ctx r m v).mem :=
  foldl_canonical (fun s _ hs => by simp [hs]) hs _

@[simp] theorem State.replyService_canonical {s : State} (hs : Canonical s.mem) (q : Nat) (i : DWord) :
    Canonical (s.replyService q i).mem := by
  fun_cases State.replyService s q i <;>
    grind [State.post_canonical, State.readFree_mem, State.writeImageReg_canonical, State.setStrand_mem,
      State.acquireOutside_mem, State.endHold_mem]

theorem execServiceReply_canonical {s : State} (hs : Canonical s.mem) (queue entry : Nat) :
    OutCanonical (execServiceReply queue entry s) := by
  simp [execServiceReply, hs]

theorem execCollectiveComplete_canonical {s : State} (hs : Canonical s.mem) (block number : Nat) (gone : Bool) :
    OutCanonical (execCollectiveComplete block number gone s) := by
  simp only [execCollectiveComplete, outCanonical_next]
  split <;> simp [hs]

theorem execTret_canonical {s : State} (hs : Canonical s.mem) (k : BitVec 1) : OutCanonical (execTret k s) := by
  refine strandWord_canonical hs fun c hc => ?_
  split
  next r _ _ =>
    have hk := State.checkTarget_canonical hc (c.st.agent c.s c.sid) (c.returnPlace r (k == 1)).2.1
    dsimp only
    split
    · simp [hc]
    · split
      next e => simp [canonical_of_eq_mk hk e]
      next e => simp [canonical_of_eq_mk hk e]
  · simp [hc]

theorem execTrapTaken_canonical {s : State} (hs : Canonical s.mem) (strand : Nat) :
    OutCanonical (execTrapTaken strand s) := by
  simp only [execTrapTaken, outCanonical_next]
  repeat' split
  all_goals simp [hs]

theorem execCtxsv_canonical {s : State} (hs : Canonical s.mem) (d a : BitVec 8) : OutCanonical (execCtxsv d a s) := by
  refine strandWord_canonical hs fun c hc => ?_
  repeat' split
  all_goals simp [hc]

theorem execCtxld_canonical {s : State} (hs : Canonical s.mem) (a : BitVec 8) : OutCanonical (execCtxld a s) := by
  refine strandWord_canonical hs fun c hc => ?_
  repeat' split
  all_goals simp [hc]

/-! ### Launches and placement -/

@[simp] theorem State.writeBook_canonical {s : State} (hs : Canonical s.mem) (l : Launch) (state record : Nat) :
    Canonical (s.writeBook l state record).mem := by
  simp [State.writeBook, hs]

@[simp] theorem State.finishLaunch_canonical {s : State} (hs : Canonical s.mem) (l : Launch) (known : Bool)
    (status detail cause gang : Nat) :
    Canonical (s.finishLaunch l known status detail cause gang).mem := by
  simp [State.finishLaunch, hs]

theorem execNotifyWrite_canonical {s : State} (hs : Canonical s.mem) (queue : Nat) (value : BitVec 64) :
    OutCanonical (execNotifyWrite queue value s) := by
  simp [execNotifyWrite, hs]

theorem execPacketAccept_canonical {s : State} (hs : Canonical s.mem) (queue : Nat) :
    OutCanonical (execPacketAccept queue s) := by
  simp [execPacketAccept, hs]

@[simp] theorem State.groupTable_mem (s : State) (l : Launch) : (s.groupTable l).1.mem = s.mem := by
  -- the read stays opaque, for to compare states by evaluation would run it
  obtain ⟨read, hread⟩ : ∃ read, read = State.readFree := ⟨_, rfl⟩
  have hr {s sp va n w t} (e : read s sp va n = (w, t)) : t.mem = s.mem := by
    rw [hread] at e
    exact (congrArg (·.2.mem) e).symm.trans (State.readFree_mem s sp va n)
  rewrite [State.groupTable, ← hread]
  clear hread
  generalize List.range 256 = groups
  split
  · rfl
  · split
    · rfl
    · split
      next t u e =>
      generalize hq : List.foldl _ (u, some []) _ = q
      have hqm : q.1.mem = u.mem := by
        rw [← hq]
        refine foldl_fst_mem (fun acc g => ?_) _ _
        split
        · rfl
        · extract_lets e list count
          split
          · rfl
          · split
            · rfl
            · split
              next e =>
              extract_lets names
              split <;> exact hr e
      rw [← hr e, ← hqm]
      clear hq hqm
      rcases q with ⟨v, - | tbl⟩
      · rfl
      · exact ite_fst_mem _ _ _ _

theorem execLaunchStart_canonical {s : State} (hs : Canonical s.mem) (launch : Nat) :
    OutCanonical (execLaunchStart launch s) := by
  simp only [execLaunchStart, outCanonical_next]
  split
  · exact hs
  next l _ =>
    have hg : Canonical (s.groupTable l).1.mem := by
      rw [State.groupTable_mem]
      exact hs
    split
    · exact hs
    · split
      next e => exact State.unlessFull_canonical hs (by simp [canonical_of_eq_mk hg e])
      next e => simp [canonical_of_eq_mk hg e]

@[simp] theorem State.failAttempt_mem (s : State) (unit : Nat) (u : PlaceUnit) (l : Launch) :
    (s.failAttempt unit u l).mem = s.mem := by
  simp [State.failAttempt]

theorem execPlacementReserve_canonical {s : State} (hs : Canonical s.mem) (unit launch : Nat) (cores : List Nat) :
    OutCanonical (execPlacementReserve unit launch cores s) := by
  simp only [execPlacementReserve, outCanonical_next]
  repeat' split
  all_goals simp [hs]

theorem execPlacementRetry_canonical {s : State} (hs : Canonical s.mem) (unit : Nat) :
    OutCanonical (execPlacementRetry unit s) := by
  simp only [execPlacementRetry, outCanonical_next]
  repeat' split
  all_goals simp [hs]

@[simp] theorem State.startStrand_mem (s : State) (l : Launch) (gang tag : Nat) (bk : Nat) (b : Block) (num key : Nat) :
    (s.startStrand l gang tag bk b num key).mem = s.mem := by
  -- the read stays opaque, for to compare states by evaluation would run it
  have h := State.readFree_mem
  rw [State.startStrand]
  generalize State.readFree = read at h ⊢
  rw [← h s]
  split
  next e => rw [e]; rfl

@[simp] theorem State.acquireFor_mem (s : State) (l : Launch) (core : Nat) : (s.acquireFor l core).mem = s.mem := by
  fun_cases State.acquireFor s l core <;> simp +zetaDelta

@[simp] theorem State.commitSeat_canonical {s : State} (hs : Canonical s.mem) (l : Launch) (gang : Nat)
    (tag : BitVec 13) (x : Seat) :
    Canonical (s.commitSeat l gang tag x).mem := by
  have hst (b : Block) (keys nums : List Nat) (s : State) :
      (nums.foldl (fun s num => s.startStrand l gang tag.toNat x.key b num (keys.getD num 0)) s).mem = s.mem := by
    induction nums generalizing s with
    | nil => rfl
    | cons num nums ih =>
      rw [List.foldl_cons]
      exact (ih _).trans (State.startStrand_mem _ _ _ _ _ _ _ _)
  rw [State.commitSeat]
  refine State.adoptDeposits_canonical ?_ _
  rw [State.acquireFor_mem, hst, State.setBlock_mem]
  exact hs

theorem execPlacementCommit_canonical {s : State} (hs : Canonical s.mem) (unit tag : Nat) :
    OutCanonical (execPlacementCommit unit tag s) := by
  simp only [execPlacementCommit, outCanonical_next]
  split
  · exact hs
  · split
    · split
      · exact hs
      · split
        · simp [hs]
        · refine foldl_canonical (fun s x hs => State.commitSeat_canonical hs _ _ _ _) ?_ _
          simp [hs]
    · exact hs

@[simp] theorem State.relaunchGang_mem (s : State) (g : Gang) (cause detail : Nat) :
    (s.relaunchGang g cause detail).mem = s.mem := by
  simp [State.relaunchGang]

@[simp] theorem State.releaseFor_mem (s : State) (l : Launch) : (s.releaseFor l).mem = s.mem := by
  fun_cases State.releaseFor s l <;> simp +zetaDelta

theorem execLaunchComplete_canonical {s : State} (hs : Canonical s.mem) (launch : Nat) :
    OutCanonical (execLaunchComplete launch s) := by
  simp only [execLaunchComplete, outCanonical_next]
  repeat' split
  all_goals simp [hs]

theorem execHeldEventWrite_canonical {s : State} (hs : Canonical s.mem) : OutCanonical (execHeldEventWrite s) := by
  simp only [execHeldEventWrite, outCanonical_next]
  split <;> simp [hs]

/-! ### Saved blocks -/

@[simp] theorem State.startPreempt_mem (s : State) (cluster slot course : Nat) (command : Bool)
    (only : Option (List (BitVec 13))) :
    (s.startPreempt cluster slot course command only).mem = s.mem := by
  simp [State.startPreempt]

theorem execSliceExpiry_canonical {s : State} (hs : Canonical s.mem) (cluster slot : Nat) :
    OutCanonical (execSliceExpiry cluster slot s) := by
  simp only [execSliceExpiry, outCanonical_next]
  split <;> simp [hs]

@[simp] theorem State.writeSection_canonical {s : State} (hs : Canonical s.mem) (sp : Space) (va n : Nat)
    (f : Nat → Nat) :
    Canonical (s.writeSection sp va n f).mem :=
  foldl_canonical (fun s _ hs => by simp [hs]) hs _

@[simp] theorem State.ownSection_canonical {s : State} (hs : Canonical s.mem) (sp : Space) (va n : Nat) :
    Canonical (s.ownSection sp va n).mem :=
  foldl_canonical (fun s _ hs => by simp [hs]) hs _

@[simp] theorem State.writeBlockImage_canonical {s : State} (hs : Canonical s.mem) (sp : Space) (bk : Nat) (b : Block) :
    Canonical (s.writeBlockImage sp bk b).mem := by
  have hb (s : State) (hs : Canonical s.mem) : Canonical ((List.range 16).foldl (fun s k =>
      s.writeVa sp (b.saveSlot.toNat + b.sectionAt 1 + 576 * k) 576 (b.barrier k).image) s).mem :=
    foldl_canonical (fun s _ hs => by simp [hs]) hs _
  unfold State.writeBlockImage
  dsimp only
  iterate 5 refine State.writeSection_canonical ?_ _ _ _ _
  iterate 3 refine State.ownSection_canonical ?_ _ _ _
  exact State.writeVa_canonical (hb _ (by simp [hs])) _ _ _ _

@[simp] theorem State.saveBlock_canonical {s : State} (hs : Canonical s.mem) (bk : Nat) :
    Canonical (s.saveBlock bk).mem := by
  -- the writes of the image stay opaque, for to compare states by evaluation would run them
  obtain ⟨image, himage⟩ : ∃ f, f = State.writeBlockImage := ⟨_, rfl⟩
  obtain ⟨context, hcontext⟩ : ∃ f, f = State.saveContext := ⟨_, rfl⟩
  have hi {s} (hs : Canonical s.mem) sp bk b : Canonical (image s sp bk b).mem := by
    rw [himage]
    exact State.writeBlockImage_canonical hs sp bk b
  have hc {s} (hs : Canonical s.mem) k st : Canonical (context s k st).mem := by
    rw [hcontext]
    exact State.saveContext_canonical hs k st
  have hr {s} (hs : Canonical s.mem) sp bk b (l : List Nat) :
      Canonical (l.foldl State.removeStrand ((image s sp bk b).returnAllotment bk b)).mem := by
    simp [hi, hs]
  have hf : Canonical (s.flipBlock bk).mem := by simp [hs]
  rewrite [State.saveBlock, ← himage, ← hcontext]
  clear himage hcontext
  dsimp only
  split
  · exact hf
  next b _ =>
    split
    · exact hf
    next g _ =>
      split
      · simp [hs]
      · refine hr (foldl_canonical (fun s k hs => ?_) ?_ _) _ _ _ _
        · split <;> simp [hs, hc]
        · simp [hs]

theorem execPreemptionDone_canonical {s : State} (hs : Canonical s.mem) (cluster slot : Nat) :
    OutCanonical (execPreemptionDone cluster slot s) := by
  simp only [execPreemptionDone, outCanonical_next]
  split
  · exact hs
  next p _ =>
    have hb : Canonical ((s.blocks.filter (fun x => p.covers x.1 x.2)).foldl (fun s x => s.saveBlock x.1) s).mem :=
      foldl_canonical (fun s x hs => State.saveBlock_canonical hs _) hs _
    split <;> exact hb

/-! ### Resumed gangs -/

@[simp] theorem State.endCommand_mem (s : State) (refused : Bool) : (s.endCommand refused).mem = s.mem := by
  simp [State.endCommand]

@[simp] theorem State.startCommand_mem (s : State) : s.startCommand.mem = s.mem := by
  simp [State.startCommand]

@[simp] theorem State.commandDue_mem (s : State) : s.commandDue.mem = s.mem := by
  fun_cases State.commandDue s <;> simp +zetaDelta

theorem State.command_canonical {s : State} (hs : Canonical s.mem) (operand : BitVec 56) (width : Nat)
    (zeros : List (Nat × Nat))
    {body : Nat → State} (hb : ∀ n, Canonical (body n).mem) : OutCanonical (s.command operand width zeros body) := by
  simp [State.command, hs, hb]

@[simp] theorem State.contextImage_mem (s : State) (st : Strand) : (s.contextImage st).2.mem = s.mem := by
  simp [State.contextImage]

@[simp] theorem State.blockBack_mem (s : State) (sp : Space) (b : Block) (x : Fit) :
    (s.blockBack sp b x).2.mem = s.mem := by
  -- the read stays opaque, for to compare states by evaluation would run it
  obtain ⟨read, hread⟩ : ∃ f, f = State.readFree := ⟨_, rfl⟩
  have h (s : State) (va n : Nat) : (read s sp va n).2.mem = s.mem := by
    rw [hread]
    exact State.readFree_mem s sp va n
  rewrite [State.blockBack, ← hread]
  clear hread
  exact (h _ _ _).trans <| (h _ _ _).trans <| (h _ _ _).trans <| (h _ _ _).trans <| (h _ _ _).trans <|
    (h _ _ _).trans (h s _ _)

theorem State.strandBack_mem (s : State) (b : Block) (bk key : Nat) (st : Strand) :
    ∀ t, s.strandBack b bk key st = some t → t.mem = s.mem := by
  fun_cases State.strandBack s b bk key st <;>
    grind [State.contextImage_mem, State.loadImage_mem, State.setStrand_mem, State.askRefill_mem]

theorem State.memberBack_mem (s : State) (g : Gang) (b : Block) (x : Fit) :
    ∀ t, s.memberBack g b x = some t → t.mem = s.mem := by
  intro t h
  -- the reads of the image stay opaque, for to compare states by evaluation would run them
  obtain ⟨back, hback⟩ : ∃ f, f = State.blockBack := ⟨_, rfl⟩
  have hb (sp : Space) : (back s sp b x).2.mem = s.mem := by
    rw [hback]
    exact State.blockBack_mem s sp b x
  obtain ⟨strandBack, hstrand⟩ : ∃ f, f = State.strandBack := ⟨_, rfl⟩
  have hst (s b k k' st t) (h : strandBack s b k k' st = some t) : t.mem = s.mem := by
    rw [hstrand] at h
    exact State.strandBack_mem s b k k' st t h
  rewrite [State.memberBack, ← hback, ← hstrand] at h
  clear hback hstrand
  split at h
  · cases h
  · split at h
    next b' r e =>
    have hr : r.mem = s.mem := (congrArg (·.2.mem) e).symm.trans (hb _)
    extract_lets r' pairs keys at h
    split at h
    · cases h
    next u e =>
      have hu : u.mem = r'.mem := foldl_bind_mem (fun s p t => hst s _ _ _ _ t) e
      obtain rfl := Option.some.inj h
      rw [State.raiseClock_mem]
      exact hu.trans hr

@[simp] theorem State.goOn_canonical {s : State} (hs : Canonical s.mem) (old : Strand) (key : Nat) :
    Canonical (s.goOn old key).mem := by
  fun_cases State.goOn s old key <;> simp +zetaDelta [hs]

theorem State.gangBack_canonical {s : State} (hs : Canonical s.mem) (g : Gang) (l : List (Block × Fit)) :
    ∀ t, s.gangBack g l = some t → Canonical t.mem := by
  intro t h
  unfold State.gangBack at h
  split at h
  · cases h
  next u e =>
    have hu : u.mem = s.mem := foldl_bind_mem (fun s p t => State.memberBack_mem s g p.1 p.2 t) e
    obtain rfl := Option.some.inj h
    refine foldl_canonical (fun s p hs => foldl_canonical (fun s r hs => ?_) hs _) ?_ _
    · simp [hs]
    · refine foldl_canonical (fun s p hs => foldl_canonical (fun s r hs => ?_) hs _) ?_ _
      · simp [hs]
      · exact hu ▸ hs

@[simp] theorem State.moveGang_canonical {s : State} (hs : Canonical s.mem) (g : Gang) (l : List (Block × Fit)) :
    Canonical (s.moveGang g l).mem := by
  fun_cases State.moveGang s g l
  · simp +zetaDelta [hs]
  next e => simp +zetaDelta [State.gangBack_canonical hs g l _ e]

theorem execGangRelaunch_canonical {s : State} (hs : Canonical s.mem) (gang : Nat) :
    OutCanonical (execGangRelaunch gang s) := by
  simp only [execGangRelaunch, outCanonical_next]
  repeat' split
  all_goals simp [hs]

theorem execResumeSavedGang_canonical {s : State} (hs : Canonical s.mem) (operand : BitVec 56) (cores : List Nat) :
    OutCanonical (execResumeSavedGang operand cores s) := by
  refine State.command_canonical hs _ _ _ fun n => ?_
  split
  · simp [hs]
  · split
    · simp [hs]
    · dsimp only
      split
      · simp [hs]
      · split
        · simp [hs]
        · split
          · simp [hs]
          next e => simp [State.gangBack_canonical hs _ _ _ e]

/-! ### Errors -/

theorem execPatrolScrub_canonical {s : State} (hs : Canonical s.mem) (granule : Nat) (bad : Bool) :
    OutCanonical (execPatrolScrub granule bad s) := by
  simp [execPatrolScrub, hs]

@[simp] theorem State.showTelemetry_mem (s : State) : s.showTelemetry.mem = s.mem := by
  fun_cases State.showTelemetry s
  simp +zetaDelta

@[simp] theorem State.takeOut_mem (s : State) (core : Nat) : (s.takeOut core).mem = s.mem := by
  simp [State.takeOut]

@[simp] theorem State.outDue_mem (s : State) : s.outDue.mem = s.mem := by
  simp [State.outDue]

@[simp] theorem State.writeBad_mem (s : State) (core group at_ : Nat) : (s.writeBad core group at_).mem = s.mem := by
  fun_cases State.writeBad s core group at_ <;> simp +zetaDelta

@[simp] theorem State.loseBeat_mem (s : State) (core group at_ : Nat) (reader : Option Nat) :
    (s.loseBeat core group at_ reader).mem = s.mem := by
  fun_cases State.loseBeat s core group at_ reader <;> simp +zetaDelta

theorem execBusBeatError_canonical {s : State} (hs : Canonical s.mem) (core group : Nat) (wrong : List Nat)
    (words : BeatWords) :
    OutCanonical (execBusBeatError core group wrong words s) := by
  simp [execBusBeatError, hs]

@[simp] theorem State.postSensor_canonical {s : State} (hs : Canonical s.mem) (core sensor : Nat) :
    Canonical (s.postSensor core sensor).mem := by
  simp [State.postSensor, hs]

@[simp] theorem State.heed_canonical {s : State} (hs : Canonical s.mem) (core sensor : Nat) (was : Option Int) :
    Canonical (s.heed core sensor was).mem := by
  fun_cases State.heed s core sensor was <;> simp +zetaDelta [hs]

@[simp] theorem State.replaceSensor_mem (s : State) (core sensor : Nat) (estimate : Int) :
    (s.replaceSensor core sensor estimate).mem = s.mem := by
  fun_cases State.replaceSensor s core sensor estimate <;> simp +zetaDelta

theorem execSensorSample_canonical {s : State} (hs : Canonical s.mem) (core sensor : Nat) (reading estimate : Int)
    (busier : Bool) :
    OutCanonical (execSensorSample core sensor reading estimate busier s) := by
  refine (outCanonical_next _).mpr ?_
  extract_lets c
  split
  · exact hs
  next was n c' fails c'' t _ =>
    have ht : Canonical t.mem := by simp +zetaDelta [hs]
    split
    · exact State.unlessFull_canonical hs (by simp [hs])
    · split
      · exact State.unlessFull_canonical hs (by simp +zetaDelta [hs])
      · exact State.unlessFull_canonical hs (by split <;> simp [ht])

theorem execPowerHoldStep_canonical {s : State} (hs : Canonical s.mem) (power : Nat) (enough : Bool) :
    OutCanonical (execPowerHoldStep power enough s) := by
  simp [execPowerHoldStep, hs]

theorem execThermalStop_canonical {s : State} (hs : Canonical s.mem) (core sensor : Nat) :
    OutCanonical (execThermalStop core sensor s) := by
  simp [execThermalStop, hs]

theorem execTractTeardown_canonical {s : State} (hs : Canonical s.mem) (tract : Nat) :
    OutCanonical (execTractTeardown tract s) := by
  simp [execTractTeardown, hs]

@[simp] theorem State.powerCycle_mem (tract : Nat) (s : State) (cl : Nat) :
    (State.powerCycle tract s cl).mem = s.mem := by
  simp [State.powerCycle]

theorem execTeardownReport_canonical {t : State} (ht : Canonical t.mem) (tract : Nat) :
    OutCanonical (execTeardownReport tract t) := by
  simp [execTeardownReport, ht]

/-! ### The package -/

theorem State.commandOf_canonical {s : State} (hs : Canonical s.mem) (op : Nat) (operand : BitVec 56)
    {body : Nat → State}
    (hb : ∀ n, Canonical (body n).mem) : OutCanonical (s.commandOf op operand body) := by
  unfold State.commandOf
  split
  · exact State.command_canonical hs _ _ _ hb
  · simpa using hs

theorem execRefusedCommand_canonical {s : State} (hs : Canonical s.mem) (op : BitVec 8) (operand : BitVec 56) :
    OutCanonical (execRefusedCommand op operand s) := by
  simp [execRefusedCommand, hs]

theorem execHaltStrand_canonical {s : State} (hs : Canonical s.mem) (operand : BitVec 56) :
    OutCanonical (execHaltStrand operand s) := by
  refine State.commandOf_canonical hs _ _ fun n => ?_
  split <;> simp [hs]

theorem execReleaseStrand_canonical {s : State} (hs : Canonical s.mem) (operand : BitVec 56) :
    OutCanonical (execReleaseStrand operand s) := by
  refine State.commandOf_canonical hs _ _ fun id => ?_
  split
  · simp [hs]
  · split
    · split
      · simp [hs]
      · split <;> simp [hs]
    · simp [hs]

@[simp] theorem State.rearm_mem (s : State) (bk : Nat) (r : Record) : (s.rearm bk r).mem = s.mem := by
  simp [State.rearm]

@[simp] theorem State.rearmGroup_mem (s : State) (bk : Nat) (r : Record) : (s.rearmGroup bk r).mem = s.mem := by
  fun_cases State.rearmGroup s bk r <;> simp +zetaDelta

@[simp] theorem State.seqOn_mem (s : State) (bk : Nat) (r : Record) : (s.seqOn bk r).mem = s.mem := by
  simp [State.seqOn]

@[simp] theorem State.reflect_canonical {s : State} (hs : Canonical s.mem) (k : Nat) (st : Strand) (r : Record)
    (c : Cause) :
    Canonical (s.reflect k st r c).mem := by
  simp [State.reflect, hs]

theorem execResumeStrand_canonical {s : State} (hs : Canonical s.mem) (operand : BitVec 56) :
    OutCanonical (execResumeStrand operand s) := by
  refine State.commandOf_canonical hs _ _ fun id => ?_
  split
  · simp [hs]
  · split
    · split <;> simp [hs]
    · simp [hs]

theorem execKillGang_canonical {s : State} (hs : Canonical s.mem) (operand : BitVec 56) :
    OutCanonical (execKillGang operand s) := by
  refine State.commandOf_canonical hs _ _ fun n => ?_
  split <;> simp [hs]

theorem execPreemptSlot_canonical {s : State} (hs : Canonical s.mem) (operand : BitVec 56) :
    OutCanonical (execPreemptSlot operand s) :=
  State.commandOf_canonical hs _ _ fun n => by simp [hs]

theorem execTakeCoreOutOfService_canonical {s : State} (hs : Canonical s.mem) (operand : BitVec 56) :
    OutCanonical (execTakeCoreOutOfService operand s) :=
  State.commandOf_canonical hs _ _ fun n => by simp [hs]

@[simp] theorem State.abortLaunch_mem (s : State) (l : Launch) : (s.abortLaunch l).mem = s.mem := by
  simp [State.abortLaunch]

theorem execAbortQueue_canonical {s : State} (hs : Canonical s.mem) (operand : BitVec 56) :
    OutCanonical (execAbortQueue operand s) := by
  refine State.commandOf_canonical hs _ _ fun q => ?_
  have ha {t : State} (ht : Canonical t.mem) (l : List Launch) : Canonical (l.foldl State.abortLaunch t).mem := by
    simp [ht]
  dsimp only
  split
  · exact ha (by simp [hs]) _
  · exact ha (by simp [hs]) _

@[simp] theorem State.cleanTract_mem (s : State) (tract : Nat) : (s.cleanTract tract).mem = s.mem := by
  simp [State.cleanTract]

theorem execCheckpoint_canonical {s : State} (hs : Canonical s.mem) (operand : BitVec 56) :
    OutCanonical (execCheckpoint operand s) :=
  State.commandOf_canonical hs _ _ fun n => by simp [hs]

theorem execCheckpointWritesComplete_canonical {s : State} (hs : Canonical s.mem) :
    OutCanonical (execCheckpointWritesComplete s) := by
  simp only [execCheckpointWritesComplete, outCanonical_next]
  split <;> simp [hs]

@[simp] theorem State.storeOutside_canonical {s : State} (hs : Canonical s.mem) (pa : Nat) (bs : List Byte) :
    Canonical (s.storeOutside pa bs).mem := by
  simp [State.storeOutside, hs]

@[simp] theorem State.freeBytes_mem (s : State) (n : Nat) : (s.freeBytes n).2.mem = s.mem := by
  simp [State.freeBytes]

theorem execAttest_canonical {s : State} (hs : Canonical s.mem) (operand : BitVec 56) :
    OutCanonical (execAttest operand s) := by
  refine State.commandOf_canonical hs _ _ fun n => ?_
  dsimp only
  split <;> simp [hs]

@[simp] theorem State.writeWindow_mem (s : State) (offset : Nat) (value : BitVec 64) :
    (s.writeWindow offset value).mem = s.mem := by
  simp [State.writeWindow]

@[simp] theorem State.answer_mem (s : State) (agent : Nat) (a : Answer) : (s.answer agent a).mem = s.mem := by
  simp [State.answer]

theorem execControlRegisterWrite_canonical {s : State} (hs : Canonical s.mem) (place : WindowPlace)
    (write : Option (BitVec 64)) :
    OutCanonical (execControlRegisterWrite place write s) := by
  simp only [execControlRegisterWrite, outCanonical_next]
  repeat' split
  all_goals simp [hs]

theorem execHostAccess_canonical {s : State} (hs : Canonical s.mem) (addr : Nat) (write : Option (BitVec 64)) :
    OutCanonical (execHostAccess addr write s) := by
  unfold execHostAccess
  split
  · simp [hs]
  · split <;> simp [hs]

@[simp] theorem State.assignDomain_mem (s : State) (vmid : BitVec 8) : (s.assignDomain vmid).2.mem = s.mem := by
  fun_cases State.assignDomain s vmid <;> simp +zetaDelta

@[simp] theorem State.hartPeer_mem (s : State) (hart addr : Nat) (write : Option (BitVec 64)) :
    (s.hartPeer hart addr write).mem = s.mem := by
  fun_cases State.hartPeer s hart addr write <;> simp +zetaDelta

theorem execHartAccess_canonical {s : State} (hs : Canonical s.mem) (by_ : HartId) (addr : Nat)
    (write : Option (BitVec 64)) (_acquire _release : Bool) :
    OutCanonical (execHartAccess by_ addr write _acquire _release s) := by
  simp only [execHartAccess, outCanonical_next]
  repeat' split
  all_goals simp [hs]

@[simp] theorem State.patrolPass_mem (s : State) : s.patrolPass.mem = s.mem := by
  simp [State.patrolPass]

@[simp] theorem State.bootWith_mem (s : State) (i : BootImage) (failed : List Nat) (kernel : BitVec 384) :
    (s.bootWith i failed kernel).mem = s.mem := by
  simp [State.bootWith]

theorem execPackageBoot_canonical {s : State} (hs : Canonical s.mem) (slots : BootSlots) (found : BootFindings) :
    OutCanonical (execPackageBoot slots found s) := by
  simp [execPackageBoot, hs]

theorem execRecoveryImageWrite_canonical {s : State} (hs : Canonical s.mem) (image : BootImage) :
    OutCanonical (execRecoveryImageWrite image s) := by
  simp [execRecoveryImageWrite, hs]

/-! ### The arbiter -/

@[simp] theorem State.issuing_mem (s : State) (k : Nat) (slot : Bool) : (s.issuing k slot).mem = s.mem := by
  simp [State.issuing]

@[simp] theorem State.arbiter_mem (s : State) : s.arbiter.2.mem = s.mem := by
  fun_cases State.arbiter s <;> simp +zetaDelta

@[simp] theorem State.settleDue_canonical {s : State} (hs : Canonical s.mem) : Canonical s.settleDue.mem := by
  simp [State.settleDue, hs]

@[simp] theorem State.nextMove_canonical {s : State} (hs : Canonical s.mem) : Canonical s.nextMove.2.mem := by
  fun_cases State.nextMove s <;> simp +zetaDelta [hs]

/-! ### Atomics -/

theorem execMon_canonical {s : State} (hs : Canonical s.mem) (a : BitVec 8) : OutCanonical (execMon a s) := by
  refine strandWord_canonical hs fun c hc => ?_
  repeat' split
  all_goals simp [hc]

/-! ### Floating-point words -/

@[simp] theorem Ctx.rounded_mem (c : Ctx) (wide : Bool) (d : BitVec 8) (r : Nat → Nat × Word) :
    (c.rounded wide d r).mem = c.s.mem := by
  simp [Ctx.rounded]

theorem floatWord_canonical {s : State} (hs : Canonical s.mem) (i : Instr) (op : FloatOp) (d a b : BitVec 8) :
    OutCanonical (floatWord i op d a b s) :=
  strandWord_canonical hs fun c hc => by simp [hc]

theorem pickWord_canonical {s : State} (hs : Canonical s.mem) (i : Instr) (d a b : BitVec 8) (f : Nat → Nat → Nat → Nat)
    :
    OutCanonical (pickWord i d a b f s) :=
  strandWord_canonical hs fun c hc => by simp [hc]

theorem funcWord_canonical {s : State} (hs : Canonical s.mem) (i : Instr) (op : FloatOp) (d a : BitVec 8) :
    OutCanonical (funcWord i op d a s) :=
  strandWord_canonical hs fun c hc => by split <;> simp [hc]

theorem execTranscendentalComplete_canonical {s : State} (hs : Canonical s.mem) (flight : Nat) :
    OutCanonical (execTranscendentalComplete flight s) := by
  simp only [execTranscendentalComplete, outCanonical_next]
  split <;> simp [hs]

/-! ### Integer words -/

theorem lanes3_canonical {s : State} (hs : Canonical s.mem) (i : Instr) (d a b : BitVec 8) (wideB : Bool)
    (f : Ctx → Nat → Nat → Nat → Nat) :
    OutCanonical (lanes3 i d a b wideB f s) :=
  strandWord_canonical hs fun c hc => by simp [hc]

theorem lanes1_canonical {s : State} (hs : Canonical s.mem) (i : Instr) (d a : BitVec 8) (f : Ctx → Nat → Nat) :
    OutCanonical (lanes1 i d a f s) :=
  strandWord_canonical hs fun c hc => by simp [hc]

theorem carryWord_canonical {s : State} (hs : Canonical s.mem) (i : Instr) (d a b : BitVec 8)
    (f : Nat → Nat → Nat → Bool → Nat × Bool) :
    OutCanonical (carryWord i d a b f s) :=
  strandWord_canonical hs fun c hc => by simp [hc]

/-! ### Local words and edges -/

theorem execSpc_canonical {s : State} (hs : Canonical s.mem) (d a : BitVec 8) : OutCanonical (execSpc d a s) := by
  refine strandWord_canonical hs fun c hc => ?_
  dsimp only
  split <;> simp [hc]

theorem execXsend_canonical {s : State} (hs : Canonical s.mem) (cn r : BitVec 2) (a : BitVec 8) :
    OutCanonical (execXsend cn r a s) := by
  refine strandWord_canonical hs fun c hc => ?_
  dsimp only
  split
  · simp [hc]
  · split <;> simp [hc]

theorem execXrecv_canonical {s : State} (hs : Canonical s.mem) (d : BitVec 8) (cn r : BitVec 2) :
    OutCanonical (execXrecv d cn r s) := by
  refine strandWord_canonical hs fun c hc => ?_
  dsimp only
  split
  · split <;> simp [hc]
  · simp [hc]

theorem execXsendAccept_canonical {s : State} (hs : Canonical s.mem) (flight : Nat) :
    OutCanonical (execXsendAccept flight s) := by
  simp only [execXsendAccept, outCanonical_next]
  repeat' split
  all_goals simp [hs]

theorem execEdgeEntryArrival_canonical {s : State} (hs : Canonical s.mem) (flight : Nat) :
    OutCanonical (execEdgeEntryArrival flight s) := by
  simp only [execEdgeEntryArrival, outCanonical_next]
  repeat' split
  all_goals simp [hs]

/-! ### Moves -/

@[simp] theorem Ctx.setMode_mem (c : Ctx) (m : Word) : (c.setMode m).mem = c.s.mem := by
  simp [Ctx.setMode]

/-! ### Predicates -/

theorem compareWord_canonical {s : State} (hs : Canonical s.mem) (i : Instr) (p : BitVec 4) (a b : BitVec 8)
    (f : Ctx → Nat → Nat → Bool) :
    OutCanonical (compareWord i p a b f s) :=
  strandWord_canonical hs fun c hc => by simp [hc]

theorem predWord_canonical {s : State} (hs : Canonical s.mem) (i : Instr) (d a b : BitVec 4) (f : Mask → Mask → Mask) :
    OutCanonical (predWord i d a b f s) :=
  strandWord_canonical hs fun c hc => by simp [hc]

/-! ### Every instruction -/

theorem execPackageReset_canonical (s : State) : OutCanonical (execPackageReset s) :=
  (outCanonical_next _).mpr State.memWf_reset

theorem exec_canonical (i : Instr) {s : State} (hs : Canonical s.mem) : OutCanonical (exec i s) := by
  cases i <;> unfold exec
  -- words by the operation they share
  case add | sub | mul | mulh | mad | min | max | and | or | xor | andn | shl | shr | sar | rotl | bfx | bfi =>
    exact lanes3_canonical hs _ _ _ _ _ _
  case addc | subb =>
    exact carryWord_canonical hs _ _ _ _ _
  case abs | neg | not | clz | ctz | popc | brev =>
    exact lanes1_canonical hs _ _ _ _
  case fadd | fsub | fmul | ffma | frnd =>
    exact floatWord_canonical hs _ _ _ _ _
  case fmin | fmax | fminp | fmaxp | fabs | fneg | fcls =>
    exact pickWord_canonical hs _ _ _ _ _
  case frcp | frsq | fsqrt | fex2 | flg2 | fsin | fcos =>
    exact funcWord_canonical hs _ _ _ _
  case icmp | fcmp =>
    exact compareWord_canonical hs _ _ _ _ _
  case pand | por | pxor =>
    exact predWord_canonical hs _ _ _ _ _
  case lds | sts | ldsm | stsm | ld | ldb | st | stb | ldm | stm | pref | chain | pin | unpin | lotwb | lotdrop |
      atom | atomn | cas | atomsc | lda | stl | shld =>
    exact accessWord_canonical hs _
  case setmode | setmodeh | getmode | brx | ret | exit | nop | mov | lil | lih | sel | lea | fscl | fdot4 | p2v |
      v2p | vgrow | vshrink | shfl | rot | vote | lanes | rdsr | getfmt | cvt | nfpk | nfupk | srseed | spt | pgq |
      tlbsync | barar | fwait | fence | cpy | cpym | fixqRetry | fixqFail | zlen | zenc | zdec | zand | zxnor | zmin
      | zmux | zcnt | zdot | zregen | ztop | didqSelf | didqDpr | didqGate | dpsetDpr | dpsetSub | dpsetSeal |
      syscall | trap | brk | sigchk | sigrd | sigset =>
    exact strandWord_canonical hs fun c hc => by simp [hc]
  case setfmt | bar | bararArm | barw | barst | twait | tget | ldar | cpyq | sleepu | shset | shst | mq | zseed |
      zcls | errq =>
    exact strandWord_canonical hs fun c hc => by split <;> simp [hc]
  case mta | mbind | mmul | mzero | mout | mfmt | mloop | marr | mjmp | mtrn | maddt | mmax | mset =>
    exact seqWord_canonical hs fun c hc => by simp [hc]
  case mscl | mwb =>
    exact seqWord_canonical hs fun c hc => by split <;> simp [hc]
  -- words that have a lemma of their own
  case clauseStart => exact execClauseStart_canonical hs _ _ _ _
  case rcv => exact execRcv_canonical hs _
  case bra => exact execBra_canonical hs _ _
  case brc => exact execBrc_canonical hs _ _ _ _
  case call => exact execCall_canonical hs _ _
  case yield => exact execYield_canonical hs
  case wrsr => exact execWrsr_canonical hs _ _
  case spc => exact execSpc_canonical hs _ _
  case xsend => exact execXsend_canonical hs _ _ _
  case xrecv => exact execXrecv_canonical hs _ _ _
  case tlbinv => exact execTlbinv_canonical hs _ _ _
  case gbar => exact execGbar_canonical hs _
  case mon => exact execMon_canonical hs _
  case mwait => exact execMwait_canonical hs _
  case mgo => exact execMgo_canonical hs _ _ _
  case mres => exact execMres_canonical hs _ _
  case mabort => exact execMabort_canonical hs _ _
  case gcall => exact execGcall_canonical hs _
  case gret => exact execGret_canonical hs
  case tret => exact execTret_canonical hs _
  case ctxsv => exact execCtxsv_canonical hs _ _
  case ctxld => exact execCtxld_canonical hs _
  case mendl => exact execMendl_canonical hs
  case mstop => exact execMstop_canonical hs
  -- events
  case spilledStrandRefill => exact execSpilledStrandRefill_canonical hs _
  case scannerFlashFail => exact execScannerFlashFail_canonical hs _
  case peerAccess => exact execPeerAccess_canonical hs _ _ _ _
  case controlRegisterWrite => exact execControlRegisterWrite_canonical hs _ _
  case hartAccess => exact execHartAccess_canonical hs _ _ _ _ _
  case teardownReport => exact execTeardownReport_canonical hs _
  case clauseFetch => exact execClauseFetch_canonical hs
  case fragmentRefill => exact execFragmentRefill_canonical hs _
  case fragmentExchange => exact execFragmentExchange_canonical hs _
  case yieldRelease => exact execYieldRelease_canonical hs _
  case strandReclaim => exact execStrandReclaim_canonical hs _
  case blockEnd => exact execBlockEnd_canonical hs _
  case allotmentClear => exact execAllotmentClear_canonical hs _
  case growthGrant => exact execGrowthGrant_canonical hs _ _
  case growthRelief => exact execGrowthRelief_canonical hs _ _
  case transcendentalComplete => exact execTranscendentalComplete_canonical hs _
  case localAccessComplete => exact execLocalAccessComplete_canonical hs _
  case gangWindowArrival => exact execGangWindowArrival_canonical hs _
  case xsendAccept => exact execXsendAccept_canonical hs _
  case edgeEntryArrival => exact execEdgeEntryArrival_canonical hs _
  case tagSlot => exact execTagSlot_canonical hs _ _
  case lotMotionEnd => exact execLotMotionEnd_canonical hs _ _
  case frontLanding => exact execFrontLanding_canonical hs _ _ _
  case gateLanding => exact execGateLanding_canonical hs _ _ _
  case missFillArrival => exact execMissFillArrival_canonical hs _ _
  case missRetry => exact execMissRetry_canonical hs _ _
  case writeAcknowledge => exact execWriteAcknowledge_canonical hs _ _
  case remoteReplyArrival => exact execRemoteReplyArrival_canonical hs _ _
  case lotRecall => exact execLotRecall_canonical hs _ _
  case tlbWalkComplete => exact execTlbWalkComplete_canonical hs _
  case tlbinvComplete => exact execTlbinvComplete_canonical hs _
  case scannerJob => exact execScannerJob_canonical hs _
  case scannerFlashDone => exact execScannerFlashDone_canonical hs _
  case peerGone => exact execPeerGone_canonical hs _ _
  case peerStoreAck => exact execPeerStoreAck_canonical hs _
  case logicalClockTick => exact execLogicalClockTick_canonical hs _
  case leaseSweep => exact execLeaseSweep_canonical hs _
  case promotionRequest => exact execPromotionRequest_canonical hs _ _
  case promotionAnswer => exact execPromotionAnswer_canonical hs _
  case atomscTicket => exact execAtomscTicket_canonical hs _
  case barrierWatchdogExpiry => exact execBarrierWatchdogExpiry_canonical hs _ _
  case twaitTimeout => exact execTwaitTimeout_canonical hs _ _
  case mwaitExpiry => exact execMwaitExpiry_canonical hs _ _
  case mwbTimeout => exact execMwbTimeout_canonical hs _
  case copySegment => exact execCopySegment_canonical hs _ _ _
  case fixupReplay => exact execFixupReplay_canonical hs _ _
  case scannerHoldRetry => exact execScannerHoldRetry_canonical hs _ _ _
  case multicastDeposit => exact execMulticastDeposit_canonical hs _
  case promiseDue => exact execPromiseDue_canonical hs _ _
  case arraySlotGrant => exact execArraySlotGrant_canonical hs _
  case seqStreamStart => exact execSeqStreamStart_canonical hs _
  case seqFetch => exact execSeqFetch_canonical hs _
  case stochasticSlotGrant => exact execStochasticSlotGrant_canonical hs _
  case stochasticRequestComplete => exact execStochasticRequestComplete_canonical hs _
  case dpsetEffect => exact execDpsetEffect_canonical hs _
  case trapTaken => exact execTrapTaken_canonical hs _
  case gangRelaunch => exact execGangRelaunch_canonical hs _
  case sliceExpiry => exact execSliceExpiry_canonical hs _ _
  case preemptionDone => exact execPreemptionDone_canonical hs _ _
  case syscallAppend => exact execSyscallAppend_canonical hs _ _
  case serviceReply => exact execServiceReply_canonical hs _ _
  case collectiveComplete => exact execCollectiveComplete_canonical hs _ _ _
  case notifyWrite => exact execNotifyWrite_canonical hs _ _
  case packetAccept => exact execPacketAccept_canonical hs _
  case launchStart => exact execLaunchStart_canonical hs _
  case placementReserve => exact execPlacementReserve_canonical hs _ _ _
  case placementCommit => exact execPlacementCommit_canonical hs _ _
  case placementRetry => exact execPlacementRetry_canonical hs _
  case pinRelease => exact execPinRelease_canonical hs _
  case launchComplete => exact execLaunchComplete_canonical hs _
  case heldEventWrite => exact execHeldEventWrite_canonical hs
  case refusedCommand => exact execRefusedCommand_canonical hs _ _
  case tractTeardown => exact execTractTeardown_canonical hs _
  case patrolScrub => exact execPatrolScrub_canonical hs _ _
  case busBeatError => exact execBusBeatError_canonical hs _ _ _ _
  case sensorSample => exact execSensorSample_canonical hs _ _ _ _ _
  case powerHoldStep => exact execPowerHoldStep_canonical hs _ _
  case thermalStop => exact execThermalStop_canonical hs _ _
  case packageReset => exact execPackageReset_canonical s
  case packageBoot => exact execPackageBoot_canonical hs _ _
  case recoveryImageWrite => exact execRecoveryImageWrite_canonical hs _
  case bypassLoadDelivery => exact execBypassLoadDelivery_canonical hs _ _
  case checkpointWritesComplete => exact execCheckpointWritesComplete_canonical hs
  case hostAccess => exact execHostAccess_canonical hs _ _
  -- commands
  case haltStrand => exact execHaltStrand_canonical hs _
  case releaseStrand => exact execReleaseStrand_canonical hs _
  case resumeStrand => exact execResumeStrand_canonical hs _
  case killGang => exact execKillGang_canonical hs _
  case preemptSlot => exact execPreemptSlot_canonical hs _
  case takeCoreOutOfService => exact execTakeCoreOutOfService_canonical hs _
  case abortQueue => exact execAbortQueue_canonical hs _
  case checkpoint => exact execCheckpoint_canonical hs _
  case attest => exact execAttest_canonical hs _
  case resumeSavedGang => exact execResumeSavedGang_canonical hs _ _

/-! ### The step -/

theorem step_canonical {s : State} (hs : Canonical s.mem) : OutCanonical (step s) := by
  have hn : Canonical s.nextMove.2.mem := State.nextMove_canonical hs
  unfold step
  dsimp only
  generalize s.nextMove = p at hn ⊢
  split
  · exact exec_canonical _ hn
  · simp [hn]
  · simp [hn]
  · simp [hn]

/-- Settles O60: the move of a step (`State.nextMove`) and every outcome it leads to keep memory canonical. -/
theorem stepsKeepMemoryCanonical : Obligations.StepsKeepMemoryCanonical :=
  fun _ t hs h => step_canonical (State.memWf_iff_canonical.mp hs) t h

end Sys2Proof.Machine
end

