-- ==== Sys2Proof/Proofs/InstructionWords.lean ====
section
namespace Sys2Proof.Laws.RoundTrip

/-!
# Instruction words (spec 02): O55, O56, O16

O56 puts together the laws of `RoundTrip`, one for each constructor of `Instr`. O16 rests on what a fetch does where it is
served and where it is not (`execClauseFetch_ok`, `execClauseFetch_error`), and on the three outcomes of a start
(`execClauseStart_eq`).
-/

/-- The case split on the instruction is the whole argument: each constructor has its own law, given here in the order in
which `Instr` lists the constructors. -/
theorem statement_of_instr (i : Instr) : Statement i :=
  Instr.casesOn (motive := Statement) i
    clauseStart setmode setmodeh getmode rcv bra brc brx call ret exit yield nop mov lil lih sel add addc sub subb mul mulh mad abs
    neg min max lea and or xor andn not shl shr sar rotl bfx bfi clz ctz popc brev fadd fsub fmul ffma fmin fmax fminp fmaxp fabs fneg
    frcp frsq fsqrt fex2 flg2 fsin fcos frnd fcls fscl fdot4 icmp fcmp pand por pxor p2v v2p vgrow vshrink shfl rot vote lanes rdsr
    wrsr setfmt getfmt cvt nfpk nfupk srseed lds sts ldsm stsm spt spc xsend xrecv ld ldb st stb ldm stm pref chain pin unpin lotwb
    lotdrop pgq tlbinv tlbsync bar barar bararArm barw barst gbar fwait twait tget fence atom atomn cas atomsc lda stl ldar mon mwait
    cpy cpym cpyq sleepu fixqRetry fixqFail shld shset shst mgo mq mres mabort zlen zseed zenc zdec zand zxnor zmin zmux zcnt zdot
    zregen zcls ztop gcall gret didqSelf didqDpr didqGate dpsetDpr dpsetSub dpsetSeal syscall trap tret brk ctxsv ctxld sigchk sigrd
    sigset errq mta mbind mmul mzero mout mscl mfmt mloop mendl marr mwb mjmp mtrn maddt mmax mset fragmentRefill fragmentExchange
    yieldRelease strandReclaim blockEnd allotmentClear growthGrant growthRelief spilledStrandRefill transcendentalComplete
    localAccessComplete gangWindowArrival xsendAccept edgeEntryArrival tagSlot lotMotionEnd frontLanding gateLanding missFillArrival
    missRetry writeAcknowledge remoteReplyArrival lotRecall tlbWalkComplete tlbinvComplete scannerJob logicalClockTick leaseSweep
    promotionRequest promotionAnswer atomscTicket barrierWatchdogExpiry twaitTimeout mwaitExpiry mwbTimeout copySegment fixupReplay
    multicastDeposit promiseDue arraySlotGrant seqStreamStart seqFetch stochasticSlotGrant stochasticRequestComplete dpsetEffect
    trapTaken gangRelaunch sliceExpiry preemptionDone syscallAppend packetAccept launchStart placementRetry pinRelease launchComplete
    bypassLoadDelivery mstop clauseFetch scannerFlashDone scannerFlashFail peerGone peerStoreAck peerAccess scannerHoldRetry
    serviceReply collectiveComplete notifyWrite placementReserve placementCommit heldEventWrite haltStrand releaseStrand resumeStrand
    killGang preemptSlot resumeSavedGang takeCoreOutOfService abortQueue checkpoint attest refusedCommand controlRegisterWrite
    hostAccess hartAccess tractTeardown teardownReport patrolScrub busBeatError sensorSample powerHoldStep thermalStop packageReset
    packageBoot recoveryImageWrite checkpointWritesComplete

/-- Settles O56: the laws of `RoundTrip`, read off for the stream that the instruction belongs to. -/
theorem encodedWordsDecodeBack : Obligations.EncodedWordsDecodeBack := by
  intro i w hwf hw
  have h := statement_of_instr i w hwf hw
  cases hs : i.isSequencer <;> simpa [hs] using h

end Sys2Proof.Laws.RoundTrip

namespace Sys2Proof.Machine

/-- Settles O55: the two columns and the five refused words are closed facts about the decoders, evaluated one by one. -/
theorem exampleWordsDecode : Obligations.ExampleWordsDecode := by
  refine ⟨?_, ?_, ?_, ?_, ?_, ?_, ?_⟩ <;> decide

/-! ### Strands and fragments -/

theorem State.modStrand_of_strand {s : State} {k : Nat} {st : Strand} (h : s.strand k = some st) (f : Strand → Strand) :
    s.modStrand k f = s.setStrand k (f st) := by
  rw [State.strand] at h
  simp only [State.modStrand, Tbl.modify, h, State.setStrand]

theorem State.onlyStrand_setStrand (s : State) (k : Nat) (st : Strand) : s.onlyStrand (s.setStrand k st) k :=
  ⟨rfl, fun _ hj => State.strand_setStrand_ne s st hj⟩

theorem State.fragOf_setStrand_setFrag (s : State) (k : Nat) (st : Strand) (slot : Bool) (f : Option Frag) :
    (s.setStrand k (st.setFrag slot f)).fragOf k slot = f := by
  simp [State.fragOf]

/-! ### A fetch (02 R10) -/

theorem execClauseFetch_ok {s s1 : State} {st : Strand} {f : Frag} {ws : List Word} (hst : s.strand s.cur = some st)
    (hf : st.frag s.curSlot = some f) (h : s.fetchClause (st.agent s s.cur) f.header = (s1, .ok ws)) (h1 : s1.strand s.cur = some st) :
    execClauseFetch s = .next (s1.setStrand s.cur (st.setFrag s.curSlot (some { f with clause := ws }))) := by
  simp only [execClauseFetch, hst, hf, h, State.modStrand_of_strand h1]

theorem execClauseFetch_error {s s1 : State} {st : Strand} {f : Frag} {e : Cause} {d : Detail} (hst : s.strand s.cur = some st)
    (hf : st.frag s.curSlot = some f) (h : s.fetchClause (st.agent s s.cur) f.header = (s1, .error (e, d))) :
    execClauseFetch s =
      .next (s1.raise s.cur s.curSlot f.header (s1.fetchRaised (st.agent s s.cur) f.header e f.mask d) none false) := by
  simp only [execClauseFetch, hst, hf, h]

/-! ### A start (02 R24, R26, R31, 04 R82) -/

/-- R26: outside its join address, a clause that the decoder accepts waits while a flag of its header is set or taken, unless
it is a resumed one (R31). -/
theorem Strand.clauseWaits_iff {st : Strand} {f : Frag} (other : Option Frag) (hj : st.atJoin f = false) (hok : clauseOk f.clause = true) :
    st.clauseWaits f other = true ↔
      f.resumed = false ∧ (st.flags ||| (other.map Frag.claimed).getD 0) &&& clauseFlags (f.clause.getD 0 0) ≠ 0 := by
  cases other <;> simp [Strand.clauseWaits, hj, hok]

/-- The fragment with its fetched body under the header that is decoded. -/
def Frag.under (f : Frag) (head : Word) : Frag := { f with clause := head :: f.clause.drop 1 }

section
variable {s : State} {st : Strand} {f : Frag} {l : BitVec 4} {w : BitVec 12} {a b : BitVec 4} {head : Word}
  (hst : s.strand s.cur = some st) (hf : st.frag s.curSlot = some f) (hhead : encode (.clauseStart l w a b) = some head)
  (hs : f.started = false) (hj : st.atJoin f = false)
include hst hf hhead hs hj

/-- A header that is reached outside a join address is refused, waits or starts its clause. -/
theorem execClauseStart_eq :
    execClauseStart l w a b s = .next (
      if clauseOk (f.under head).clause = false then s.raise s.cur s.curSlot f.header (Raised.wide .illegalClause f.mask 0) none false
      else if st.clauseWaits (f.under head) (st.frag !s.curSlot) then s
      else s.setStrand s.cur (st.setFrag s.curSlot (some
        { f.under head with
          started := true
          pc := f.header + 4 + BitVec.ofNat 64 (4 * f.index)
          claims := ((st.frag !s.curSlot).map (st.rivalFlags (f.under head))).getD 0 }))) := by
  unfold execClauseStart
  simp only [hst, hf, hhead, Option.getD_some, Bool.not_eq_true']
  rw [if_neg (by simp [hs]), if_neg (by simp [hj])]
  cases st.frag !s.curSlot <;> rfl

end

/-- Settles O16: each clause of the statement is one outcome of a fetch or of a start. -/
theorem clausesAreFetchedAndStarted : Obligations.ClausesAreFetchedAndStarted := by
  intro s st f l w a b head hst hf hhead ws
  refine ⟨fun s1 ws' h h1 => ?fetched, fun s1 e d h => execClauseFetch_error hst hf h, fun hs hj => ?_⟩
  case fetched =>
    exact ⟨_, execClauseFetch_ok hst hf h h1, State.onlyStrand_setStrand _ _ _, State.fragOf_setStrand_setFrag _ _ _ _ _⟩
  have hstart := execClauseStart_eq hst hf hhead hs hj
  have hwait (hok : clauseOk ws = true) := Strand.clauseWaits_iff (f := f.under head) (st.frag !s.curSlot) hj hok
  refine ⟨fun hok => ?refused, fun hok hr hflags => ?waits, fun hok h => ?starts⟩
  case refused =>
    rwa [if_pos (show clauseOk (f.under head).clause = false from hok)] at hstart
  all_goals
    rw [if_neg (show ¬clauseOk (f.under head).clause = false from (Bool.not_eq_false _).mpr hok)] at hstart
  case waits =>
    rwa [if_pos ((hwait hok).mpr ⟨hr, hflags⟩)] at hstart
  case starts =>
    have hgo : ¬st.clauseWaits (f.under head) (st.frag !s.curSlot) = true := by
      rw [hwait hok]
      rintro ⟨hr, hflags⟩
      exact h.elim (Bool.eq_false_iff.mp hr) hflags
    rw [if_neg hgo] at hstart
    exact ⟨_, hstart, State.onlyStrand_setStrand _ _ _, State.fragOf_setStrand_setFrag _ _ _ _ _⟩

end Sys2Proof.Machine
end

