-- ==== Sys2Proof/Proofs/NumberFormats.lean ====
section
namespace Sys2Proof.Machine

/-!
# Number formats and special registers (specs 03 and 05): O11

The first part adds to the laws of `Ctx.done`: the end of a word moves its fragment on and folds SIG, and keeps the rest. Then each
word of the statement has its equation: what `exec` answers where the word is issued. The statement is read off from these.
-/

/-! ### The end of a word -/

/-- R30, R443: the end of a word changes nothing of the strand but a fragment and SIG. -/
theorem Ctx.advance_eq (c : Ctx) (st : Strand) : ∃ A B g, c.advance st = { st with fragA := A, fragB := B, sig := g } := by
  have hfold : ∃ g, st.foldWord c.st.whole c.f c.word = { st with sig := g } := by
    unfold Strand.foldWord
    split
    · exact ⟨_, rfl⟩
    · exact ⟨st.sig, rfl⟩
  obtain ⟨g, hg⟩ := hfold
  simp only [Ctx.advance, hg]
  split
  · cases c.slot
    · exact ⟨_, st.fragB, g, rfl⟩
    · exact ⟨st.fragA, _, g, rfl⟩
  · exact ⟨st.fragA, st.fragB, g, rfl⟩

/-- So what is read from the other parts of the strand is as the word left it. -/
theorem Ctx.advance_keeps {α : Type} (read : Strand → α) (c : Ctx) (st : Strand)
    (hread : ∀ st A B g, read { st with fragA := A, fragB := B, sig := g } = read st := by intros; rfl) :
    read (c.advance st) = read st := by
  obtain ⟨A, B, g, h⟩ := c.advance_eq st
  rw [h, hread]

@[simp] theorem Ctx.doneIn_core (c : Ctx) (s : State) (k : Nat) : (c.doneIn s).core k = s.core k := by
  unfold Ctx.doneIn
  split <;> rfl

theorem Ctx.done_onlyStrand {s : State} {i : Instr} {c : Ctx} (hc : s.ctx i = some c) (st : Strand) :
    s.onlyStrand (c.done st) s.cur := by
  obtain ⟨-, -, rfl, hsid, -⟩ := State.ctx_eq_some hc
  rw [← hsid]
  exact State.onlyStrand_setStrand _ _ _

theorem Ctx.done_cur {s : State} {i : Instr} {c : Ctx} (hc : s.ctx i = some c) (st : Strand) :
    (c.done st).strand s.cur = some (c.advance st) := by
  obtain ⟨-, -, -, hsid, -⟩ := State.ctx_eq_some hc
  rw [← hsid, Ctx.done_strand]

theorem Ctx.done_read {α : Type} (read : Strand → α) {s : State} {i : Instr} {c : Ctx} (hc : s.ctx i = some c) (st : Strand)
    (hread : ∀ st A B g, read { st with fragA := A, fragB := B, sig := g } = read st := by intros; rfl) :
    ((c.done st).strand s.cur).map read = some (read st) := by
  rw [Ctx.done_cur hc, Option.map_some, Ctx.advance_keeps read c st hread]

/-! ### The format registers (03 R61 to R63) -/

theorem Frag.next_setQ (f : Frag) (q : List Word) : Frag.next { f with q := q } = { f.next with q := q } := by
  by_cases h : f.index + 1 < f.clause.length - 1 <;> simp [Frag.next, Frag.bodyLen, Frag.atHeader, h]

section
variable {s : State} {c : Ctx} {d a k : BitVec 8} {n : BitVec 2} {L : Nat}

/-- R62: with an active lane, a valid descriptor goes into qN, and any other one is refused. -/
theorem exec_setfmt (h : Issued (.setfmt n a) s c) (hL : c.act.lowest = some L) :
    exec (.setfmt n a) s = .next (
      if qValid (BitVec.ofNat 32 ((c.source 1 false a).at L)) then
        c.done (c.st.setFrag c.slot (some { c.f with q := c.f.q.set n.toNat (BitVec.ofNat 32 ((c.source 1 false a).at L)) }))
      else c.raiseWide .illegalOperand 0) := by
  obtain ⟨hc, hcodes, htype⟩ := h
  refine (strandWord_ready hc hcodes htype).trans ?_
  simp only [hL]

/-- R62: a write to a q register concerns the fragment of the word only. -/
theorem Ctx.done_setQ (h : s.ctx (.setfmt n a) = some c) (q : List Word) :
    ∃ st, (c.done (c.st.setFrag c.slot (some { c.f with q := q }))).strand s.cur = some st ∧
      st.frag s.curSlot = some { c.f.next with q := q } ∧ st.frag (!s.curSlot) = c.st.frag (!s.curSlot) := by
  obtain ⟨-, -, -, -, hslot, -, -⟩ := State.ctx_eq_some h
  refine ⟨_, Ctx.done_cur h _, ?_, ?_⟩
  · rw [← hslot, Ctx.advance_frag _ _ _ (Strand.frag_setFrag _ _ _), Frag.next_setQ]
  · rw [← hslot, Ctx.advance_frag_other, Strand.frag_setFrag_other]

/-- R63: a q register is 32 bits wide, so D takes it whole. -/
theorem getfmt_results (h : Issued (.getfmt d n) s c) (hL : L < 32) (ha : Mask.has c.act L = true) :
    Results (.getfmt d n) s false d L (c.f.q.getD n.toNat 0).toNat := by
  obtain ⟨hc, hcodes, htype⟩ := h
  refine ⟨_, strandWord_ready hc hcodes htype, ?_⟩
  rw [Ctx.result_laneOf hc hcodes (List.mem_singleton_self _) (.inl rfl) rfl _ (Vals.length_gen _) L hL ha, Vals.at_gen _ _ hL]
  exact congrArg some (Nat.mod_eq_of_lt (BitVec.isLt _))

/-! ### The generators (03 R68) -/

theorem Strand.srAt_setSr (st : Strand) (m : Mask) (f : Nat → Word) (hL : L < 32) :
    (st.setSr m f).srAt L = if Mask.has m L then f L else st.srAt L := by
  simp only [Strand.setSr, Strand.srAt, Lanes.at_gen _ _ _ hL]

/-- R68: the state that a seed gives to a lane. -/
def seeded (L x : Nat) : Word := if x = 0 then 0x9E3779B9#32 ^^^ BitVec.ofNat 32 L else BitVec.ofNat 32 x

theorem exec_srseed (h : Issued (.srseed a) s c) :
    exec (.srseed a) s = .next (c.done (c.st.setSr c.act (fun L => seeded L ((c.source 1 false a).at L)))) := by
  obtain ⟨hc, hcodes, htype⟩ := h
  exact strandWord_ready hc hcodes htype

/-! ### The special registers (05 R123, R125, R396) -/

/-- R125: `rdsr` gives its destination, of the width that R123 states, the value of the special register. -/
theorem rdsr_results (h : Issued (.rdsr d k) s c) (hL : L < 32) (ha : Mask.has c.act L = true) :
    Results (.rdsr d k) s (sprWide k.toNat) d L (c.special k.toNat % 2 ^ regBits (sprWide k.toNat)) := by
  obtain ⟨hc, hcodes, htype⟩ := h
  refine ⟨_, strandWord_ready hc hcodes htype, ?_⟩
  rw [Ctx.result_laneOf hc hcodes (List.mem_singleton_self _) (by cases sprWide k.toNat <;> simp) (by cases sprWide k.toNat <;> rfl) _
    (Vals.length_gen _) L hL ha, Vals.at_gen _ _ hL]

theorem rdsr_results_narrow {x : Nat} (h : Issued (.rdsr d k) s c) (hL : L < 32) (ha : Mask.has c.act L = true)
    (hk : sprWide k.toNat = false) (hx : c.special k.toNat = x) : Results (.rdsr d k) s false d L (x % 2 ^ 32) := by
  have := rdsr_results h hL ha
  rwa [hk, hx] at this

theorem rdsr_results_wide {x : DWord} (h : Issued (.rdsr d k) s c) (hL : L < 32) (ha : Mask.has c.act L = true)
    (hk : sprWide k.toNat = true) (hx : c.special k.toNat = x.toNat) : Results (.rdsr d k) s true d L x.toNat := by
  have := rdsr_results h hL ha
  rwa [hk, hx, show regBits true = 64 from rfl, Nat.mod_eq_of_lt x.isLt] at this

/-- R125, R396: without the kernel right a protected register is not written. -/
theorem exec_wrsr_denied (h : Issued (.wrsr k a) s c) (hk : k = 9 ∨ k = 10) (hr : c.st.rightKernel = false) :
    exec (.wrsr k a) s = .next (c.raiseWide .permission 0) := by
  obtain ⟨hc, hcodes, htype⟩ := h
  refine (strandWord_ready hc hcodes htype).trans ?_
  rw [if_pos (by simpa [hr] using hk)]

/-- R125: otherwise the special register takes the value of A in the lowest active lane. -/
theorem exec_wrsr_allowed (h : Issued (.wrsr k a) s c) (hk : k = 9 ∨ k = 10 → c.st.rightKernel = true)
    (hL : c.act.lowest = some L) :
    exec (.wrsr k a) s = .next (c.setSpecial k.toNat ((c.source 1 (sprWide k.toNat) a).at L)) := by
  obtain ⟨hc, hcodes, htype⟩ := h
  refine (strandWord_ready hc hcodes htype).trans ?_
  rw [if_neg (by simpa using hk)]
  simp only [hL]

theorem Ctx.setSpecial_hintMiss (c : Ctx) (x : Nat) : ((c.setSpecial 9 x).core c.core).hintMiss = BitVec.ofNat 64 x := by
  simp [Ctx.setSpecial]

end

/-- Settles O11: each clause is the equation of its word, read in the lane, the fragment or the register that it names. -/
theorem formatSeedAndSpecialRegisters : Obligations.FormatSeedAndSpecialRegisters := by
  refine ⟨fun s c d a n L => ⟨?valid, ?invalid, fun hL ha h => getfmt_results h hL ha, fun hL h => ?srseed⟩,
    fun s c d a k L => ⟨fun hL ha p hp h => ?narrow, fun hL ha p hp h => ?wide, fun hlow => ⟨?hintMiss, ?ctxBase, ?user0, ?user1⟩,
      fun hr hk h => exec_wrsr_denied h hk hr⟩⟩
  case valid =>
    rintro _ hlow rfl hq h
    obtain ⟨st, hst, hfrag, hother⟩ := Ctx.done_setQ h.1 _
    exact ⟨_, st, (exec_setfmt h hlow).trans (by rw [if_pos hq]), Ctx.done_onlyStrand h.1 _, hst, hfrag, hother⟩
  case invalid =>
    rintro _ hlow rfl hq h
    rw [exec_setfmt h hlow, if_neg (by simp [hq])]
  case srseed =>
    refine ⟨_, _, exec_srseed h, Ctx.done_onlyStrand h.1 _, Ctx.done_cur h.1 _, ?_⟩
    rw [Ctx.advance_keeps (fun st => st.srAt L), Strand.srAt_setSr _ _ _ hL]
    rfl
  case narrow =>
    obtain ⟨hwidth, hvalue⟩ : sprWide p.1.toNat = false ∧ c.special p.1.toNat = p.2 := by
      simp only [List.mem_cons, List.not_mem_nil, or_false] at hp
      obtain rfl | rfl | rfl | rfl | rfl := hp <;> exact ⟨rfl, rfl⟩
    exact rdsr_results_narrow h hL ha hwidth hvalue
  case wide =>
    obtain ⟨-, -, rfl, hsid, -⟩ := State.ctx_eq_some h.1
    rw [← hsid] at hp
    obtain ⟨hwidth, hvalue⟩ : sprWide p.1.toNat = true ∧ c.special p.1.toNat = p.2.toNat := by
      simp only [List.mem_cons, List.not_mem_nil, or_false] at hp
      obtain rfl | rfl | rfl | rfl | rfl | rfl | rfl | rfl := hp <;> exact ⟨rfl, rfl⟩
    exact rdsr_results_wide h hL ha hwidth hvalue
  case hintMiss =>
    intro hr h
    obtain ⟨-, -, -, hsid, -⟩ := State.ctx_eq_some h.1
    refine ⟨_, exec_wrsr_allowed h (fun _ => hr) hlow, ?_⟩
    rw [← hsid]
    exact Ctx.setSpecial_hintMiss _ _
  case ctxBase => exact fun hr h => ⟨_, exec_wrsr_allowed h (fun _ => hr) hlow, Ctx.done_read (fun st => st.ctxBase) h.1 _⟩
  case user0 => exact fun h => ⟨_, exec_wrsr_allowed h (by simp) hlow, Ctx.done_read (fun st => st.user0) h.1 _⟩
  case user1 => exact fun h => ⟨_, exec_wrsr_allowed h (by simp) hlow, Ctx.done_read (fun st => st.user1) h.1 _⟩

end Sys2Proof.Machine
end
